-- ==== Sys2Proof/Word.lean ====
section
/-! DEFINITION. The words of the machine: bytes, lines of 64 bytes, lists of keyed values. -/
namespace Sys2Proof

/-- One byte of memory, of a ring entry, of a frame. -/
abbrev Byte := BitVec 8

/-- A 512-bit line: one Canopy line, one fabric payload line (R14: lines of 64 B). -/
abbrev Line := BitVec 512

/-- A finite map from numbers, kept as a list with strictly rising keys. -/
abbrev Sparse (α : Type) := List (Nat × α)

end Sys2Proof
end

