-- ==== Sys2Proof/Syntax.lean ====
section
/-!
DEFINITION. The commands the block takes: one constructor per row of spec/opcode_table.json, with the row's operands.
What only the outside world knows when a command arrives (the bytes a host read returns, the level of a strap, the outcome of a
training or an ECC check) is an operand of that command.
-/
namespace Sys2Proof

/-- A principal's session (R42): one PF, one VF (number `n + 1`), the fabric manager, one field node on one bus, one Warden. -/
inductive Session where
  | pf (port : Fin 2)
  | vf (port : Fin 2) (n : Fin 72)
  | fabricMgr (src : BitVec 16)
  | field (bus : Fin 2) (node : BitVec 7)
  | warden (w : Fin 2)
  deriving DecidableEq, Repr

/-- The fields of the 12-byte operation header that a directory operation carries (R40, Table 3-3). -/
structure Hdr where
  index : BitVec 16
  sub : BitVec 8
  inst : BitVec 8
  txn : BitVec 16
  len : BitVec 16
  deriving DecidableEq, Repr

/-- What a read of host memory answers: its bytes, or an error completion (R137). -/
inductive HostRead where
  | ok (data : List Byte)
  | err
  deriving DecidableEq, Repr

/-- A frame received on CAN FD bus A (0) or B (1): its form and its 29-bit identifier (R54, Table 3-7a). -/
structure CanFrame where
  bus : Fin 2
  fd : Bool
  brs : Bool
  ext : Bool
  remote : Bool
  dlc : BitVec 4
  id : BitVec 29
  data : BitVec 512
  deriving DecidableEq, Repr

/-- What a ring-entry fetch answers: the 64-byte entry (bit 0 of byte 0 least significant) or a read error (R129). -/
inductive FetchRead where
  | entry (e : BitVec 512)
  | err
  deriving DecidableEq, Repr

/-- The outcome of LPDDR5X training at stage 6 (R107, R243, Table 2-10). -/
inductive TrainResult where
  | ok (density : BitVec 8) (ranks : Fin 3)
  | cachedFailed (density : BitVec 8) (ranks : Fin 3)
  | configFault (port : Fin 48)
  | trainFail (port : Fin 48) (step : Fin 16)
  deriving DecidableEq, Repr

/-- The outcome of one island's boot ROM (R37, R106): its self-test, and whether a signed unlock token came through its IEEE 1149.1 port. -/
structure RomRun where
  ok : Bool
  unlock : Bool := false
  deriving DecidableEq, Repr

/-- What start-up finds of one Seedbank copy (R51): whether it can be read, and the journal entries that fail their check in it, by place from
the newest. -/
structure SeedCopy where
  ok : Bool
  bad : List Nat := []
  deriving DecidableEq, Repr

/-- A switch of a pin (R76, R77): the pin, and whether its old function has a transfer in progress. -/
structure PinSwitch where
  pin : Fin 40
  busy : Bool := false
  deriving DecidableEq, Repr

/-- Staging on a die (R253, R254): the die, and what the host answers when the source of the update that takes its entry is a HOSTBUF. -/
structure StageFill where
  die : Fin 6
  src : HostRead
  deriving DecidableEq, Repr

/-- Whose mailbox it is (R60, R63): that of a function of the host port, or the directory port of the Warden, that the row names. -/
inductive MbUser where
  | fn (n : Fin 73)
  | warden
  deriving DecidableEq, Repr

/-- What happens at a mailbox (R60, R61): a request written to the request area, with the row's header, and submitted by MB_GO with the row's TAG;
the completion of the request submitted last; or a host's write or read of BAR0 at an offset. -/
inductive MbOp where
  | submit (val : Nat)
  | complete
  | write (off : BitVec 26) (data : List Byte)
  | read (off : BitVec 26) (len : BitVec 13)
  deriving DecidableEq, Repr

/-- Why the standby island takes over (R65). -/
inductive TakeoverCause where
  | beaconLoss
  | bothHalted
  | roleSwap
  deriving DecidableEq, Repr

/-- The control registers of a Warden (R68, Table 4-3). -/
inductive WCtl where
  | wptr | wres | spilled | spillPtr | spillLimit | trapPc | trapWptr | trapCause | trapInfo
  deriving DecidableEq, Repr

/-- A register an instruction of a Warden names: common `c0`–`c7`, or `w0`–`w15` of the window in use (R68). -/
inductive WReg where
  | c (n : Fin 8)
  | w (n : Fin 16)
  deriving DecidableEq, Repr

/-- The size of a Warden load or store. -/
inductive AccSize where
  | byte | half | word
  deriving DecidableEq, Repr

/-- A write to a doorbell page of BAR0 (R127): the port and function, the page, the 32-bit value, and whether it is a
4-byte write at the register's offset. -/
structure Doorbell where
  port : Fin 2
  fn : Fin 73
  page : Fin 4096
  value : BitVec 32
  full : Bool
  deriving DecidableEq, Repr

/-- The fields of a memory slot of a grove word (R171). -/
structure MemSlot where
  areg : Fin 4
  vreg : Fin 32
  offset : BitVec 21
  deriving DecidableEq, Repr

/-- The fields of a vector slot of a grove word (R171, R190). -/
structure VSlot where
  vd : Fin 32
  va : Fin 32
  vb : Fin 32
  ksel : Fin 8
  mz : Bool
  fmt : Fin 8
  mod : Fin 16
  deriving DecidableEq, Repr

/-- The fields of a matrix slot of a grove word (R171, R197). -/
structure XSlot where
  sfmt : Fin 8
  pfmt : Fin 8
  row : Fin 8
  cb : Fin 8
  group : Fin 4
  ofmt : Fin 8
  layer : Fin 64
  vd : Fin 32
  deriving DecidableEq, Repr

/-- The fields of a memory slot of a Thicket word (R225). -/
structure ThkSlot where
  pop : BitVec 8
  fmt : BitVec 4
  ereg : Fin 8
  poll : BitVec 8
  acc : BitVec 16
  imm : BitVec 64
  len : Fin 16 := 0
  next : Fin 16 := 0
  target : BitVec 14 := 0
  deriving DecidableEq, Repr

/-- The operands of an atomic at the home directory (R238): address, operand, compare value, and who fetches. -/
structure AtomArgs where
  addr : BitVec 48
  operand : BitVec 512
  compare : BitVec 64
  deriving DecidableEq, Repr

/-- A BAR2 access (R232). -/
inductive BarOp where
  | read (len : BitVec 12)
  | write (data : List Byte)
  deriving DecidableEq, Repr

/-- A slot of a memory sequencer word (R245): channel, rank, bank, row, column, and the immediate of a mode register. -/
structure MSlot where
  ch : Fin 4
  rank : Fin 2
  bank : Fin 16
  row : BitVec 18
  col : BitVec 6
  qsel : BitVec 8
  poll : BitVec 8
  imm : BitVec 64
  len : Fin 16 := 0
  next : Fin 16 := 0
  target : BitVec 14 := 0
  deriving DecidableEq, Repr

/-- The outcome of an ECC check on a line that is read. -/
inductive Ecc where
  | clean | corrected | uncorrectable
  deriving DecidableEq, Repr

/-- What a Canopy bank held where an error was found (R261, R320): an ordinary line, or part of the reserved region. -/
inductive SliceLoc where
  | line (addr : BitVec 48) (dirty : Bool)
  | stand (n : Fin 131072)
  | staging (ent line : Nat)
  | hot (addr : BitVec 48)
  deriving DecidableEq, Repr

/-- The outcome of one training attempt of a fabric port (R264): its good lanes and the link delay measured in ns, or a failure. -/
inductive FabTrain where
  | up (good : BitVec 4) (delay : BitVec 16)
  | fail
  deriving DecidableEq, Repr

/-- A flit received on a fabric port (R265, R266). -/
structure Flit where
  data : BitVec 1024
  deriving DecidableEq, Repr

/-- A HELLO of a neighbouring device (R269). -/
structure HelloMsg where
  port : Fin 12
  serial : BitVec 64
  addr : BitVec 16
  inc : BitVec 16
  priority : BitVec 8
  bestPriority : BitVec 8
  bestSerial : BitVec 64
  beacon : BitVec 64
  deriving DecidableEq, Repr

/-- A BEACON of the fabric manager, as it arrives on a port (R269). -/
structure BeaconMsg where
  port : Fin 12
  serial : BitVec 64
  addr : BitVec 16
  number : BitVec 64
  hops : BitVec 8
  deriving DecidableEq, Repr

/-- What a source-routed DISC operation carries beside its directory operation (R270): the port it came in by, the ports still to
follow, the arrival ports recorded, and the manager's serial. -/
structure Disc where
  port : Fin 12
  route : List (Fin 12)
  path : List (Fin 12)
  serial : BitVec 64
  deriving DecidableEq, Repr

/-- A fabric operation as it arrives whole (R275, Table 17-4): its source, both incarnations, its sequence number, partition, ARG, its
ticket when it is provisional or a correction, PROV, its data, and its route when it came source-routed. -/
structure OpMsg where
  src : BitVec 16
  sinc : BitVec 16
  dinc : BitVec 16
  oseq : BitVec 64
  part : BitVec 8
  arg : BitVec 32
  prov : Bool
  ticket : BitVec 24
  data : List Byte
  disc : Option Disc
  deriving DecidableEq, Repr

/-- An ANSWER to a fabric operation (R275): its source, the request's sequence number, status, TRANSIT, the answer value, and for a
source-routed one the ports still to follow. -/
structure AnsMsg where
  src : BitVec 16
  oseq : BitVec 64
  status : BitVec 8
  transit : Bool
  value : List Byte
  path : List (Fin 12)
  deriving DecidableEq, Repr

/-- One counter (R336): of a grove, or of an engine set of a die. -/
inductive CtrRef where
  | grove (part : Fin 72) (g : Fin 432) (n : Fin 8)
  | die (d : Fin 6) (n : Fin 16)
  deriving DecidableEq, Repr

/-- The error state of a field bus (R54). -/
inductive BusState where
  | active | passive | off
  deriving DecidableEq, Repr

/-- A configuration-space write that the block acts on (R85, R232, R109): BAR2 size, MSI-X enables and masks, VF enable. -/
inductive CfgOp where
  | bar2Size (mib : Nat)
  | vfBar2Size (mib : Nat)
  | msixEnable (on : Bool)
  | fnMask (on : Bool)
  | vecMask (vector : Fin 320) (on : Bool)
  | vfEnable (count : Fin 73)
  deriving DecidableEq, Repr

/-- The commands of the block, in the order of spec/opcode_table.json. -/
inductive Instr where
  /-- PWROK_RISE (R106). A rising PWROK edge samples the straps and starts start-up at stage 1. -/
  | pwrokRise (straps : BitVec 10)
  /-- MAINPWR_EN_POWER_ON (R21). Once VDD_AON and VDD_IO reach 90 %, the on-die power-on circuit drives MAINPWR_EN high. -/
  | mainpwrEnPowerOn
  /-- PWROK_FALL (R20). A falling PWROK starts a controlled power-down, or a cold reset from DORMANT. -/
  | pwrokFall
  /-- POWER_LOSS (R119). Loss of rails clears everything except Seedbank. -/
  | powerLoss
  /-- COLDRST_N_ASSERT (R119). COLDRST_N held low for 10 µs performs a cold reset. -/
  | coldrstNAssert
  /-- RAIL_FAULT (R18). A rail out of tolerance for more than 2 µs records RAIL_FAULT and performs a cold reset. -/
  | railFault (rail : Fin 7)
  /-- REFCLK_LOSS (R23). REFCLK stopping for more than 1 µs performs a cold reset, and the loss is recorded after restart. -/
  | refclkLoss
  /-- PLL_UNLOCK (R90). A root PLL losing lock records PLL_UNLOCK and performs a cold reset. -/
  | pllUnlock (die : Fin 6)
  /-- THERMTRIP (R30). A sensor reaching 118 °C stops the clocks, drives THERMTRIP_N and MAINPWR_EN low, and records THERMTRIP. -/
  | thermtrip (die : Fin 6) (sensor : Fin 12)
  /-- THERMAL_STEP_RAISE (R101). Each 100 µs above TJ_THROTTLE raises THERMAL_STEP by one, up to 5. -/
  | thermalStepRaise (die : Fin 6) (tj : BitVec 16)
  /-- THERMAL_STEP_LOWER (R101). Each 1 ms below TJ_THROTTLE − 3 °C lowers THERMAL_STEP by one. -/
  | thermalStepLower (die : Fin 6) (tj : BitVec 16)
  /-- POWER_SAMPLE (R99). Package power is measured every 10 µs, and a sample above 1,020 W raises CAP_STEP within 1 µs. -/
  | powerSample (watts : Nat)
  /-- CAP_STEP_RAISE (R99). An average above POWER_CAP raises CAP_STEP within 20 µs, and again every 100 µs, up to 5. -/
  | capStepRaise
  /-- CAP_STEP_LOWER (R99). Each 1 ms below 97 % of the cap lowers CAP_STEP by one. -/
  | capStepLower
  /-- AUTOGATE_STOP (R95). After 256 idle cycles, an autogated domain stops its clock. -/
  | autogateStop (dom : Fin 544)
  /-- AUTOGATE_WAKE (R95). New work restarts a gated domain's clock within 4 cycles. -/
  | autogateWake (dom : Fin 544)
  /-- ROM_BOOT (R106). Stage 2: both islands self-test and their Wardens start from the boot ROM. -/
  | romBoot (d0 d3 : RomRun)
  /-- SPI_NOR_READ (R111). Stage 3: the device reads SFDP and the boot container from the selected slot. -/
  | spiNorRead (image : Option (List Byte))
  /-- CONTAINER_VERIFICATION (R115). The container checks run in order, and the first failing check refuses the container. -/
  | containerVerification
  /-- RECOVERY_BOOT (R112). After stage 5, the device waits for a BOOT container through the D0 intake. -/
  | recoveryBoot
  /-- SEEDBANK_RECOVERY (R51). Stage 5: the Seedbank copies are resynchronised and RWP parameters are restored from the newest intact entries. -/
  | seedbankRecovery (c0 c3 : SeedCopy) (writable : Bool)
  /-- LPDDR_TRAINING (R243). Stage 6: training runs in full or cached, then the image is copied and the slice layout is set. -/
  | lpddrTraining (res : TrainResult)
  /-- IMAGE_DIGEST_CHECK (R108). The stored boot image is checked against its Seedbank digest, and stages 3 and 4 run on failure. -/
  | imageDigestCheck
  /-- MICROCODE_LOAD (R106). Stage 7: every sequencer is loaded, applied patches are reapplied, and Warden firmware starts. -/
  | microcodeLoad
  /-- BOOT_SURVEY (R110). Stage 8: the survey patterns run, failing units are fenced, and start-up stops on fatal failures. -/
  | bootSurvey (fails : List Nat)
  /-- LINK_TRAINING (R106). Stage 9: fabric ports train for up to 50 ms and the device joins discovery. -/
  | linkTraining
  /-- READY (R106). Stage 10: rings accept doorbells, READY is heartbeated and MIN_SVN for BOOT rises. -/
  | readyStage
  /-- HOST_LINK_L0 (R109). A host port reaches L0 and serves configuration space and the mailbox. -/
  | hostLinkL0 (port : Fin 2)
  /-- RESET_REQ_COLD (R119). A commit of RESET_REQ = 0xC01D performs a cold reset. -/
  | resetReqCold (who : Session)
  /-- RESET_REQ_WARM (R119). A commit of RESET_REQ = 0x7A11 performs a warm reset, flushing the Canopy and applying a BOOT container in intake. -/
  | resetReqWarm (who : Session)
  /-- PERST_FALL (R121). A falling PERST# performs a cold reset or a port reset, according to PERST_SCOPE. -/
  | perstFall (port : Fin 2)
  /-- PF_FLR (R350). A PF FLR resets the PF's rings and mailbox, and every partition mapped to a VF of that port. -/
  | pfFlr (port : Fin 2)
  /-- PCIE_HOT_RESET (R350). A hot reset or link down acts on the port's PF rings as a PF FLR does. -/
  | pcieHotReset (port : Fin 2) (down : Bool)
  /-- VF_FLR (R120). A VF FLR resets its partition without writing completions and discards its transactions. -/
  | vfFlr (port : Fin 2) (vf : Fin 72)
  /-- PART_RESET (R120). A commit of PART_RESET = 0x9C3E aborts the partition's work, frees its stands and defaults its parameters. -/
  | partReset (who : Session) (part : BitVec 8)
  /-- CT_OPEN (R118). Discards any container in intake and opens intake for TOTAL_LEN bytes. -/
  | ctOpen (who : Session) (len : BitVec 32)
  /-- CT_DATA (R118). Appends the next 4,096-byte chunk to intake. -/
  | ctData (who : Session) (chunk : List Byte)
  /-- CT_COMMIT (R118). Verifies the container in intake and applies it, or schedules it for the next warm reset. -/
  | ctCommit (who : Session)
  /-- PATCH_SWITCH (R179). Once its tasks retire, a sequencer writes the new patch set within 2 µs and resumes. -/
  | patchSwitch (kind : Fin 3) (unit : Nat)
  /-- READ (R41). A directory READ returns the committed value of a parameter. -/
  | readParam (who : Session) (h : Hdr)
  /-- WRITE (R42). A directory WRITE stages an entry, or commits at once when TXN = 0, for any parameter without a row of its own. -/
  | writeParam (who : Session) (h : Hdr) (val : Nat)
  /-- GUARD (R45). Stages an expected value that is compared at commit. -/
  | guardParam (who : Session) (h : Hdr) (val : Nat)
  /-- NEXT (R41). Returns the next existing parameter that the principal may read. -/
  | nextParam (who : Session) (h : Hdr)
  /-- DESCRIBE (R41). Returns the type, access, class, scope and size of a parameter. -/
  | describeParam (who : Session) (h : Hdr)
  /-- TXN_OPEN (R43). Opens a transaction and assigns its number. -/
  | txnOpen (who : Session)
  /-- TXN_COMMIT (R45). Re-checks every entry, journals the RWP values, and applies all entries at one edge or none. -/
  | txnCommit (who : Session) (txn : BitVec 16)
  /-- TXN_ABORT (R47). Discards the staged entries of an open transaction. -/
  | txnAbort (who : Session) (txn : BitVec 16)
  /-- TXN_TIMEOUT_EXPIRY (R47). An idle transaction is aborted after TXN_TIMEOUT. -/
  | txnTimeoutExpiry (txn : BitVec 16)
  /-- TXN_NUMBER_RELEASE (R47). Ten seconds after a timeout abort, the transaction number is released. -/
  | txnNumberRelease (txn : BitVec 16)
  /-- RESTORE_DEFAULTS (R52). Sets every RWP parameter to its default and persists the defaults. -/
  | restoreDefaults (who : Session)
  /-- MB_GO (R61). Submits the mailbox request, sets BUSY, and on completion writes the response and raises the mailbox event. -/
  | mbGo (unit : Fin 2) (user : MbUser) (tag : BitVec 16) (hdr : BitVec 96) (op : MbOp)
  /-- CAN_REQ_FRAME (R55). A REQ frame on the field bus is executed, or treated as a duplicate across buses, and answered. -/
  | canReqFrame (f : CanFrame)
  /-- CAN_SEG_FRAME (R56). A SEG frame is accepted in sequence and acknowledged every 8 segments, or discarded. -/
  | canSegFrame (f : CanFrame)
  /-- CAN_ACK_FRAME (R56). An ACK frame advances, or aborts, a segmented send. -/
  | canAckFrame (f : CanFrame)
  /-- CAN_ACK_TIMEOUT (R56). No ACK within 20 ms resends from the last acknowledged segment, and the third resend abandons the transfer with SEG_TIMEOUT. -/
  | canAckTimeout (bus : Fin 2) (peer : BitVec 7) (xfer : BitVec 9)
  /-- ANNOUNCE (R57). On start of the field bus, the device sends an ANNOUNCE NODE frame and listens for 50 ms. -/
  | announce (bitErrors : Nat)
  /-- NODE_FRAME (R57). A received NODE frame with the same node ID and a different serial sets NODEID_CONFLICT. -/
  | nodeFrame (f : CanFrame)
  /-- HEARTBEAT (R57). Every FIELD_HEARTBEAT period, the device sends a HEARTBEAT NODE frame. -/
  | heartbeat
  /-- FIELD_RATE_CHANGE (R54). A new bit rate takes effect once the commit's response has been sent. -/
  | fieldRateChange
  /-- LIVENESS_BEACON (R65). Every 10 µs, the primary sends a liveness beacon to the standby. -/
  | livenessBeacon
  /-- STANDBY_TAKEOVER (R65). The standby takes over on a 50 µs beacon loss, both Wardens halted, or ROLE_SWAP. -/
  | standbyTakeover (cause : TakeoverCause)
  /-- ISLAND_SELF_TEST (R66). The former primary restarts, then rejoins as standby or stays halted with ISLAND_FAILED. -/
  | islandSelfTest (pass : Bool)
  /-- ROLE_SWAP (R65). A commit of 0x5A3D swaps the primary and standby roles. -/
  | roleSwap (who : Session)
  /-- WARDEN_RESTART (R72). Restarts a halted Warden at its reset vector within 2 µs and clears its IN_SERVICE sources. -/
  | wardenRestart (who : Session) (wd : Fin 2)
  /-- WOPEN (R69). Opens the next call-ring window, or raises WINDOW_OVERFLOW. -/
  | wopen (wd : Fin 2)
  /-- WCLOSE (R69). Returns to the caller's window, or raises WINDOW_UNDERFLOW or STACK_EMPTY. -/
  | wclose (wd : Fin 2)
  /-- WSPILL (R69). Stores the oldest resident window to the spill area. -/
  | wspill (wd : Fin 2)
  /-- WFILL (R69). Reloads the last spilled window below the oldest resident one. -/
  | wfill (wd : Fin 2)
  /-- TEXIT (R70). Restores WPTR from TRAP_WPTR and resumes at TRAP_PC. -/
  | texit (wd : Fin 2)
  /-- TRAP (R70). The TRAP instruction raises SYSCALL and enters window 7. -/
  | trapSys (wd : Fin 2)
  /-- RDCTL (R68). Reads a Warden control register. -/
  | rdctl (wd : Fin 2) (ctl : WCtl) (dst : WReg)
  /-- WRCTL (R68). Writes a Warden control register. -/
  | wrctl (wd : Fin 2) (ctl : WCtl) (src : WReg)
  /-- EVENT_TRAP (R86). A Warden takes an EVENT trap for its lowest eligible source and sets IN_SERVICE. -/
  | eventTrap (wd : Fin 2)
  /-- EV_EOI (R86). Writing a source number clears that source's IN_SERVICE. -/
  | evEoi (wd : Fin 2) (val : BitVec 32)
  /-- EV_MASK_WRITE (R87). A mask write is acknowledged, and a selected delivery may still issue within 4 cycles. -/
  | evMaskWrite (wd : Fin 2) (word : Fin 32) (val : BitVec 32)
  /-- MIO_FUNC_SWITCH (R76). A committed pin-function change runs the five-cycle switch and aborts any transfer in progress. -/
  | mioFuncSwitch (sw : PinSwitch)
  /-- FIELD_PIN_SWITCH_DEFERRED (R79). A switch of the carrying field-bus pins takes effect after the response is sent, or after 5 ms. -/
  | fieldPinSwitchDeferred
  /-- EVENT_OCCURRENCE (R83). An occurrence of an enabled source sets PENDING, or sets OVERRUN when PENDING is already set. -/
  | eventOccurrence (src : Fin 1024)
  /-- MSIX_DELIVERY (R84). Each management cycle, a host port issues MSI-X for its lowest eligible source and clears PENDING. -/
  | msixDelivery (port : Fin 2)
  /-- COALESCE_TIMEOUT (R88). TIME µs after the first undelivered occurrence, a completion source becomes eligible. -/
  | coalesceTimeout (src : Fin 1024)
  /-- HOLDOFF_EXPIRY (R89). At the end of a hold-off, the group's eligible sources are delivered in one burst. -/
  | holdoffExpiry (g : Fin 64)
  /-- HOLDOFF_COMMIT (R89). A commit of HOLDOFF_g = 0 opens a running hold-off at once. -/
  | holdoffCommit (who : Session) (g : Fin 64)
  /-- GROVE_ENABLE_COMMIT (R98). A committed grove enablement schedules groves to leave or to power up. -/
  | groveEnableCommit (who : Session) (die : Fin 6) (mask : BitVec 72)
  /-- GROVE_LEAVE (R98). At the partition's step boundary, a disabled or moved grove writes back and leaves. -/
  | groveLeave (g : Fin 432)
  /-- GROVE_POWER_UP_DONE (R98). An enabled grove finishes power-up, scrub and microcode load, and waits for admission. -/
  | grovePowerUpDone (g : Fin 432)
  /-- GROVE_ZEROED (R291). A moving grove zeroes every bank within 20 µs and then waits for admission to B. -/
  | groveZeroed (g : Fin 432)
  /-- IDLE_DELAY_EXPIRY (R102). After IDLE_DELAY without work, the device starts IDLE entry. -/
  | idleDelayExpiry
  /-- POWER_STATE_REQ_IDLE (R102). A commit of POWER_STATE_REQ = 2 requests IDLE. -/
  | powerStateReqIdle (who : Session)
  /-- POWER_STATE_REQ_DORMANT (R102). A commit of POWER_STATE_REQ = 3 requests DORMANT. -/
  | powerStateReqDormant (who : Session)
  /-- POWER_STATE_REQ_WAKE (R104). A commit of POWER_STATE_REQ = 0 is the DIRECTORY wake. -/
  | powerStateReqWake (who : Session)
  /-- SLEEP_COMMIT_POINT (R105). Two cycles after the request, sleep entry is committed unless a wake aborted it. -/
  | sleepCommitPoint
  /-- DORMANT_ENTRY (R103). Intake stops, buffers drain, the Canopy flushes, LPDDR sleeps, the standby powers down and MAINPWR_EN falls. -/
  | dormantEntry
  /-- WORK_WAKE (R102). Work arriving in IDLE wakes the device with cause WORK. -/
  | workWake
  /-- PERST_WAKE (R104). A rising PERST# in DORMANT wakes the device. -/
  | perstWake (port : Fin 2)
  /-- GPIO_WAKE (R104). The WAKE_GPIO edge on a GPIO pin wakes the device. -/
  | gpioWake (pin : Fin 40) (rising : Bool)
  /-- WAKE_TIMER_EXPIRY (R104). Expiry of WAKE_TIMER wakes the device. -/
  | wakeTimerExpiry
  /-- DORMANT_EXIT (R104). Raises MAINPWR_EN, reloads training and microcode, re-mirrors the standby and asserts WAKE#. -/
  | dormantExit
  /-- SQ_TAIL_DOORBELL (R128). An SQ_TAIL doorbell write makes entries fetchable, or is invalid and stops the ring. -/
  | sqTailDoorbell (d : Doorbell)
  /-- CQ_HEAD_DOORBELL (R128). A CQ_HEAD doorbell write returns CQ slots, or is invalid. -/
  | cqHeadDoorbell (d : Doorbell)
  /-- COMMAND_FETCH (R129). The Trailhead fetches an entry when its CQ has a free slot, reserves the slot, and checks the entry. -/
  | commandFetch (ring : Fin 4096) (data : FetchRead)
  /-- STOP_RECORD_WRITE (R136). A waiting stop record is written once the CQ has a free slot. -/
  | stopRecordWrite (ring : Fin 4096)
  /-- RUN_AHEAD_DECODE (R137). Up to 64 entries are decoded and relocated into the decode shadow, and redone when invalidated. -/
  | runAheadDecode (ring : Fin 4096)
  /-- COMPLETION_WRITE (R138). Once every result is confirmed, the outputs, the record, the CSW and the completion event are written in order. -/
  | completionWrite (ring : Fin 4096) (seq : BitVec 64)
  /-- RING_ENABLE (R125). Setting ENABLE checks the setup and resets the ring's counters and CSW. -/
  | ringEnable (who : Session) (part : BitVec 8) (l : Fin 4096)
  /-- RING_DISABLE (R126). Clearing ENABLE stops fetch and drains the ring to OFF. -/
  | ringDisable (who : Session) (part : BitVec 8) (l : Fin 4096)
  /-- HTAB_RESIZE (R132). A change of HTAB_SIZE clears every handle entry to not VALID with GEN 1. -/
  | htabResize (who : Session) (part : BitVec 8) (size : BitVec 32)
  /-- NOP (R130). A command that does nothing and completes. -/
  | nopCmd (ring : Fin 4096) (seq : BitVec 64)
  /-- HANDLE_SET (R133). Fills a free handle entry and returns the handle. -/
  | handleSet (ring : Fin 4096) (seq : BitVec 64)
  /-- HANDLE_CLEAR (R133). Clears VALID and advances GEN after earlier users of the handle complete. -/
  | handleClear (ring : Fin 4096) (seq : BitVec 64)
  /-- STAND_OPEN (R144). Opens a FREE stand on a model and makes it ACTIVE. -/
  | standOpen (ring : Fin 4096) (seq : BitVec 64)
  /-- STAND_STEP (R144). Posts a pending step with its deadline. -/
  | standStep (ring : Fin 4096) (seq : BitVec 64)
  /-- STAND_PARK (R144). Requests that the stand become PARKED once no step is pending. -/
  | standPark (ring : Fin 4096) (seq : BitVec 64)
  /-- STAND_CLOSE (R144). Requests that the stand close, aborts an unlisted step, and frees the stand. -/
  | standClose (ring : Fin 4096) (seq : BitVec 64)
  /-- MODEL_SWITCH (R151). Starts LOAD of new weights into a slot, with a later FLIP unless it is a preload. -/
  | modelSwitch (ring : Fin 4096) (seq : BitVec 64)
  /-- MODEL_LOAD_DONE (R151). The weights have streamed, and the new slot becomes RESIDENT. -/
  | modelLoadDone (part : Fin 72) (slot : Fin 16) (src : HostRead)
  /-- GRAPH_RUN (R154). Requests admission of a graph instance with its arguments. -/
  | graphRun (ring : Fin 4096) (seq : BitVec 64) (args : HostRead)
  /-- GATHER (R214). Gathers and pools the rows of bags from a table into the output. -/
  | gather (ring : Fin 4096) (seq : BitVec 64)
  /-- ROW_UPDATE (R254). Replaces an embedding row through intake, fill and atomic commit. -/
  | rowUpdate (ring : Fin 4096) (seq : BitVec 64) (src : HostRead)
  /-- HOT_REFRESH (R221). Adds, removes or replaces the hot rows of a table. -/
  | hotRefresh (ring : Fin 4096) (seq : BitVec 64)
  /-- COPY (R130). Moves LENGTH bytes between buffers or host memory. -/
  | copyCmd (ring : Fin 4096) (seq : BitVec 64) (src : HostRead)
  /-- REMOTE_SUBMIT (R140). Sends a 64-byte entry to another device's ring. -/
  | remoteSubmit (ring : Fin 4096) (seq : BitVec 64) (src : HostRead)
  /-- REMOTE_DOORBELL (R140). Sends a new SQ_TAIL to another device's ring. -/
  | remoteDoorbell (ring : Fin 4096) (seq : BitVec 64)
  /-- OP_TIMEOUT_EXPIRY (R142). A first expiry resends the fabric operation, and a second completes the command with TIMEOUT. -/
  | opTimeoutExpiry (dest : BitVec 16) (oseq : BitVec 64)
  /-- STEP_BOUNDARY (R147). At a step boundary, pending changes are applied, the ready set is snapshotted and a step list may be built. -/
  | stepBoundary (part : Fin 72)
  /-- FILL_WAIT_EXPIRY (R147). When FILL_WAIT expires, the fill condition is re-evaluated. -/
  | fillWaitExpiry (part : Fin 72)
  /-- SHARE_WINDOW (R149). Each 100 µs window shares Thicket, LPDDR and Canopy bandwidth in proportion to PART_SHARE. -/
  | shareWindow
  /-- INSTANCE_ADMIT (R154). A free instance is admitted, and its descriptor and arguments are copied and checked. -/
  | instanceAdmit
  /-- NODE_FIRE (R155). A node whose inputs hold tokens and whose outputs have room takes its tokens and creates its tasks. -/
  | nodeFire (ins : Fin 16384) (node : Fin 4096)
  /-- REFUSAL_REEVALUATE (R158). A freed slot re-evaluates the queue's refused producers within 8 cycles. -/
  | refusalReevaluate (ins : Fin 16384) (q : Fin 8192)
  /-- TASK_DISPATCH (R157). A die moves tasks from its ready list into grove queues, engines or the slice. -/
  | taskDispatch (die : Fin 6)
  /-- TOKEN_LAND (R157). A token crossing the mesh lands in its consumer's queue. -/
  | tokenLand (ins : Fin 16384) (q : Fin 8192)
  /-- REMOTE_OUTPUT_SEND (R159). A remote OUTPUT node sends its token over the fabric to an INPUT node. -/
  | remoteOutputSend (ins : Fin 16384) (node : Fin 4096)
  /-- DEADLOCK (R162). When the exact counters show a deadlock, Rootwork freezes the instance, writes the wait set and completes with DEADLOCK. -/
  | deadlock (ins : Fin 16384)
  /-- INSTANCE_COMPLETE (R155). Once every node is DONE, the instance frees and its command or steps complete. -/
  | instanceComplete (ins : Fin 16384)
  /-- GRAPH_ABORT (R164). Freezes a named GRAPH_RUN instance, which completes with ABORTED_RESET. -/
  | graphAbort (who : Session) (part : BitVec 8) (l : BitVec 32) (seq : BitVec 64)
  /-- WORD_ISSUE (R171). A grove word issues when its condition holds and runs REPEAT + 1 iterations. -/
  | wordIssue (core : Fin 27648)
  /-- WAIT_STUCK (R174). A word that has waited WAIT_LIMIT cycles raises WAIT_STUCK. -/
  | waitStuck (core : Fin 27648)
  /-- JUMP (R172). Continues at TARGET. -/
  | jump (core : Fin 27648) (target : BitVec 14)
  /-- BZ (R172). Branches to TARGET if Z is set. -/
  | bz (core : Fin 27648) (target : BitVec 14)
  /-- BNZ (R172). Branches to TARGET if Z is clear. -/
  | bnz (core : Fin 27648) (target : BitVec 14)
  /-- LOOP (R172). Decrements LC and branches to TARGET while LC is not 0. -/
  | loopOp (core : Fin 27648) (target : BitVec 14)
  /-- CALL (R172). Pushes the return address and jumps to TARGET. -/
  | callOp (core : Fin 27648) (target : BitVec 14)
  /-- RETURN (R172). Pops the return address. -/
  | returnOp (core : Fin 27648)
  /-- END (R170). The task retires, and the node's output tokens are written once its last task retires. -/
  | endTask (core : Fin 27648)
  /-- PJUMP (R178). Jumps to a patch RAM address. -/
  | pjump (core : Fin 27648) (target : BitVec 14)
  /-- ADD (R172). Scalar add. -/
  | add (core : Fin 27648) (sd sa sb : Fin 32)
  /-- SUB (R172). Scalar subtract. -/
  | sub (core : Fin 27648) (sd sa sb : Fin 32)
  /-- AND (R172). Scalar bitwise AND. -/
  | andOp (core : Fin 27648) (sd sa sb : Fin 32)
  /-- OR (R172). Scalar bitwise OR. -/
  | orOp (core : Fin 27648) (sd sa sb : Fin 32)
  /-- XOR (R172). Scalar bitwise XOR. -/
  | xorOp (core : Fin 27648) (sd sa sb : Fin 32)
  /-- SHL (R172). Scalar shift left. -/
  | shl (core : Fin 27648) (sd sa sb : Fin 32)
  /-- SHR (R172). Scalar shift right. -/
  | shr (core : Fin 27648) (sd sa sb : Fin 32)
  /-- CMP (R172). Compares and sets Z and N. -/
  | cmp (core : Fin 27648) (sa sb : Fin 32)
  /-- LI (R172). Loads an immediate into a scalar register. -/
  | li (core : Fin 27648) (sd : Fin 32) (imm : BitVec 48)
  /-- SETA (R172). Sets an address register from the immediate. -/
  | seta (core : Fin 27648) (sd : Fin 32) (imm : BitVec 48)
  /-- ADDA (R172). Adds a scalar register to an address register. -/
  | adda (core : Fin 27648) (sd sa : Fin 32)
  /-- SETLC (R172). Sets the loop counter. -/
  | setlc (core : Fin 27648) (imm : BitVec 48)
  /-- SETF (R172). Sets a grove flag. -/
  | setf (core : Fin 27648) (imm : BitVec 48)
  /-- CLRF (R172). Clears a grove flag. -/
  | clrf (core : Fin 27648) (imm : BitVec 48)
  /-- BARRIER (R172). Arrives at a barrier of the firing. -/
  | barrier (core : Fin 27648) (imm : BitVec 48)
  /-- LD (R172). Loads from scratch into a vector register. -/
  | ld (core : Fin 27648) (m : MemSlot)
  /-- ST (R172). Stores a vector register to scratch, saving an undo entry when shadowed. -/
  | st (core : Fin 27648) (m : MemSlot)
  /-- DLD (R172). Loads from device memory through the cache. -/
  | dld (core : Fin 27648) (m : MemSlot)
  /-- DST (R172). Stores to device memory, or to a redo entry when shadowed. -/
  | dst (core : Fin 27648) (m : MemSlot)
  /-- MLD (R172). Streams data into the matrix block. -/
  | mld (core : Fin 27648) (m : MemSlot) (mop : Fin 16) (x : XSlot)
  /-- ATOM (R238). Issues a Canopy atomic or reduction to the home slice. -/
  | atom (core : Fin 27648) (m : MemSlot) (imm : BitVec 48)
  /-- VADD (R189). Vector add. -/
  | vadd (core : Fin 27648) (v : VSlot)
  /-- VSUB (R189). Vector subtract. -/
  | vsub (core : Fin 27648) (v : VSlot)
  /-- VMUL (R189). 32-bit vector multiply. -/
  | vmul (core : Fin 27648) (v : VSlot)
  /-- VFMA (R189). Fused multiply-add, rounded once. -/
  | vfma (core : Fin 27648) (v : VSlot)
  /-- VMIN (R188). Vector minimum. -/
  | vmin (core : Fin 27648) (v : VSlot)
  /-- VMAX (R188). Vector maximum. -/
  | vmax (core : Fin 27648) (v : VSlot)
  /-- VAND (R189). Vector bitwise AND. -/
  | vand (core : Fin 27648) (v : VSlot)
  /-- VOR (R189). Vector bitwise OR. -/
  | vor (core : Fin 27648) (v : VSlot)
  /-- VXOR (R189). Vector bitwise XOR. -/
  | vxor (core : Fin 27648) (v : VSlot)
  /-- VSHL (R189). Vector shift left. -/
  | vshl (core : Fin 27648) (v : VSlot)
  /-- VSHR (R189). Vector shift right. -/
  | vshr (core : Fin 27648) (v : VSlot)
  /-- VCMP (R189). Compares elements into a mask register. -/
  | vcmp (core : Fin 27648) (v : VSlot)
  /-- VCVT (R190). Converts between element formats. -/
  | vcvt (core : Fin 27648) (v : VSlot)
  /-- VBCAST (R189). Broadcasts a scalar into every element. -/
  | vbcast (core : Fin 27648) (v : VSlot)
  /-- VMOVS (R189). Moves one element to a scalar register. -/
  | vmovs (core : Fin 27648) (v : VSlot)
  /-- VPERM (R189). Permutes elements by index. -/
  | vperm (core : Fin 27648) (v : VSlot)
  /-- VCOMPRESS (R192). Packs the active elements to the low positions. -/
  | vcompress (core : Fin 27648) (v : VSlot)
  /-- VEXPAND (R192). Scatters low elements to the active positions. -/
  | vexpand (core : Fin 27648) (v : VSlot)
  /-- VCPOP (R189). Counts the set mask bits. -/
  | vcpop (core : Fin 27648) (v : VSlot)
  /-- VSCAN (R193). Running reduction with carry across iterations. -/
  | vscan (core : Fin 27648) (v : VSlot)
  /-- VSEGSCAN (R194). Segmented running reduction. -/
  | vsegscan (core : Fin 27648) (v : VSlot)
  /-- VSCANX (R195). Scan across the tasks of a firing on one grove, after every participant issues. -/
  | vscanx (core : Fin 27648) (v : VSlot)
  /-- VREDUCE (R189). Reduces the active elements into element 0. -/
  | vreduce (core : Fin 27648) (v : VSlot)
  /-- VKOP (R189). Logical operation on mask registers. -/
  | vkop (core : Fin 27648) (v : VSlot)
  /-- VKMOV (R189). Moves a scalar into a mask register. -/
  | vkmov (core : Fin 27648) (v : VSlot)
  /-- VMOVK (R189). Moves a mask register into a scalar. -/
  | vmovk (core : Fin 27648) (v : VSlot)
  /-- PANEL (R201). Loads a panel row of activations. -/
  | panel (core : Fin 27648) (x : XSlot) (m : MemSlot)
  /-- MMA (R197). Multiplies a streamed slice into the accumulators, with group scaling. -/
  | mma (core : Fin 27648) (x : XSlot) (m : MemSlot)
  /-- DRAIN (R201). Flushes, scales and converts an accumulator block into a vector register. -/
  | drain (core : Fin 27648) (x : XSlot)
  /-- ZERO (R201). Clears an accumulator block and its partial sum. -/
  | zeroBlock (core : Fin 27648) (x : XSlot)
  /-- RERUN_TRIGGER (R208). Once every task of a tripped firing reaches END, the firing is undone and re-run at a wider entry. -/
  | rerunTrigger (ins : Fin 16384) (node : Fin 4096)
  /-- CHECK_RESULT (R299). The plausibility checker delivers a task's result within 1.5 µs of END. -/
  | checkResult (ins : Fin 16384) (node : Fin 4096) (task : Fin 4096)
  /-- SHADOW_RELEASE (R183). A shadowed task whose inputs are confirmed and whose check has passed drains its redo entries, and its tokens are confirmed. -/
  | shadowRelease (ins : Fin 16384) (node : Fin 4096) (task : Fin 4096)
  /-- SHADOW_UNDO (R184). A retracted input or a failed check undoes the task, retracts its tokens and returns the firing. -/
  | shadowUndo (ins : Fin 16384) (node : Fin 4096)
  /-- CHECKER_SELF_TEST (R300). Each checker runs a known-answer test every millisecond, and a failure fences the grove. -/
  | checkerSelfTest (g : Fin 432) (pass : Bool)
  /-- TICKET_RESOLVE (R303). Within 1 µs of a resolution, CONFIRM or RETRACT goes to every destination of the ticket. -/
  | ticketResolve (ticket : BitVec 24)
  /-- THICKET_TASK (R219). A THICKET node task gathers from its record and writes a summary token. -/
  | thicketTask (ins : Fin 16384) (node : Fin 4096) (task : Fin 16)
  /-- IDXLD (R225). Loads 16 indices into the index queue. -/
  | idxld (eng : Fin 96) (t : ThkSlot)
  /-- ROWRD (R225). Reads the next row. -/
  | rowrd (eng : Fin 96) (t : ThkSlot)
  /-- HOTLK (R225). Performs a hot tag lookup. -/
  | hotlk (eng : Fin 96) (t : ThkSlot)
  /-- PFRD (R225). Performs a prefetch read. -/
  | pfrd (eng : Fin 96) (t : ThkSlot)
  /-- OUTWR (R225). Writes an accumulator line. -/
  | outwr (eng : Fin 96) (t : ThkSlot)
  /-- STWR (R225). Writes a status entry. -/
  | stwr (eng : Fin 96) (t : ThkSlot)
  /-- ROW_READ (R255). A Thicket row read chooses its version at the home die and registers in an epoch or takes a reference. -/
  | rowRead (part : Fin 72) (slot : Fin 256) (base : BitVec 48) (row : BitVec 32) (refresh : Bool)
  /-- PREFETCH_FILL (R223). When a stand becomes ready, its hint rows are read into the home die's prefetch buffer. -/
  | prefetchFill (stand : Fin 131072)
  /-- TABLE_VALID_CLEAR (R211). Clearing VALID removes the table's hot rows and prefetch entries. -/
  | tableValidClear (who : Session) (part : BitVec 8) (slot : Fin 256)
  /-- STAGING_ALLOCATE (R253). A waiting update takes a descriptor and lines when they are free. -/
  | stagingAllocate (at_ : StageFill)
  /-- ROW_COMMIT (R254). The fill is complete, and the generation is rechecked and committed atomically at the home die. -/
  | rowCommit (ring : Fin 4096) (seq : BitVec 64)
  /-- EPOCH_ADVANCE (R256). The current epoch advances when an entry awaits write-back and the next epoch is closed. -/
  | epochAdvance (die : Fin 6)
  /-- WRITE_BACK_START (R257). Once its epochs close, an entry becomes WRITING and writes the row and the hot copy. -/
  | writeBackStart (ent : Nat)
  /-- WRITE_BACK_DONE (R257). Write-back finishes and the entry becomes RELEASING. -/
  | writeBackDone (ent : Nat)
  /-- ENTRY_RELEASE (R257). An entry is freed when its reader references reach zero. -/
  | entryRelease (ent : Nat)
  /-- RD_S (R235). A read for sharing, answered DATA_E or DATA_S. -/
  | rdS (g : Fin 432) (line : BitVec 42)
  /-- RD_X (R235). A read for writing, answered DATA_X after the other copies are invalidated. -/
  | rdX (g : Fin 432) (line : BitVec 42)
  /-- UPG (R235). An upgrade from S to M, answered UPG_ACK or DATA_X. -/
  | upg (g : Fin 432) (line : BitVec 42)
  /-- EVICT_D (R237). Eviction of an M line with its data. -/
  | evictD (g : Fin 432) (line : BitVec 42)
  /-- EVICT_C (R237). Eviction of a clean line. -/
  | evictC (g : Fin 432) (line : BitVec 42)
  /-- SNP_SH (R235). A snoop that downgrades to S. -/
  | snpSh (g : Fin 432) (line : BitVec 42)
  /-- SNP_INV (R235). A snoop that invalidates. -/
  | snpInv (g : Fin 432) (line : BitVec 42)
  /-- EVICTING (R237). A grove's answer to a snoop for a line in its eviction buffer. -/
  | evicting (g : Fin 432) (line : BitVec 42)
  /-- EVICT_ACK (R237). The home has taken the eviction, and the grove frees the entry. -/
  | evictAck (g : Fin 432) (line : BitVec 42)
  /-- RSP_D (R235). A snoop answer with data from M. -/
  | rspD (g : Fin 432) (line : BitVec 42)
  /-- RSP_S (R235). A snoop answer after downgrade. -/
  | rspS (g : Fin 432) (line : BitVec 42)
  /-- RSP_I (R235). A snoop answer after invalidation, or with no copy. -/
  | rspI (g : Fin 432) (line : BitVec 42)
  /-- DATA_E (R235). Line data granted exclusive. -/
  | dataE (g : Fin 432) (line : BitVec 42)
  /-- DATA_S (R235). Line data granted shared. -/
  | dataS (g : Fin 432) (line : BitVec 42)
  /-- DATA_X (R235). Line data granted for writing. -/
  | dataX (g : Fin 432) (line : BitVec 42)
  /-- UPG_ACK (R235). The upgrade is granted without data. -/
  | upgAck (g : Fin 432) (line : BitVec 42)
  /-- ADD32 (R238). 32-bit wrapping add atomic. -/
  | add32 (a : AtomArgs)
  /-- ADD64 (R238). 64-bit wrapping add atomic. -/
  | add64 (a : AtomArgs)
  /-- FADD32 (R238). FP32 add atomic. -/
  | fadd32 (a : AtomArgs)
  /-- MIN32 (R238). Signed 32-bit minimum atomic. -/
  | min32 (a : AtomArgs)
  /-- MAX32 (R238). Signed 32-bit maximum atomic. -/
  | max32 (a : AtomArgs)
  /-- UMIN32 (R238). Unsigned 32-bit minimum atomic. -/
  | umin32 (a : AtomArgs)
  /-- UMAX32 (R238). Unsigned 32-bit maximum atomic. -/
  | umax32 (a : AtomArgs)
  /-- MIN64 (R238). Signed 64-bit minimum atomic. -/
  | min64 (a : AtomArgs)
  /-- MAX64 (R238). Signed 64-bit maximum atomic. -/
  | max64 (a : AtomArgs)
  /-- AND64 (R238). 64-bit AND atomic. -/
  | and64 (a : AtomArgs)
  /-- OR64 (R238). 64-bit OR atomic. -/
  | or64 (a : AtomArgs)
  /-- XOR64 (R238). 64-bit XOR atomic. -/
  | xor64 (a : AtomArgs)
  /-- SWAP32 (R238). 32-bit swap atomic. -/
  | swap32 (a : AtomArgs)
  /-- SWAP64 (R238). 64-bit swap atomic. -/
  | swap64 (a : AtomArgs)
  /-- CAS32 (R238). 32-bit compare-and-swap atomic. -/
  | cas32 (a : AtomArgs)
  /-- CAS64 (R238). 64-bit compare-and-swap atomic. -/
  | cas64 (a : AtomArgs)
  /-- FMIN32 (R238). FP32 minimum atomic. -/
  | fmin32 (a : AtomArgs)
  /-- FMAX32 (R238). FP32 maximum atomic. -/
  | fmax32 (a : AtomArgs)
  /-- RADD_F32 (R238). 32-byte FP32 add reduction. -/
  | raddF32 (a : AtomArgs)
  /-- RADD_BF16 (R238). 32-byte BF16 add reduction. -/
  | raddBf16 (a : AtomArgs)
  /-- RMAX_F32 (R238). 32-byte FP32 maximum reduction. -/
  | rmaxF32 (a : AtomArgs)
  /-- RMIN_F32 (R238). 32-byte FP32 minimum reduction. -/
  | rminF32 (a : AtomArgs)
  /-- RADD_I32 (R238). 32-byte integer add reduction. -/
  | raddI32 (a : AtomArgs)
  /-- RMAX_BF16 (R238). 32-byte BF16 maximum reduction. -/
  | rmaxBf16 (a : AtomArgs)
  /-- CANOPY_TASK (R241). A CANOPY node task reduces L source bytes into its operand. -/
  | canopyTask (ins : Fin 16384) (node : Fin 4096)
  /-- BAR2_ACCESS (R232). A host BAR2 read or write is mapped to device memory and served coherently. -/
  | bar2Access (port : Fin 2) (fn : Fin 73) (off : BitVec 41) (acc : BarOp)
  /-- DESELECT (R246). Memory command deselect. -/
  | deselect (port : Fin 48) (m : MSlot)
  /-- ACT (R246). Memory command: activate a row. -/
  | act (port : Fin 48) (m : MSlot)
  /-- RD32 (R246). Memory command: BL32 read. -/
  | rd32 (port : Fin 48) (m : MSlot) (ecc : Ecc)
  /-- WR32 (R246). Memory command: BL32 write. -/
  | wr32 (port : Fin 48) (m : MSlot) (data : BitVec 512)
  /-- MWR32 (R246). Memory command: masked write. -/
  | mwr32 (port : Fin 48) (m : MSlot) (data : BitVec 512) (mask : BitVec 64)
  /-- PRE (R246). Memory command: precharge. -/
  | pre (port : Fin 48) (m : MSlot)
  /-- PREA (R246). Memory command: precharge all. -/
  | prea (port : Fin 48) (m : MSlot)
  /-- REFPB (R246). Memory command: per-bank refresh. -/
  | refpb (port : Fin 48) (m : MSlot)
  /-- REFAB (R246). Memory command: all-bank refresh. -/
  | refab (port : Fin 48) (m : MSlot)
  /-- RFM (R246). Memory command: refresh management. -/
  | rfm (port : Fin 48) (m : MSlot)
  /-- MRW (R246). Memory command: mode-register write. -/
  | mrw (port : Fin 48) (m : MSlot)
  /-- MRR (R246). Memory command: mode-register read. -/
  | mrr (port : Fin 48) (m : MSlot)
  /-- SRE (R246). Memory command: self-refresh entry. -/
  | sre (port : Fin 48) (m : MSlot)
  /-- SRX (R246). Memory command: self-refresh exit. -/
  | srx (port : Fin 48) (m : MSlot)
  /-- PDE (R246). Memory command: power-down entry. -/
  | pde (port : Fin 48) (m : MSlot)
  /-- PDX (R246). Memory command: power-down exit. -/
  | pdx (port : Fin 48) (m : MSlot)
  /-- CAS_WS (R246). Memory command: CAS with WCK synchronisation. -/
  | casWs (port : Fin 48) (m : MSlot)
  /-- ZQ_LATCH (R246). Memory command: ZQ latch. -/
  | zqLatch (port : Fin 48) (m : MSlot)
  /-- RDC (R246). Memory command: read DQ calibration. -/
  | rdc (port : Fin 48) (m : MSlot)
  /-- WFF (R246). Memory command: write FIFO. -/
  | wff (port : Fin 48) (m : MSlot) (data : BitVec 512)
  /-- RFF (R246). Memory command: read FIFO. -/
  | rff (port : Fin 48) (m : MSlot)
  /-- MPC (R246). Memory command: multi-purpose command. -/
  | mpc (port : Fin 48) (m : MSlot)
  /-- REFRESH_RATE_READ (R244). Every 16 ms, each package's refresh-rate report is read and the refresh interval is set. -/
  | refreshRateRead (port : Fin 48) (report : BitVec 8) (rfmAt : Nat)
  /-- OSCILLATOR_CHECK (R244). Every 100 ms, the WCK2DQ oscillators are read, and a channel is retuned on drift. -/
  | oscillatorCheck (port : Fin 48) (ch : Fin 4) (driftPct : Nat) (retuneOk : Bool)
  /-- PATROL_SCRUB (R249). Patrol scrub reads lines, corrects them or poisons them. -/
  | patrolScrub (port : Fin 48) (line : BitVec 42) (ecc : Ecc)
  /-- SLICE_ECC_ERROR (R250). A slice SRAM error invalidates or poisons the line, or is handled as a reserved-region error. -/
  | sliceEccError (die : Fin 6) (bank : Fin 50) (at_ : SliceLoc) (ue : Bool)
  /-- RESERVED_UE (R320). An uncorrectable error in a reserved region raises RESERVED_UE and gives the bank a strike. -/
  | reservedUe (die : Fin 6) (bank : Fin 50) (at_ : SliceLoc)
  /-- DIR_EPOCH_FLIP (R313). The home switches to the new bank map once old-map transactions complete. -/
  | dirEpochFlip (die : Fin 6)
  /-- PORT_TRAIN (R264). A fabric port training attempt completes to UP, or fails and retries, with a fence after 3 failures. -/
  | portTrain (p : Fin 12) (res : FabTrain)
  /-- FLIT_RECEIVE (R267). A received flit is accepted in order, or discarded with a NAK. -/
  | flitReceive (p : Fin 12) (f : Flit) (cw : Ecc)
  /-- REPLAY (R267). A NAK, or 500 ns without progress, replays the flits from ACKSEQ + 1. -/
  | replay (p : Fin 12)
  /-- LINK_LOST (R267). Eight attempts without progress, or 4 µs, mark the link lost, make the port unusable and reroute. -/
  | linkLost (p : Fin 12)
  /-- FLIT_FORWARD (R271). A transit device routes a flit by its epoch's table, or discards it. -/
  | flitForward (p : Fin 12)
  /-- TRANSIT_TIMEOUT (R271). A flit waiting more than 10 µs in a transit queue is discarded. -/
  | transitTimeout (p : Fin 12)
  /-- OP_ASSEMBLY_TIMEOUT (R272). An operation missing flits 20 µs after its first flit is discarded. -/
  | opAssemblyTimeout (src : BitVec 16) (oseq : BitVec 64)
  /-- HELLO (R269). Every 100 µs, each UP port sends a HELLO. -/
  | hello (rx : Option HelloMsg)
  /-- BEACON (R269). The manager floods a beacon every 1 ms, and devices forward each beacon once. -/
  | beacon (rx : Option BeaconMsg)
  /-- MANAGER_TIMEOUT (R269). No beacon for 10 ms drops the candidate and elects again. -/
  | managerTimeout
  /-- ROUTE_FLIP (R273). Activates a routing epoch for newly stamped flits. -/
  | routeFlip (who : Session) (ep : BitVec 8)
  /-- FR_GO (R270). The manager relays a directory operation, routed or source-routed. -/
  | frGo (who : Session)
  /-- SUBMIT (R140). Fabric operation that appends an entry to a ring. -/
  | submit (m : OpMsg)
  /-- DOORBELL (R140). Fabric operation that writes a ring's SQ_TAIL. -/
  | doorbell (m : OpMsg)
  /-- TOKEN (R159). Fabric operation that delivers a token to an INPUT node, or holds it in staging. -/
  | tokenOp (m : OpMsg)
  /-- FAB_WRITE (R276). Fabric WRITE to a handle in a destination partition. -/
  | fabWrite (m : OpMsg)
  /-- FAB_READ (R276). Fabric READ from a handle in a destination partition. -/
  | fabRead (m : OpMsg)
  /-- ATOMIC (R240). Fabric atomic applied at most once at the home. -/
  | atomic (m : OpMsg)
  /-- MGMT (R270). Fabric-carried directory operation. -/
  | mgmt (m : OpMsg)
  /-- CONFIRM (R282). Commits a provisional token for a ticket. -/
  | confirm (m : OpMsg)
  /-- RETRACT (R282). Undoes the consumers of a provisional token. -/
  | retract (m : OpMsg)
  /-- RESEND_REQ (R303). Asks the owner for a correction of a ticket. -/
  | resendReq (m : OpMsg)
  /-- TIME (R283). Fabric time, compensated and forwarded. -/
  | timeOp (p : Fin 12) (t : BitVec 64) (residency hops : Nat)
  /-- TIME_SEND (R283). Every 1 ms, the manager sends TIME on every UP port. -/
  | timeSend
  /-- ROUTE_NOTICE (R274). Reports a port state change to the manager. -/
  | routeNotice (m : OpMsg)
  /-- PROBE (R277). Learns the destination's incarnation. -/
  | probe (m : OpMsg)
  /-- ANSWER (R275). Completes an outstanding fabric operation with status and value. -/
  | answer (m : AnsMsg)
  /-- TOKEN_RETRY (R279). A token refused for full staging is resent on an open-staging answer, or after 50 µs. -/
  | tokenRetry (dest : BitVec 16) (oseq : BitVec 64)
  /-- PROV_WINDOW_EXPIRY (R282). An unresolved provisional token is treated as retracted and RESEND_REQ is sent. -/
  | provWindowExpiry (src : BitVec 16) (ticket : BitVec 24)
  /-- COPY_TASK (R293). A COPY node task issues fabric or local writes, reads or atomics, and emits its token once all are answered. -/
  | copyTask (ins : Fin 16384) (node : Fin 4096)
  /-- PART_MEM_CHANGE (R287). A committed PART_MEM change resets the partition and clears its handles, hot rows and tables. -/
  | partMemChange (who : Session) (part : BitVec 8) (mem : BitVec 64)
  /-- HARD_FAULT (R307). A hard fault against a unit starts CLEARING, fails its return, or is recorded only. -/
  | hardFault (unit : BitVec 16) (cause : BitVec 8)
  /-- CLEAR_DONE (R297). A CLEARING unit reaches FENCED, by completion or at CLEAR_LIMIT, and may auto-return. -/
  | clearDone (unit : BitVec 16)
  /-- REGROW_DONE (R311). A REGROWING unit passes its survey and returns to SERVING, or is retired. -/
  | regrowDone (unit : BitVec 16) (pass : Bool) (entry : BitVec 16)
  /-- UNIT_FENCE_CMD (R307). UNIT_CMD 0xFE01 fences the selected unit. -/
  | unitFenceCmd (who : Session)
  /-- UNIT_RETURN_CMD (R312). UNIT_CMD 0xFE02 returns the selected unit, which is a warm reset for a memory port. -/
  | unitReturnCmd (who : Session)
  /-- UNIT_UNRETIRE_CMD (R309). UNIT_CMD 0xFE03 clears retirement. -/
  | unitUnretireCmd (who : Session)
  /-- UNIT_CLEAR_STRIKES_CMD (R308). UNIT_CMD 0xFE04 clears the unit's strikes. -/
  | unitClearStrikesCmd (who : Session)
  /-- SURVEY_ROUND (R316). Every PERIOD hours, a survey round cycles groves and banks through the survey. -/
  | surveyRound
  /-- SURVEY_NOW (R316). Starts a survey round at once. -/
  | surveyNow (who : Session)
  /-- SECOND_BOUNDARY (R330). At each device second, every class's record is closed and misses are judged. -/
  | secondBoundary
  /-- BATCH_SEAL (R330). Within 10 ms of a minute's end, each class's batch is signed and written to the ledger. -/
  | batchSeal (cls : Fin 256)
  /-- PPS_EDGE (R329). A PPS_IN edge disciplines device time. -/
  | ppsEdge
  /-- TIME_SOURCE_LOST (R328). Loss of the time reference frees device time and raises the event. -/
  | timeSourceLost
  /-- TIME_SET (R328). Sets the whole seconds of device time forward. -/
  | timeSet (who : Session) (secs : BitVec 64)
  /-- COUNTER_WRAP (R336). A programmable counter wraps, sets OVF, adds to CARRY and may raise an event. -/
  | counterWrap (c : CtrRef)
  /-- GCTR_CLEAR (R340). Zeroes the selected grove counters, CARRY and OVF. -/
  | gctrClear (who : Session) (part : BitVec 8) (sel : BitVec 16)
  /-- DIE_CTR_CLEAR (R340). Zeroes the named dies' counters. -/
  | dieCtrClear (who : Session) (dies : BitVec 8)
  /-- TRACKS_INTERVAL_END (R341). A sampling interval ends and tags the next eligible iteration, or counts MISSED. -/
  | tracksIntervalEnd (g : Fin 432)
  /-- TRACKS_SAMPLE_WRITE (R342). A tagged iteration's sample is written to the die buffer within 1 µs, with watermark and full handling. -/
  | tracksSampleWrite (g : Fin 432)
  /-- TRACKS_RESUME (R342). Sets BASE to WP on the named dies. -/
  | tracksResume (who : Session) (dies : BitVec 8)
  /-- FIELD_BUS_STATE_CHANGE (R54). Error confinement moves a CAN FD controller between active, passive and off, and completes bus-off recovery, updating FIELD_STATUS and raising source 0x011 or 0x012. -/
  | fieldBusStateChange (bus : Fin 2) (st : BusState)
  /-- PERST_RISE (R121). A rising PERST# outside DORMANT releases the host port from reset and starts its link training. -/
  | perstRise (port : Fin 2)
  /-- CONFIG_SPACE_WRITE (R233). A host configuration-space write changes the BAR2 size, the MSI-X Enable or masks, or SR-IOV VF enablement, with effects on mapping and on event delivery. -/
  | configSpaceWrite (port : Fin 2) (fn : Fin 73) (op : CfgOp)
  /-- ROW_READ_COMPLETE (R255). The last line of a Thicket row read arrives, which decrements its epoch counter or drops its staging-entry reference. -/
  | rowReadComplete (rd : Nat)
  /-- WARDEN_LOAD (R67). A Warden load instruction reads from its address map, or raises MISALIGNED or BUS_ERROR. -/
  | wardenLoad (wd : Fin 2) (addr : BitVec 32) (size : AccSize) (dst : WReg)
  /-- WARDEN_STORE (R73). A Warden store goes through the store buffer to SRAM, the directory port or the event controller, or raises MISALIGNED or BUS_ERROR. -/
  | wardenStore (wd : Fin 2) (addr : BitVec 32) (size : AccSize) (src : WReg)
  deriving DecidableEq, Repr

end Sys2Proof
end

