-- ==== Sys2Proof/Decode.lean ====
section
/-!
DEFINITION. The words of commands. The table gives none of its rows any bits: the block's commands come as register accesses, frames, flits,
pin edges and events, never as words of an instruction stream, so no word spells a command.
-/
namespace Sys2Proof

/-- The command that a word spells by the bits of the opcode table: no row has any. -/
def decodeTableWord (_nbits _w : Nat) : Option Instr := none

end Sys2Proof
end

