-- ==== Sys2Proof/Machine/Bits.lean ====
section
/-! DEFINITION. Bit fields, little-endian bytes (R4), and the keyed lists that hold memories and tables. -/
namespace Sys2Proof.Machine

/-- Bits `hi` to `lo` of a number. -/
def field (v hi lo : Nat) : Nat := (v >>> lo) % 2 ^ (hi + 1 - lo)

/-- One bit of a number, as a truth value. -/
def bitOf (v n : Nat) : Bool := v.testBit n

/-- A truth value as a bit at place `n`. -/
def bitAt (b : Bool) (n : Nat) : Nat := if b then 1 <<< n else 0

/-- A number with bits `hi` to `lo` replaced by `x`. -/
def putField (v hi lo x : Nat) : Nat :=
  v - (field v hi lo <<< lo) + ((x % 2 ^ (hi + 1 - lo)) <<< lo)

/-- A number with bit `n` set or cleared. -/
def putBit (v n : Nat) (b : Bool) : Nat := putField v n n (if b then 1 else 0)

/-- The bits of `v` that the mask names, the rest of `old` (R3, R348). -/
def mergeBits (old v mask : Nat) : Nat := (v &&& mask) ||| (old - (old &&& mask))

/-- `v` without the bits of `w`. -/
def clearBits (v w : Nat) : Nat := v - (v &&& w)

/-- A mask of `n` ones. -/
def ones (n : Nat) : Nat := 2 ^ n - 1

/-- The value of a list of bytes, the first byte least significant (R4). -/
def leNat : List Byte → Nat
  | [] => 0
  | b :: bs => b.toNat + 256 * leNat bs

/-- The `n` bytes of a number, least significant first (R4). -/
def leBytes : Nat → Nat → List Byte
  | 0, _ => []
  | n + 1, v => BitVec.ofNat 8 v :: leBytes n (v / 256)

/-- The value of a list of bytes, the first byte most significant (KEY and SIG, R113). -/
def beNat (bs : List Byte) : Nat := leNat bs.reverse

/-- The `n` bytes of a number, most significant first. -/
def beBytes (n v : Nat) : List Byte := (leBytes n v).reverse

/-- `len` bytes of a list from offset `off`; what lies beyond the end reads 0. -/
def bytesAt (bs : List Byte) (off len : Nat) : List Byte :=
  let t := (bs.drop off).take len
  t ++ List.replicate (len - t.length) 0

/-- The little-endian number at an offset of a list of bytes. -/
def leAt (bs : List Byte) (off len : Nat) : Nat := leNat (bytesAt bs off len)

/-- A two's-complement reading of the low `w` bits of a number. -/
def signedOf (w v : Nat) : Int :=
  let u := v % 2 ^ w
  if u < 2 ^ (w - 1) then Int.ofNat u else Int.ofNat u - Int.ofNat (2 ^ w)

/-- The low `w` bits of an integer. -/
def wrapInt (w : Nat) (i : Int) : Nat := (i % Int.ofNat (2 ^ w)).toNat

/-- A count that stops at a bound. -/
def satAdd (bound a b : Nat) : Nat := if a + b < bound then a + b else bound

/-- The entry of a keyed list, or the default of a key that is not listed. -/
def sget {α : Type} (d : α) : Sparse α → Nat → α
  | [], _ => d
  | (k', v) :: m, k => if k = k' then v else sget d m k

/-- The keyed list with a key dropped. -/
def sdel {α : Type} (m : Sparse α) (k : Nat) : Sparse α := m.filter (fun p => p.1 ≠ k)

/-- The keyed list with an entry put in its place, keys strictly rising. -/
def sput {α : Type} : Sparse α → Nat → α → Sparse α
  | [], k, v => [(k, v)]
  | (k', v') :: m, k, v =>
    if k < k' then (k, v) :: (k', v') :: m
    else if k = k' then (k, v) :: m
    else (k', v') :: sput m k v

/-- The keyed list after a write: the default value is never listed. -/
def sset {α : Type} [DecidableEq α] (d : α) (m : Sparse α) (k : Nat) (v : α) : Sparse α :=
  if v = d then sdel m k else sput m k v

/-- The entry of a keyed list, if it is listed. -/
def sfind {α : Type} : Sparse α → Nat → Option α
  | [], _ => none
  | (k', v) :: m, k => if k = k' then some v else sfind m k

/-- A listed entry changed in place. -/
def smod {α : Type} (m : Sparse α) (k : Nat) (f : α → α) : Sparse α :=
  match sfind m k with
  | some v => sput m k (f v)
  | none => m

/-- The canonical form: keys strictly rising, the default value not listed. -/
def swf {α : Type} [DecidableEq α] (d : α) : Sparse α → Bool
  | [] => true
  | [(_, v)] => decide (v ≠ d)
  | (k, v) :: (k', v') :: m => decide (v ≠ d) && decide (k < k') && swf d ((k', v') :: m)

/-- The entry of a list at a place, or a default. -/
def lget {α : Type} (d : α) (l : List α) (n : Nat) : α := (l[n]?).getD d

/-- The list with the entry at a place replaced (no change beyond the end). -/
def lset {α : Type} (l : List α) (n : Nat) (v : α) : List α := l.set n v

/-- A list of numbers with one added, each at most once, rising. -/
def insertNat : List Nat → Nat → List Nat
  | [], n => [n]
  | a :: l, n => if n < a then n :: a :: l else if n = a then a :: l else a :: insertNat l n

/-- The least element of a list of numbers that satisfies a test. -/
def leastSuch (p : Nat → Bool) : List Nat → Option Nat
  | [] => none
  | a :: l => match leastSuch p l with
    | none => if p a then some a else none
    | some b => if p a && decide (a ≤ b) then some a else some b

/-- The smallest number below a bound that satisfies a test. -/
def firstBelow (p : Nat → Bool) (n : Nat) : Option Nat := (List.range n).find? p

/-- A truncating division rounded up. -/
def ceilDiv (a b : Nat) : Nat := (a + b - 1) / b

/-- The base-2 logarithm of a power of two, rounded down. -/
def log2Nat (n : Nat) : Nat := n.log2

end Sys2Proof.Machine
end

