-- ==== Sys2Proof/Machine/Catalog.lean ====
section
/-!
DEFINITION. The catalogue of parameters (R345–R347, chapter 22): index and subindex ranges, type, size, access, class, scope, default,
and the bits a write may change (R3, R348).
-/
namespace Sys2Proof.Machine

/-- Access codes (R2, Table 0-3). -/
inductive Access where
  | ro | rw | rwp | wo | w1c | rwl
  deriving DecidableEq, Repr

/-- Rights classes (R36, Table 3-2). -/
inductive RClass where
  | dev | part | mgmt | loc | fact
  deriving DecidableEq, Repr

/-- Where a parameter's default comes from: one number, or a rule of its defining chapter. -/
inductive Dflt where
  | num (n : Nat)
  | event | domain | ringAllot | standAllot | partMap | partGroves | partMem | routes | check | identity
  deriving DecidableEq, Repr

/-- One line of the catalogue: indices `lo` to `hi`, subindices `slo` to `shi`. -/
structure ParamDef where
  lo : Nat
  hi : Nat
  slo : Nat
  shi : Nat
  type : Nat
  size : Nat
  acc : Access
  cls : RClass
  perPart : Bool
  dflt : Dflt
  deriving DecidableEq, Repr

/-- Part 1 of the catalogue. -/
def catalogue0 : List ParamDef := [
  ⟨0x0001, 0x0001, 0x01, 0x01, 5, 8, .ro, .dev, false, .num 0⟩,  -- SERIAL (R347)
  ⟨0x0001, 0x0001, 0x02, 0x02, 2, 1, .ro, .dev, false, .num 0⟩,  -- ORDERING (R347)
  ⟨0x0001, 0x0001, 0x03, 0x03, 2, 1, .ro, .dev, false, .num 0xA1⟩,  -- STEPPING (R347)
  ⟨0x0001, 0x0001, 0x04, 0x04, 4, 4, .ro, .dev, false, .num 0⟩,  -- COLD_STARTS (R347)
  ⟨0x0020, 0x0020, 0x01, 0x01, 5, 8, .ro, .dev, false, .num 0⟩,  -- DIR_COMMITS (R33)
  ⟨0x0020, 0x0020, 0x02, 0x02, 3, 2, .wo, .mgmt, false, .num 0⟩,  -- RESTORE_DEFAULTS (R52)
  ⟨0x0020, 0x0020, 0x03, 0x03, 2, 1, .rwp, .loc, false, .num 0x1F⟩,  -- PRINCIPAL_ENABLE (R39)
  ⟨0x0020, 0x0020, 0x04, 0x04, 3, 2, .rwp, .mgmt, false, .num 100⟩,  -- TXN_TIMEOUT (R47)
  ⟨0x0020, 0x0020, 0x05, 0x05, 3, 2, .ro, .dev, false, .num 0⟩,  -- OPEN_TXNS (R43)
  ⟨0x0030, 0x0030, 0x01, 0x01, 2, 1, .rwp, .mgmt, false, .num 0⟩,  -- FIELD_ARB_RATE (R54)
  ⟨0x0030, 0x0030, 0x02, 0x02, 2, 1, .rwp, .mgmt, false, .num 0⟩,  -- FIELD_DATA_RATE (R54)
  ⟨0x0030, 0x0030, 0x03, 0x03, 2, 1, .ro, .dev, false, .num 0⟩,  -- FIELD_NODEID (R57)
  ⟨0x0030, 0x0030, 0x04, 0x04, 3, 2, .rwp, .mgmt, false, .num 1000⟩,  -- FIELD_HEARTBEAT (R57)
  ⟨0x0030, 0x0030, 0x05, 0x05, 2, 1, .rwp, .loc, false, .num 0x03⟩,  -- FIELD_ENABLE (R57)
  ⟨0x0030, 0x0030, 0x06, 0x06, 4, 4, .w1c, .mgmt, false, .num 0⟩,  -- FIELD_STATUS (R54)
  ⟨0x0040, 0x0040, 0x01, 0x01, 2, 1, .ro, .dev, false, .num 0⟩,  -- PRIMARY_DIE (R65)
  ⟨0x0040, 0x0040, 0x02, 0x02, 1, 1, .ro, .dev, false, .num 0⟩,  -- STANDBY_OK (R66)
  ⟨0x0040, 0x0040, 0x03, 0x03, 4, 4, .ro, .dev, false, .num 0⟩,  -- FAILOVERS (R65)
  ⟨0x0040, 0x0040, 0x04, 0x04, 3, 2, .wo, .mgmt, false, .num 0⟩,  -- ROLE_SWAP (R65)
  ⟨0x0040, 0x0040, 0x05, 0x05, 2, 1, .wo, .loc, false, .num 0⟩,  -- WARDEN_RESTART (R72)
  ⟨0x0040, 0x0040, 0x06, 0x06, 2, 1, .ro, .dev, false, .num 0⟩,  -- WARDEN_STATE (R71)
  ⟨0x0040, 0x0040, 0x07, 0x08, 4, 4, .ro, .dev, false, .num 0⟩,  -- WARDEN_RESTARTS (R72)
  ⟨0x1000, 0x1000, 0x01, 0x28, 2, 1, .rwp, .mgmt, false, .num 0⟩,  -- MIO_FUNC (R74)
  ⟨0x1001, 0x1001, 0x01, 0x28, 2, 1, .rwp, .mgmt, false, .num 0x05⟩,  -- MIO_PAD (R75)
  ⟨0x1002, 0x1002, 0x01, 0x01, 5, 8, .rw, .mgmt, false, .num 0⟩,  -- GPIO_OUT (R78)
  ⟨0x1002, 0x1002, 0x02, 0x02, 5, 8, .rw, .mgmt, false, .num 0⟩,  -- GPIO_OE (R78)
  ⟨0x1002, 0x1002, 0x03, 0x03, 5, 8, .ro, .mgmt, false, .num 0⟩,  -- GPIO_IN (R74)
  ⟨0x1003, 0x1003, 0x01, 0x01, 4, 4, .w1c, .mgmt, false, .num 0⟩,  -- MIO_ABORTS (R77)
  ⟨0x1110, 0x1117, 0x01, 0x80, 4, 4, .rw, .mgmt, false, .num 0⟩,  -- EV_ROUTE (R81)
  ⟨0x1118, 0x111F, 0x01, 0x80, 4, 4, .rw, .mgmt, false, .event⟩,  -- EV_CONFIG (R81)
  ⟨0x1120, 0x1127, 0x01, 0x80, 2, 1, .w1c, .mgmt, false, .num 0⟩,  -- EV_STATUS (R81)
  ⟨0x1128, 0x1128, 0x01, 0x40, 3, 2, .rw, .mgmt, false, .num 0⟩,  -- HOLDOFF (R89)
  ⟨0x1129, 0x1129, 0x01, 0x01, 4, 4, .ro, .dev, false, .num 0⟩,  -- EV_OVERRUNS (R83)
  ⟨0x1200, 0x1203, 0x01, 0x80, 3, 2, .rw, .mgmt, false, .domain⟩,  -- DOMAIN_CTL (R92)
  ⟨0x1204, 0x1204, 0x01, 0x20, 3, 2, .rw, .mgmt, false, .domain⟩  -- DOMAIN_CTL (R92)
]

/-- Part 2 of the catalogue. -/
def catalogue1 : List ParamDef := [
  ⟨0x1210, 0x1210, 0x01, 0x06, 7, 2, .ro, .dev, false, .num 0⟩,  -- TJ_MAX (R28)
  ⟨0x1210, 0x1210, 0x07, 0x07, 2, 1, .rwp, .mgmt, false, .num 95⟩,  -- TJ_THROTTLE (R28)
  ⟨0x1220, 0x1220, 0x01, 0x01, 3, 2, .rwp, .mgmt, false, .num 900⟩,  -- POWER_CAP (R99)
  ⟨0x1220, 0x1220, 0x02, 0x02, 3, 2, .ro, .dev, false, .num 0⟩,  -- POWER_NOW (R99)
  ⟨0x1220, 0x1220, 0x03, 0x03, 3, 2, .ro, .dev, false, .num 0⟩,  -- POWER_STATUS (R99)
  ⟨0x1230, 0x1230, 0x01, 0x06, 11, 9, .rwp, .mgmt, false, .num 0xFFFFFFFFFFFFFFFFFF⟩,  -- GROVE_ENABLE (R98)
  ⟨0x1230, 0x1230, 0x07, 0x07, 3, 2, .ro, .dev, false, .num 432⟩,  -- GROVES_ENABLED (R98)
  ⟨0x1240, 0x1240, 0x01, 0x01, 2, 1, .ro, .dev, false, .num 0⟩,  -- POWER_STATE (R97)
  ⟨0x1240, 0x1240, 0x02, 0x02, 2, 1, .wo, .mgmt, false, .num 0⟩,  -- POWER_STATE_REQ (R102)
  ⟨0x1240, 0x1240, 0x03, 0x03, 3, 2, .rwp, .mgmt, false, .num 1000⟩,  -- IDLE_DELAY (R102)
  ⟨0x1240, 0x1240, 0x04, 0x04, 2, 1, .rwp, .mgmt, false, .num 0⟩,  -- DORMANT_MEM (R103)
  ⟨0x1240, 0x1240, 0x05, 0x05, 2, 1, .rwp, .mgmt, false, .num 0x0F⟩,  -- WAKE_ENABLE (R104)
  ⟨0x1240, 0x1240, 0x06, 0x06, 2, 1, .rwp, .mgmt, false, .num 0x03⟩,  -- WAKE_GPIO (R104)
  ⟨0x1240, 0x1240, 0x07, 0x07, 4, 4, .rw, .mgmt, false, .num 0⟩,  -- WAKE_TIMER (R104)
  ⟨0x1240, 0x1240, 0x08, 0x08, 2, 1, .ro, .dev, false, .num 0⟩,  -- SLEEP_STATUS (R105)
  ⟨0x1240, 0x1240, 0x09, 0x09, 4, 4, .ro, .dev, false, .num 0⟩,  -- DOORBELLS_DROPPED (R103)
  ⟨0x1400, 0x1400, 0x01, 0x01, 2, 1, .ro, .dev, false, .num 0⟩,  -- START_STAGE (R106)
  ⟨0x1400, 0x1400, 0x02, 0x02, 2, 1, .ro, .dev, false, .num 0⟩,  -- START_ERROR (R110)
  ⟨0x1400, 0x1400, 0x03, 0x03, 2, 1, .ro, .dev, false, .num 0⟩,  -- RESET_CAUSE (R119)
  ⟨0x1400, 0x1400, 0x04, 0x04, 3, 2, .wo, .mgmt, false, .num 0⟩,  -- RESET_REQ (R119)
  ⟨0x1400, 0x1400, 0x05, 0x05, 2, 1, .rwp, .mgmt, false, .num 0⟩,  -- BOOT_SLOT (R111)
  ⟨0x1400, 0x1400, 0x06, 0x06, 2, 1, .ro, .dev, false, .num 0⟩,  -- BOOTED_SLOT (R111)
  ⟨0x1400, 0x1400, 0x07, 0x07, 2, 1, .rwp, .mgmt, false, .num 1⟩,  -- BOOT_SURVEY (R106)
  ⟨0x1400, 0x1400, 0x08, 0x08, 2, 1, .rwp, .mgmt, false, .num 0⟩,  -- PERST_SCOPE (R119)
  ⟨0x1400, 0x1400, 0x09, 0x09, 4, 4, .ro, .dev, false, .num 0⟩,  -- READY_TIME (R119)
  ⟨0x1401, 0x1401, 0x01, 0x01, 3, 2, .ro, .dev, false, .num 0⟩,  -- STRAPS (R27)
  ⟨0x1410, 0x1410, 0x01, 0x01, 3, 2, .wo, .part, true, .num 0⟩,  -- PART_RESET (R120)
  ⟨0x1420, 0x1420, 0x01, 0x01, 4, 4, .wo, .mgmt, false, .num 0⟩,  -- CT_OPEN (R118)
  ⟨0x1420, 0x1420, 0x02, 0x02, 11, 4096, .wo, .mgmt, false, .num 0⟩,  -- CT_DATA (R118)
  ⟨0x1420, 0x1420, 0x03, 0x03, 4, 4, .ro, .dev, false, .num 0⟩,  -- CT_RECEIVED (R118)
  ⟨0x1420, 0x1420, 0x04, 0x04, 2, 1, .wo, .mgmt, false, .num 0⟩,  -- CT_COMMIT (R118)
  ⟨0x1420, 0x1420, 0x05, 0x05, 2, 1, .ro, .dev, false, .num 0⟩,  -- CT_STATUS (R118)
  ⟨0x1421, 0x1421, 0x01, 0x01, 11, 16, .ro, .dev, false, .num 0⟩,  -- MIN_SVN (R116)
  ⟨0x1421, 0x1421, 0x02, 0x02, 11, 48, .ro, .dev, false, .num 0⟩,  -- OPERATOR_KEY_HASH (R117)
  ⟨0x1421, 0x1421, 0x03, 0x03, 11, 48, .ro, .dev, false, .num 0⟩  -- ROOT_KEY_HASH (R115)
]

/-- Part 3 of the catalogue. -/
def catalogue2 : List ParamDef := [
  ⟨0x2001, 0x2001, 0x01, 0x01, 4, 4, .rwp, .mgmt, true, .ringAllot⟩,  -- RING_ALLOT (R123)
  ⟨0x2002, 0x2002, 0x01, 0x01, 4, 4, .rwp, .part, true, .num 2000⟩,  -- OP_TIMEOUT (R142)
  ⟨0x2003, 0x2003, 0x01, 0x01, 4, 4, .rwp, .mgmt, true, .num 65536⟩,  -- HTAB_SIZE (R132)
  ⟨0x2004, 0x2004, 0x01, 0x01, 4, 4, .ro, .dev, false, .num 0⟩,  -- DB_DROPPED (R127)
  ⟨0x2004, 0x2004, 0x02, 0x02, 5, 8, .ro, .dev, false, .num 0⟩,  -- DUPLICATES (R141)
  ⟨0x2004, 0x2004, 0x03, 0x03, 5, 8, .ro, .dev, false, .num 0⟩,  -- E2E_RESENDS (R142)
  ⟨0x2100, 0x211F, 0x01, 0x80, 11, 48, .rw, .part, true, .num 0⟩,  -- RING_CFG (R124)
  ⟨0x2120, 0x213F, 0x01, 0x80, 11, 40, .ro, .part, true, .num 0⟩,  -- RING_STATE (R126)
  ⟨0x2401, 0x2401, 0x01, 0x01, 5, 8, .rwp, .mgmt, true, .standAllot⟩,  -- STAND_ALLOT (R143)
  ⟨0x2402, 0x2402, 0x01, 0x01, 3, 2, .rwp, .part, true, .num 4096⟩,  -- STEP_MAX (R147)
  ⟨0x2402, 0x2402, 0x02, 0x02, 3, 2, .rwp, .part, true, .num 1⟩,  -- FILL_MIN (R147)
  ⟨0x2402, 0x2402, 0x03, 0x03, 3, 2, .rwp, .part, true, .num 0⟩,  -- FILL_WAIT (R147)
  ⟨0x2402, 0x2402, 0x04, 0x04, 4, 4, .rwp, .part, true, .num 10000⟩,  -- DEF_BUDGET (R144)
  ⟨0x2403, 0x2403, 0x01, 0x01, 2, 1, .rwp, .mgmt, true, .num 1⟩,  -- PART_SHARE (R149)
  ⟨0x2403, 0x2403, 0x02, 0x02, 2, 1, .rwp, .part, true, .num 25⟩,  -- SWITCH_BW (R151)
  ⟨0x2404, 0x2404, 0x01, 0x01, 11, 16, .ro, .part, true, .num 0⟩,  -- STAND_COUNTS (R144)
  ⟨0x2404, 0x2404, 0x02, 0x02, 5, 8, .ro, .part, true, .num 0⟩,  -- STEP_LISTS (R147)
  ⟨0x2404, 0x2404, 0x03, 0x03, 5, 8, .ro, .part, true, .num 0⟩,  -- LATE_STEPS (R148)
  ⟨0x2404, 0x2404, 0x04, 0x04, 11, 8, .ro, .part, true, .num 0⟩,  -- LAST_LIST (R150)
  ⟨0x2405, 0x2405, 0x01, 0x01, 4, 4, .rw, .part, true, .num 0⟩,  -- STAND_PEEK_SEL (R143)
  ⟨0x2405, 0x2405, 0x02, 0x02, 11, 64, .ro, .part, true, .num 0⟩,  -- STAND_PEEK (R143)
  ⟨0x2410, 0x2410, 0x01, 0x10, 11, 16, .rw, .part, true, .num 0⟩,  -- MODEL_TABLE (R146)
  ⟨0x2601, 0x2601, 0x01, 0x01, 11, 16, .ro, .part, true, .num 0⟩,  -- RW_STATS (R165)
  ⟨0x2601, 0x2601, 0x02, 0x02, 10, 4, .rw, .part, true, .num 0⟩,  -- DEADLOCK_BUF (R162)
  ⟨0x2601, 0x2601, 0x03, 0x03, 11, 16, .wo, .part, true, .num 0⟩,  -- GRAPH_ABORT (R164)
  ⟨0x2602, 0x2602, 0x01, 0x01, 4, 4, .rw, .part, true, .num 0xFFFFFFFF⟩,  -- RW_PEEK_SEL (R165)
  ⟨0x2602, 0x2602, 0x02, 0x02, 11, 32, .ro, .part, true, .num 0⟩,  -- RW_PEEK (R165)
  ⟨0x2603, 0x2603, 0x01, 0x06, 11, 144, .ro, .dev, false, .num 0⟩,  -- GROVE_QDEPTH (R165)
  ⟨0x2604, 0x2604, 0x01, 0x01, 3, 2, .rw, .mgmt, false, .num 0⟩,  -- CORE_LOAD_SEL (R165)
  ⟨0x2604, 0x2604, 0x02, 0x02, 11, 256, .ro, .mgmt, false, .num 0⟩,  -- CORE_LOAD (R165)
  ⟨0x2604, 0x2604, 0x03, 0x03, 11, 16, .ro, .part, true, .num 0⟩,  -- QUEUE_WAIT (R165)
  ⟨0x3001, 0x3001, 0x01, 0x01, 2, 1, .rwp, .part, true, .num 0x06⟩,  -- GROVE_SPLIT (R167)
  ⟨0x3001, 0x3001, 0x02, 0x02, 1, 1, .ro, .part, true, .num 0⟩,  -- SPLIT_PENDING (R167)
  ⟨0x3002, 0x3002, 0x01, 0x01, 4, 4, .rwp, .part, true, .num 16777216⟩,  -- WAIT_LIMIT (R174)
  ⟨0x3003, 0x3003, 0x01, 0x01, 11, 8, .rw, .mgmt, false, .num 0⟩  -- CS_READ_SEL (R176)
]

/-- Part 4 of the catalogue. -/
def catalogue3 : List ParamDef := [
  ⟨0x3003, 0x3003, 0x02, 0x02, 11, 4096, .ro, .mgmt, false, .num 0⟩,  -- CS_READ (R176)
  ⟨0x3003, 0x3003, 0x03, 0x03, 11, 144, .ro, .dev, false, .num 0⟩,  -- CS_DIGEST (R176)
  ⟨0x3004, 0x3004, 0x01, 0x01, 11, 16, .ro, .dev, false, .num 0⟩,  -- PATCH_STATE (R177)
  ⟨0x3005, 0x3005, 0x01, 0x01, 11, 32, .ro, .part, true, .num 0⟩,  -- SPEC_STATS (R181)
  ⟨0x3005, 0x3005, 0x02, 0x02, 4, 4, .ro, .part, true, .num 0⟩,  -- MICRO_FAULTS (R186)
  ⟨0x3401, 0x3401, 0x01, 0x01, 3, 2, .rwp, .part, true, .num 64⟩,  -- ADAPT_WINDOW (R207)
  ⟨0x3410, 0x3410, 0x01, 0x01, 11, 16, .ro, .part, true, .num 0⟩,  -- QLAYER_0 (R205)
  ⟨0x3410, 0x3410, 0x02, 0x40, 11, 16, .rw, .part, true, .num 0⟩,  -- QLAYER (R205)
  ⟨0x3420, 0x3420, 0x01, 0x40, 11, 32, .ro, .part, true, .num 0⟩,  -- QSTATS (R206)
  ⟨0x3801, 0x3801, 0x01, 0x01, 4, 4, .rwp, .mgmt, true, .num 0⟩,  -- HOT_QUOTA (R220)
  ⟨0x3801, 0x3801, 0x02, 0x02, 5, 8, .ro, .part, true, .num 0⟩,  -- HOT_USED (R220)
  ⟨0x3801, 0x3801, 0x03, 0x03, 5, 8, .ro, .part, true, .num 0⟩,  -- HOT_FULL (R221)
  ⟨0x3802, 0x3802, 0x01, 0x01, 11, 8, .rw, .part, true, .num 0⟩,  -- PREFETCH_CFG (R223)
  ⟨0x3802, 0x3802, 0x02, 0x02, 11, 32, .ro, .part, true, .num 0⟩,  -- PF_STATS (R223)
  ⟨0x3810, 0x3811, 0x01, 0x80, 11, 16, .rw, .part, true, .num 0⟩,  -- TABLE_DESC (R211)
  ⟨0x3820, 0x3821, 0x01, 0x80, 11, 32, .ro, .part, true, .num 0⟩,  -- TABLE_STATS (R218)
  ⟨0x4001, 0x4001, 0x01, 0x01, 2, 1, .rwp, .mgmt, false, .num 3⟩,  -- MEM_SPEED (R242)
  ⟨0x4001, 0x4001, 0x02, 0x02, 11, 8, .ro, .dev, false, .num 0⟩,  -- MEM_STATE (R230)
  ⟨0x4001, 0x4001, 0x03, 0x03, 2, 1, .rwp, .mgmt, false, .num 1⟩,  -- INLINE_ECC (R247)
  ⟨0x4002, 0x4002, 0x01, 0x01, 2, 1, .rwp, .mgmt, false, .num 0⟩,  -- HOT_REGION (R227)
  ⟨0x4002, 0x4002, 0x02, 0x02, 11, 16, .ro, .dev, false, .num 0⟩,  -- CANOPY_LAYOUT (R226)
  ⟨0x4003, 0x4003, 0x01, 0x01, 3, 2, .rwp, .mgmt, false, .num 24⟩,  -- SCRUB_PERIOD (R249)
  ⟨0x4004, 0x4004, 0x01, 0x30, 11, 32, .ro, .dev, false, .num 0⟩,  -- PORT_STATUS (R248)
  ⟨0x4005, 0x4005, 0x01, 0x06, 11, 32, .ro, .dev, false, .num 0⟩,  -- SLICE_STATUS (R229)
  ⟨0x4006, 0x4006, 0x01, 0x01, 5, 8, .ro, .dev, false, .num 0⟩,  -- POISONED (R248)
  ⟨0x4007, 0x4007, 0x01, 0x01, 11, 32, .ro, .dev, false, .num 0⟩,  -- DIR_STATS (R235)
  ⟨0x4008, 0x4008, 0x01, 0x02, 4, 4, .rwp, .mgmt, false, .num 0⟩,  -- BAR2_BASE (R232)
  ⟨0x4801, 0x4801, 0x01, 0x01, 3, 2, .rwp, .mgmt, true, .num 4096⟩,  -- LR_QUOTA (R253)
  ⟨0x4801, 0x4801, 0x02, 0x02, 11, 48, .ro, .part, true, .num 0⟩,  -- LR_STATS (R254)
  ⟨0x4802, 0x4802, 0x01, 0x01, 11, 24, .ro, .dev, false, .num 0⟩,  -- STAGING_USED (R253)
  ⟨0x4802, 0x4802, 0x02, 0x02, 11, 12, .ro, .dev, false, .num 0⟩,  -- EPOCH_STATE (R256)
  ⟨0x4802, 0x4802, 0x03, 0x03, 5, 8, .ro, .dev, false, .num 0⟩,  -- EPOCH_STALLS (R256)
  ⟨0x5001, 0x5001, 0x01, 0x01, 11, 8, .ro, .dev, false, .num 0⟩,  -- FAB_STATE (R268)
  ⟨0x5001, 0x5001, 0x02, 0x02, 3, 2, .rw, .mgmt, false, .num 0⟩,  -- FAB_ADDR (R268)
  ⟨0x5001, 0x5001, 0x03, 0x03, 2, 1, .rwp, .loc, false, .num 0⟩  -- MGR_PRIORITY (R269)
]

/-- Part 5 of the catalogue. -/
def catalogue4 : List ParamDef := [
  ⟨0x5001, 0x5001, 0x04, 0x04, 2, 1, .rwp, .mgmt, false, .num 16⟩,  -- HOP_LIMIT (R271)
  ⟨0x5002, 0x5002, 0x01, 0x0C, 2, 1, .rwp, .mgmt, false, .num 0⟩,  -- PORT_CFG (R263)
  ⟨0x5003, 0x5003, 0x01, 0x0C, 11, 24, .ro, .dev, false, .num 0⟩,  -- PORT_STATE (R264)
  ⟨0x5004, 0x5004, 0x01, 0x01, 2, 1, .wo, .mgmt, false, .num 0⟩,  -- ROUTE_FLIP (R273)
  ⟨0x5005, 0x5005, 0x01, 0x08, 11, 2048, .rw, .mgmt, false, .routes⟩,  -- ROUTE_TABLE (R271)
  ⟨0x5006, 0x5006, 0x01, 0x01, 11, 64, .ro, .dev, false, .num 0⟩,  -- FAB_STATS (R278)
  ⟨0x5008, 0x5008, 0x01, 0x01, 11, 32, .rw, .loc, false, .num 0⟩,  -- FR_HEAD (R270)
  ⟨0x5008, 0x5008, 0x02, 0x02, 11, 4096, .rw, .loc, false, .num 0⟩,  -- FR_VALUE (R270)
  ⟨0x5008, 0x5008, 0x03, 0x03, 2, 1, .wo, .loc, false, .num 0⟩,  -- FR_GO (R270)
  ⟨0x5008, 0x5008, 0x04, 0x04, 11, 16, .ro, .loc, false, .num 0⟩,  -- FR_RSP_HEAD (R270)
  ⟨0x5008, 0x5008, 0x05, 0x05, 11, 4096, .ro, .loc, false, .num 0⟩,  -- FR_RSP_VALUE (R270)
  ⟨0x5801, 0x5801, 0x01, 0x01, 3, 2, .rwp, .mgmt, true, .partMap⟩,  -- PART_MAP (R285)
  ⟨0x5802, 0x5802, 0x01, 0x06, 11, 9, .rwp, .mgmt, true, .partGroves⟩,  -- PART_GROVES (R285)
  ⟨0x5803, 0x5803, 0x01, 0x01, 11, 8, .rwp, .mgmt, true, .partMem⟩,  -- PART_MEM (R286)
  ⟨0x5804, 0x5804, 0x01, 0x01, 11, 128, .rw, .mgmt, true, .num 0⟩,  -- PEER_TABLE (R292)
  ⟨0x6001, 0x6001, 0x01, 0x01, 2, 1, .rwp, .part, true, .num 2⟩,  -- PROV_FWD (R302)
  ⟨0x6001, 0x6001, 0x02, 0x02, 3, 2, .rwp, .part, true, .num 32⟩,  -- PROV_WINDOW (R282)
  ⟨0x6002, 0x6002, 0x01, 0x40, 11, 16, .rw, .part, true, .check⟩,  -- CHECK_CFG (R298)
  ⟨0x6003, 0x6003, 0x01, 0x01, 2, 1, .rwp, .mgmt, false, .num 3⟩,  -- STRIKE_LIMIT (R308)
  ⟨0x6003, 0x6003, 0x02, 0x02, 3, 2, .rwp, .mgmt, false, .num 24⟩,  -- STRIKE_WINDOW (R308)
  ⟨0x6003, 0x6003, 0x03, 0x03, 3, 2, .rwp, .mgmt, false, .num 168⟩,  -- RETIRE_WINDOW (R309)
  ⟨0x6003, 0x6003, 0x04, 0x04, 1, 1, .rwp, .mgmt, false, .num 1⟩,  -- AUTO_RETURN (R309)
  ⟨0x6003, 0x6003, 0x05, 0x05, 4, 4, .rwp, .mgmt, false, .num 10000⟩,  -- CLEAR_LIMIT (R297)
  ⟨0x6004, 0x6004, 0x01, 0x01, 3, 2, .rw, .mgmt, false, .num 0x1000⟩,  -- UNIT_SEL (R296)
  ⟨0x6004, 0x6004, 0x02, 0x02, 11, 32, .ro, .dev, false, .num 0⟩,  -- UNIT_STATE (R317)
  ⟨0x6004, 0x6004, 0x03, 0x03, 3, 2, .wo, .mgmt, false, .num 0⟩,  -- UNIT_CMD (R307)
  ⟨0x6005, 0x6005, 0x01, 0x01, 5, 8, .rw, .mgmt, false, .num 1⟩,  -- HIST_SEL (R318)
  ⟨0x6005, 0x6005, 0x02, 0x02, 11, 4096, .ro, .mgmt, false, .num 0⟩,  -- HIST_READ (R318)
  ⟨0x6005, 0x6005, 0x03, 0x03, 5, 8, .ro, .dev, false, .num 0⟩,  -- HIST_NEXT (R317)
  ⟨0x6006, 0x6006, 0x01, 0x01, 11, 8, .rwp, .mgmt, false, .num 0x030400A8⟩,  -- SURVEY_CFG (R316)
  ⟨0x6006, 0x6006, 0x02, 0x02, 2, 1, .wo, .mgmt, false, .num 0⟩,  -- SURVEY_NOW (R316)
  ⟨0x6006, 0x6006, 0x03, 0x03, 11, 32, .ro, .dev, false, .num 0⟩,  -- SURVEY_STATE (R316)
  ⟨0x6007, 0x6007, 0x01, 0x01, 11, 64, .ro, .part, true, .num 0⟩,  -- FB_STATS (R299)
  ⟨0x7001, 0x7001, 0x01, 0x01, 2, 1, .rwp, .mgmt, false, .num 0⟩,  -- TIME_SRC (R328)
  ⟨0x7001, 0x7001, 0x02, 0x02, 5, 8, .wo, .mgmt, false, .num 0⟩  -- TIME_SET (R328)
]

/-- Part 6 of the catalogue. -/
def catalogue5 : List ParamDef := [
  ⟨0x7001, 0x7001, 0x03, 0x03, 5, 8, .ro, .dev, false, .num 0⟩,  -- DEVICE_TIME (R328)
  ⟨0x7001, 0x7001, 0x04, 0x04, 4, 4, .ro, .dev, false, .num 0⟩,  -- TIME_STATUS (R328)
  ⟨0x7001, 0x7001, 0x05, 0x05, 1, 1, .rwp, .mgmt, false, .num 0⟩,  -- PPS_OUT_EN (R328)
  ⟨0x7002, 0x7002, 0x01, 0x01, 11, 96, .ro, .dev, false, .num 0⟩,  -- DEVICE_PUBKEY (R334)
  ⟨0x7002, 0x7002, 0x02, 0x02, 11, 320, .ro, .dev, false, .num 0⟩,  -- DEVICE_CERT (R334)
  ⟨0x7002, 0x7002, 0x03, 0x03, 11, 512, .ro, .dev, false, .num 0⟩,  -- BIN_EDGES (R325)
  ⟨0x7003, 0x7003, 0x01, 0x01, 11, 32, .ro, .dev, false, .num 0⟩,  -- LEDGER_STATE (R332)
  ⟨0x7003, 0x7003, 0x02, 0x02, 5, 8, .rw, .mgmt, false, .num 0⟩,  -- LEDGER_SEL (R332)
  ⟨0x7003, 0x7003, 0x03, 0x03, 11, 4096, .ro, .mgmt, false, .num 0⟩,  -- LEDGER_READ (R332)
  ⟨0x7004, 0x7004, 0x01, 0x01, 11, 32, .ro, .dev, false, .num 0⟩,  -- LK_STATS (R322)
  ⟨0x7010, 0x7011, 0x01, 0x80, 11, 64, .rwp, .mgmt, false, .num 0⟩,  -- CLASS_CFG (R324)
  ⟨0x7020, 0x7021, 0x01, 0x80, 5, 8, .ro, .dev, false, .num 0⟩,  -- CLASS_BSEQ (R332)
  ⟨0x7401, 0x7401, 0x01, 0x01, 2, 1, .rwp, .mgmt, true, .num 0⟩,  -- CTR_USER (R344)
  ⟨0x7402, 0x7402, 0x01, 0x01, 11, 32, .rw, .part, true, .num 0⟩,  -- GCTR_CFG (R337)
  ⟨0x7402, 0x7402, 0x02, 0x02, 2, 1, .rw, .part, true, .num 0⟩,  -- GCTR_CTL (R337)
  ⟨0x7402, 0x7402, 0x03, 0x03, 3, 2, .wo, .part, true, .num 0⟩,  -- GCTR_CLEAR (R340)
  ⟨0x7402, 0x7402, 0x04, 0x04, 3, 2, .rw, .part, true, .num 0⟩,  -- GCTR_SEL (R338)
  ⟨0x7402, 0x7402, 0x05, 0x05, 11, 104, .ro, .part, true, .num 0⟩,  -- GCTR_READ (R338)
  ⟨0x7402, 0x7402, 0x06, 0x06, 11, 96, .ro, .part, true, .num 0⟩,  -- GCTR_SUM (R339)
  ⟨0x7410, 0x7410, 0x01, 0x06, 11, 32, .rw, .mgmt, false, .num 0⟩,  -- DIE_CTR_CFG (R336)
  ⟨0x7411, 0x7411, 0x01, 0x06, 11, 72, .ro, .mgmt, false, .num 0⟩,  -- DIE_CTR_READ (R338)
  ⟨0x7412, 0x7412, 0x01, 0x01, 2, 1, .wo, .mgmt, false, .num 0⟩,  -- DIE_CTR_CLEAR (R340)
  ⟨0x7413, 0x7413, 0x01, 0x01, 3, 2, .rw, .mgmt, false, .num 0x1000⟩,  -- ENG_SEL (R336)
  ⟨0x7413, 0x7413, 0x02, 0x02, 11, 32, .ro, .mgmt, false, .num 0⟩,  -- ENG_READ (R336)
  ⟨0x7420, 0x7420, 0x01, 0x01, 11, 16, .rw, .part, true, .num 0⟩,  -- TRACKS_CFG (R341)
  ⟨0x7420, 0x7420, 0x02, 0x02, 11, 4, .rw, .mgmt, false, .num 0⟩,  -- TRACKS_CTL (R342)
  ⟨0x7420, 0x7420, 0x03, 0x03, 2, 1, .wo, .mgmt, false, .num 0⟩,  -- TRACKS_RESUME (R342)
  ⟨0x7421, 0x7421, 0x01, 0x06, 11, 24, .ro, .dev, false, .num 0⟩,  -- TRACKS_STATE (R342)
  ⟨0x7422, 0x7422, 0x01, 0x01, 11, 16, .rw, .part, true, .num 0⟩,  -- TRACKS_SEL (R343)
  ⟨0x7422, 0x7422, 0x02, 0x02, 11, 4096, .ro, .part, true, .num 0⟩,  -- TRACKS_READ (R343)
  ⟨0x7423, 0x7423, 0x01, 0x01, 11, 16, .rw, .mgmt, false, .num 0⟩,  -- TRACKS_SEL_ALL (R343)
  ⟨0x7423, 0x7423, 0x02, 0x02, 11, 4096, .ro, .mgmt, false, .num 0⟩  -- TRACKS_READ_ALL (R343)
]

/-- Every parameter at stepping A1 (R345). -/
def catalogue : List ParamDef :=
  catalogue0 ++ catalogue1 ++ catalogue2 ++ catalogue3 ++ catalogue4 ++ catalogue5

/-- The catalogue line of a parameter, if it exists; subindex 0 is not listed here (R33). -/
def findParam (idx sub : Nat) : Option ParamDef :=
  catalogue.find? (fun d => decide (d.lo ≤ idx) && decide (idx ≤ d.hi) && decide (d.slo ≤ sub) && decide (sub ≤ d.shi))

/-- Whether an index exists (R345). -/
def indexExists (idx : Nat) : Bool :=
  catalogue.any (fun d => decide (d.lo ≤ idx) && decide (idx ≤ d.hi))

/-- The highest subindex defined at an index (R33). -/
def highestSub (idx : Nat) : Nat :=
  catalogue.foldl (fun a d => if decide (d.lo ≤ idx) && decide (idx ≤ d.hi) then max a d.shi else a) 0

/-- The catalogue line of subindex 0 of every index: UINT8, RO, class DEV, device-scoped (R33). -/
def subZero : ParamDef := ⟨0, 0xEFFF, 0, 0, 2, 1, .ro, .dev, false, .num 0⟩

/-- A parameter by index and subindex, subindex 0 included. -/
def lookParam (idx sub : Nat) : Option ParamDef :=
  if sub = 0 then (if indexExists idx then some subZero else none) else findParam idx sub

/-- The existing parameters in ascending order of 256 × index + subindex after a place: the next one (R41). -/
def nextPlace (p : Nat) : Option Nat :=
  let step (best : Option Nat) (c : Nat) : Option Nat :=
    if p < c then (match best with
      | none => some c
      | some b => if c < b then some c else some b) else best
  let least (d : ParamDef) : List Nat :=
    let i := p / 256
    let heads := if i < d.lo then [256 * d.lo, 256 * d.lo + d.slo] else
      if d.hi < i then [] else
        [256 * i, 256 * i + d.slo, (if d.slo ≤ p % 256 && p % 256 < d.shi then p + 1 else 256 * i)] ++
        (if i < d.hi then [256 * (i + 1), 256 * (i + 1) + d.slo] else [])
    heads
  (catalogue.flatMap least).foldl step none

/-- A value with the bits that another of its fields makes reserved at 0: bits 31:28 of the handles of a RING_CFG with LOCAL set (R3, R132,
Table 8-1). -/
def dropReserved (idx v : Nat) : Nat :=
  if decide (0x2100 ≤ idx) && decide (idx ≤ 0x211F) && decide (v / 2 ^ 203 % 2 = 1) then
    v &&& (ones 384 - (0xF <<< 28) - (0xF <<< 92) - (0xF <<< 156))
  else v

/-- Bits of a parameter's value that a write can change: neither reserved (R3) nor RO (R348). -/
def writeMask (idx sub size : Nat) : Nat :=
  let all := ones (8 * size)
  if idx = 0x0020 && sub = 3 then 0x1F
  else if idx = 0x0030 && sub = 5 then 0x03
  else if idx = 0x0030 && sub = 6 then 0x70
  else if idx = 0x1000 then 0x03
  else if idx = 0x1001 then 0x0F
  else if idx = 0x1002 then ones 40
  else if idx = 0x1003 then 0x3FF
  else if decide (0x1110 ≤ idx) && decide (idx ≤ 0x1117) then 0x3FFFFF
  else if decide (0x1118 ≤ idx) && decide (idx ≤ 0x111F) then (if 0x111C ≤ idx then all else 0xFF)
  else if decide (0x1120 ≤ idx) && decide (idx ≤ 0x1127) then 0x05
  else if decide (0x1200 ≤ idx) && decide (idx ≤ 0x1204) then
    let n := 128 * (idx - 0x1200) + (sub - 1)
    if n < 540 && n % 90 < 80 then 0x0F else 0
  else if idx = 0x1240 && sub = 5 then 0x0E
  else if idx = 0x1240 && sub = 6 then 0x07
  else if idx = 0x2001 then ones 25
  else if idx = 0x2401 then ones 17 ||| (ones 18 <<< 32)
  else if decide (0x2100 ≤ idx) && decide (idx ≤ 0x211F) then ones 200 + (0xF <<< 200) + (ones 40 <<< 208) + (ones 64 <<< 256)
  else if idx = 0x2410 then ones 28
  else if idx = 0x2601 && sub = 2 then ones 28
  else if idx = 0x3001 then 0x0F
  else if idx = 0x3003 then ones 48
  else if idx = 0x3410 then ones 9 + (ones 56 <<< 16) + (ones 32 <<< 80)
  else if idx = 0x3802 then ones 48
  else if idx = 0x3810 || idx = 0x3811 then ones 59
  else if idx = 0x5002 then 0x07
  else if idx = 0x5008 && sub = 1 then ones 88 + (ones 96 <<< 128)
  else if idx = 0x5801 then ones 9 + 0x8000
  else if idx = 0x6002 then 0x07 + (0xFF <<< 8) + (ones 64 <<< 32)
  else if idx = 0x6006 && sub = 1 then ones 26
  else if idx = 0x7010 || idx = 0x7011 then 0x01 + (0xFF <<< 8) + (ones 288 <<< 32)
  else if idx = 0x7401 then 0x03
  else if idx = 0x7402 && sub = 1 || idx = 0x7410 then ones 10 * (ones 256 / ones 32)
  else if idx = 0x7402 && sub = 2 then 0x01
  else if idx = 0x7420 && sub = 1 then ones 32 + (ones 14 <<< 32) + (ones 14 <<< 48) + (0x03 <<< 64)
  else if idx = 0x7420 && sub = 2 then 0x01 + (ones 16 <<< 16)
  else if (idx = 0x7422 || idx = 0x7423) && sub = 1 then 0xFF + (ones 64 <<< 64)
  else all

end Sys2Proof.Machine
end

