-- ==== Sys2Proof/Config.lean ====
section
/-!
DEFINITION. What one part or one implementation fixes, and the values the spec leaves open. Each is opaque: no proof can see it.
-/
namespace Sys2Proof.Config

/-- The serial number fused into the part (R347). -/
opaque serial : BitVec 64

/-- Which of the three ordering codes of Table 0-1 the fuses hold (R1): 0 DX6-16, 1 DX6-32, 2 DX6-64. -/
opaque orderingCode : Fin 3

/-- The Skozin root-key hash fused into the part (R13, R115). -/
opaque rootKeyHash : BitVec 384

/-- The device's private key, less one, as generated at manufacture (R334). -/
opaque deviceKey : BitVec 384

/-- Skozin's root key, X and Y, and Skozin's signature r and s in the device certificate (Table 20-4). -/
opaque skozinKey : BitVec 768
opaque certSig : BitVec 768

/-- The address at which a Warden starts (R72): the spec names a reset vector and gives no address. -/
opaque wardenResetVector : BitVec 32

/-- The bytes of the boot ROM of a Warden (Table 4-2). -/
opaque bootRom : Nat → Byte

/-- The values the spec leaves open, one for each time one is taken: the number of the draw and a width. -/
opaque freeBits : Nat → Nat

/-- The bytes of a memory whose contents the spec leaves undefined: the number of the loss and the address. -/
opaque openByte : Nat → Nat → Nat

/-- The order in which MODEL_SWITCH lays weights into a slot's region, which the spec names and does not give (R151): the handle of
the graph, the length, and the place written. -/
opaque tileOrder : Nat → Nat → Nat → Nat

/-- The set of its slice and the bank in which a line lies, and the set of a grove's cache: no rule states them (R226, R231, R167). -/
opaque sliceSet : Nat → Nat
opaque sliceBank : Nat → Nat
opaque groveSet : Nat → Nat

/-- The errors that arise in the LPDDR cells by themselves, by the nanosecond: a line, and whether it can no longer be corrected (R248). -/
opaque upset : Nat → Option (Nat × Bool)

/-- Bytes of a memory refresh report turned into the interval between per-bank refreshes in ns (R244): JESD209-5C states it. -/
opaque refreshInterval : Nat → Nat

/-- The device address at which a task sees its instance's argument block (R154, R170): the address map of R230 gives it no place. -/
opaque argBlock : Nat → Nat

end Sys2Proof.Config
end

