-- ==== Sys2Proof/Machine/State.lean ====
section
/-!
DEFINITION. The state of the block: every register, table, buffer, counter and pin the spec gives it, as plain data, and the
queue of waiting commands. `State.reset` is the part with its always-on rails just up and PWROK still low (R19, R21).
-/
namespace Sys2Proof.Machine

/-- Reasons the block stops. The spec gives every command of the table an effect, so the type has no constructor: no meaning of the
model ends in a fault. -/
inductive Fault where
  deriving DecidableEq, Repr

/-- Reasons a command has no meaning. -/
inductive Refusal where
  /-- Raised by `exec` alone, for a row of the table that has no meaning yet. Safe: the run stops. -/
  | notModelled (mnemonic : String)
  deriving DecidableEq, Repr

/-! ## Package, board and power (chapters 2 and 6) -/

/-- The pins of the package that the block samples or drives (R17–R31). -/
structure Pins where
  /-- PWROK as last seen. -/
  pwrok : Bool := false
  /-- MAINPWR_EN: undriven, or driven high or low (R21). -/
  mainpwrEn : Option Bool := none
  /-- THERMTRIP_N is driven low, until the next power-up (R30). -/
  thermtripLow : Bool := false
  /-- PERST# of D0 and D3: true while high. -/
  perst : List Bool := [false, false]
  /-- WAKE# is being asserted (R104). -/
  wakeAsserted : Bool := false
  /-- The straps as sampled (R27). -/
  straps : BitVec 10 := 0
  /-- All clocks but management are stopped by the thermal trip (R30). -/
  tripped : Bool := false
  deriving DecidableEq, Repr

/-- What the device is doing with its power (R97). -/
inductive PowerMode where
  | running | idle | dormant
  deriving DecidableEq, Repr

/-- A sleep entry in progress (R105): where it leads and the management cycles since the request. -/
structure SleepEntry where
  dormant : Bool
  cycle : Nat
  deriving DecidableEq, Repr

/-- Clock steps, power cap, thermal limit and sleep (R90–R105). -/
structure Power where
  capStep : Nat := 0
  thermStep : Nat := 0
  capLimiting : Bool := false
  thermLimiting : Bool := false
  capUnattainable : Bool := false
  /-- POWER_NOW, the 1 ms average in W. -/
  powerNow : Nat := 0
  /-- The last 100 samples of 10 µs, newest first, that the average is taken over. -/
  samples : List Nat := []
  /-- The hottest sensor of each die, in 1/16 °C. -/
  tj : List (BitVec 16) := [0, 0, 0, 0, 0, 0]
  /-- Domains whose clock is stopped by autogating. -/
  autogated : List Nat := []
  mode : PowerMode := .running
  entry : Option SleepEntry := none
  /-- Entry past its commit point and not yet complete. -/
  committed : Option Bool := none
  /-- A wake sampled after the commit point: exit begins when entry completes. -/
  wakeAfter : Bool := false
  /-- SLEEP_STATUS outcome and wake cause. -/
  sleepOutcome : Nat := 0
  wakeCause : Nat := 0
  doorbellsDropped : Nat := 0
  /-- LPDDR is in self-refresh or deep sleep. -/
  lpddrSleep : Nat := 0
  /-- Host-port intake is stopped (R103 step 1). -/
  intakeStopped : Bool := false
  /-- Clock at which DORMANT was entered, for WAKE_TIMER. -/
  dormantAt : Nat := 0
  deriving DecidableEq, Repr

/-! ## Start-up and resets (chapter 7) -/

/-- What the fuses of the part hold (R1, R13, R334, R347). No command changes it. -/
structure Fuses where
  serial : BitVec 64 := Config.serial
  /-- Ordering code: 0 DX6-16, 1 DX6-32, 2 DX6-64. -/
  ordering : Fin 3 := Config.orderingCode
  rootKeyHash : BitVec 384 := Config.rootKeyHash
  /-- The private key of the device's pair, less one; no principal can read it (R334). -/
  deviceKey : BitVec 384 := Config.deviceKey
  /-- SKOZIN_KEY and SIG of DEVICE_CERT (Table 20-4). -/
  skozinKey : BitVec 768 := Config.skozinKey
  certSig : BitVec 768 := Config.certSig
  deriving DecidableEq, Repr

/-- A verified container (R113): the fields that are used after verification. -/
structure Container where
  kind : Nat
  svn : Nat
  buildId : Nat
  /-- Type and bytes of each section, in order. -/
  sections : List (Nat × List Byte)
  bytes : List Byte
  deriving DecidableEq, Repr

/-- How the present start-up began (R106–R108). -/
inductive StartKind where
  | cold | warm | dormantKept | dormantLost
  deriving DecidableEq, Repr

/-- Start-up, container intake and reset bookkeeping (R106–R122). -/
structure Boot where
  stage : Nat := 0
  error : Nat := 0
  cause : Nat := 0
  /-- 0 A, 1 B, 2 recovery. -/
  bootedSlot : Nat := 0
  readyTime : Nat := 0
  /-- Clock at the trigger that READY_TIME counts from. -/
  trigger : Nat := 0
  kind : StartKind := .cold
  /-- Slots already tried at this start. -/
  slotsTried : List Nat := []
  /-- The bytes read from the NOR or the intake, waiting for verification. -/
  candidate : Option (List Byte) := none
  /-- Start-up waits for a BOOT container through the intake. -/
  recovery : Bool := false
  /-- Seedbank recovery has completed (R53). -/
  seedDone : Bool := false
  /-- The verified boot container. -/
  image : Option Container := none
  /-- The image region of LPDDR: the stored boot image (R108). -/
  stored : List Byte := []
  /-- Stage 6 of a cached start is done and the digest check of the stored copy is still to come (R108). -/
  digestPending : Bool := false
  ctTotal : Nat := 0
  ctData : List Byte := []
  ctStatus : Nat := 0
  /-- An accepted BOOT container waits for a warm reset. -/
  ctPending : Option Container := none
  /-- Host links in L0. -/
  hostL0 : List Bool := [false, false]
  /-- Fabric and other clocks run; set between READY and a reset. -/
  refclkLossPending : Bool := false
  /-- A JTAG unlock token has been accepted (R37). -/
  debugUnlocked : Bool := false
  /-- LPDDR ranges whose contents a DORMANT exit found lost, as the Boot stage leaves them to survey (R104). -/
  rangeLost : List Nat := []
  deriving DecidableEq, Repr

/-! ## The parameter directory (chapter 3) -/

/-- One staged entry of a transaction (R42): a write or a guard. -/
structure Entry where
  guard : Bool
  index : Nat
  sub : Nat
  inst : Nat
  value : Nat
  len : Nat
  deriving DecidableEq, Repr

/-- An open transaction (R42, R43) and the clock of its last operation (R47). -/
structure Txn where
  num : Nat
  owner : Session
  lastOp : Nat
  entries : List Entry := []
  deriving DecidableEq, Repr

/-- A transaction that R47 aborted and the clock of the abort, until its number is released. -/
structure DeadTxn where
  num : Nat
  owner : Session
  abortedAt : Nat
  deriving DecidableEq, Repr

/-- A change that a commit makes: the parameter, its value before, and the value it takes; for a WO or W1C parameter the value written. -/
structure Change where
  index : Nat
  sub : Nat
  inst : Nat
  old : Nat
  new : Nat
  deriving DecidableEq, Repr

/-- The response to a directory operation (R40, R41). -/
structure Rsp where
  op : Nat
  index : Nat
  sub : Nat
  inst : Nat
  txn : Nat
  len : Nat
  status : Nat
  value : Nat
  deriving DecidableEq, Repr

/-- A function's BAR0 mailbox (R60, R61). -/
structure Mailbox where
  reqHdr : BitVec 128 := 0
  reqValue : Nat := 0
  rspHdr : BitVec 128 := 0
  rspValue : Nat := 0
  busy : Bool := false
  done : Bool := false
  dropped : Bool := false
  tag : BitVec 16 := 0
  /-- While BUSY: the tag of the submitted request and its answer, to be written at completion (R61). -/
  waiting : Option (BitVec 16 × Rsp) := none
  deriving DecidableEq, Repr

/-- The directory engine. -/
structure Dir where
  /-- Committed values of the parameters that differ from what reset left, by index, subindex and instance number. -/
  params : Sparse Nat := []
  /-- Keys of committed RWL parameters (R2); no parameter at stepping A1 is RWL (R346). -/
  locked : List Nat := []
  txns : List Txn := []
  dead : List DeadTxn := []
  /-- Transactions opened since start and, for each number used, at which opening (R43). -/
  opened : Nat := 0
  usedAt : Sparse Nat := []
  /-- Sessions whose transaction a reset or failover discarded and that have not been told (TXN_LOST). -/
  lost : List Session := []
  /-- DIR_COMMITS. -/
  commits : Nat := 0
  /-- Changes committed in DORMANT that apply at exit (R103). -/
  deferred : List Change := []
  /-- The response to the operation executed last. -/
  rsp : Option Rsp := none
  /-- Mailboxes by 73 × port + function (0 the PF). -/
  mailboxes : Sparse Mailbox := []
  deriving DecidableEq, Repr

/-! ## The field bus (chapter 3) -/

/-- A segmented request being received (R55, R56). -/
structure CanRx where
  bus : Fin 2
  src : Nat
  xfer : Nat
  pri : Nat
  hdr : Nat
  /-- Value bytes received so far. -/
  value : List Byte
  /-- Segments received in sequence. -/
  segs : Nat
  deriving DecidableEq, Repr

/-- A segmented response being sent (R56). -/
structure CanTx where
  bus : Fin 2
  dst : Nat
  xfer : Nat
  pri : Nat
  value : List Byte
  /-- Segments of the whole value beyond the RSP frame. -/
  total : Nat
  acked : Nat
  sent : Nat
  resends : Nat
  deriving DecidableEq, Repr

/-- A request answered within the last 100 ms and its answer (R59). -/
structure CanDone where
  bus : Fin 2
  src : Nat
  xfer : Nat
  content : Nat
  at_ : Nat
  rsp : Rsp
  deriving DecidableEq, Repr

/-- A frame the device sends: its bus, identifier and 64 data bytes, and ESI as it goes out (R54). -/
structure CanOut where
  bus : Fin 2
  id : BitVec 29
  data : BitVec 512
  esi : Bool := false
  deriving DecidableEq, Repr

/-- A segmented transfer that was given up: its bus, peer and tag, and SEG_TIMEOUT or SEG_ERROR (R56, Table 3-7). -/
structure CanGone where
  bus : Fin 2
  peer : Nat
  xfer : Nat
  status : Nat
  deriving DecidableEq, Repr

/-- CAN FD buses A and B (R54–R59). -/
structure FieldBus where
  /-- Error state of each bus: 0 active, 1 passive, 2 off. -/
  busState : List Nat := [0, 0]
  nodeConflict : Bool := false
  nodeInvalid : Bool := false
  frameIgnored : Bool := false
  /-- A node ID conflict was found: listen-only until the next cold reset, whatever becomes of the flag (R57). -/
  conflicted : Bool := false
  listenOnly : Bool := true
  started : Bool := false
  announced : Bool := false
  /-- Clock until which the device listens after ANNOUNCE. -/
  listenUntil : Nat := 0
  rx : List CanRx := []
  tx : List CanTx := []
  done : List CanDone := []
  /-- Frames queued for sending, oldest first, and frames sent, newest first. -/
  out : List CanOut := []
  sent : List CanOut := []
  /-- Bit rates in force: arbitration and data codes. -/
  arbRate : Nat := 0
  dataRate : Nat := 0
  /-- A committed rate waits for the response to its commit to be sent. -/
  ratePending : Bool := false
  /-- The response that a committed rate or pin switch waits for: its bus, destination and tag (R54, R79). -/
  carrying : Option (Fin 2 × Nat × Nat) := none
  /-- Transfers given up, newest first. -/
  abandoned : List CanGone := []
  deriving DecidableEq, Repr

/-! ## Understory islands, Wardens and pins (chapter 4) -/

/-- A Warden: registers, windows and control registers (R67–R73). DESIGN CHOICE (log entry 9): SRAM, registers and the directory port hold 0
at reset; the spec gives no value. -/
structure Warden where
  /-- Common registers c0–c7 (c0 is held at 0). -/
  common : List (BitVec 32) := List.replicate 8 0
  /-- The 8 windows of 16 registers, window k at places 16k to 16k + 15. -/
  windows : List (BitVec 32) := List.replicate 128 0
  wptr : Nat := 0
  wres : Nat := 1
  spilled : BitVec 16 := 0
  spillPtr : BitVec 32 := 0x1007C000
  spillLimit : BitVec 32 := 0x10080000
  trapPc : BitVec 32 := 0
  trapWptr : Nat := 0
  trapCause : BitVec 8 := 0
  trapInfo : BitVec 32 := 0
  pc : BitVec 32 := Config.wardenResetVector
  halted : Bool := false
  /-- Local SRAM, 512 KiB, by offset. -/
  sram : Sparse Byte := []
  /-- The store buffer, oldest first: address, size in bytes, value (R67). -/
  stores : List (Nat × Nat × Nat) := []
  /-- The directory port (R63). -/
  port : Mailbox := {}
  deriving DecidableEq, Repr

/-- A pin's level and output enable as the hold latch captures them at a commit edge (R76). -/
structure MioLatch where
  level : Bool
  enable : Bool
  deriving DecidableEq, Repr

/-- A pin switch in progress (R76): cycles since the commit edge, the latched level and enable, the old and new function. -/
structure MioSwitch where
  cycle : Nat
  level : Bool
  enable : Bool
  old : Nat
  new : Nat
  deriving DecidableEq, Repr

/-- The management islands and the management pins. -/
structure Understory where
  /-- The primary island: 0 D0, 3 D3. -/
  primary : Nat := 0
  standbyOk : Bool := false
  failovers : Nat := 0
  /-- Clock at which the standby last heard a beacon. -/
  lastBeacon : Nat := 0
  /-- A takeover is in progress: directory operations return UNAVAILABLE. -/
  takingOver : Bool := false
  /-- The former primary restarts and will test itself. -/
  formerRestarting : Bool := false
  roleSwapPending : Bool := false
  /-- The other island is unpowered (DORMANT) or failed. -/
  islandFailed : Bool := false
  wardens : List Warden := [{}, {}]
  /-- The Wardens of the standby island. -/
  standby : List Warden := [{}, {}]
  /-- WARDEN_RESTARTS of Warden 0 and Warden 1. -/
  restarts : List Nat := [0, 0]
  /-- Warden firmware of the boot image. -/
  firmware : List Byte := []
  /-- The function in force on each of MIO0–MIO39. -/
  mioFunc : List Nat := List.replicate 40 3
  /-- Switches in progress by pin. -/
  mioSwitch : Sparse MioSwitch := []
  /-- Level at each pin from outside, bit n for MIOn. -/
  mioIn : Nat := 0
  /-- The pull in force on each pin: 0 none, 1 up, 2 down (Table 4-6). The standby's pins have the same. -/
  mioPull : List Nat := List.replicate 40 1
  /-- Latches captured at the commit edge by pins whose switch has still to run (R76). -/
  mioLatch : Sparse MioLatch := []
  /-- MIO_ABORTS. -/
  mioAborts : Nat := 0
  /-- Controllers whose last transfer ended with an aborted status told to its owner (R77), newest first. -/
  mioAborted : List Nat := []
  /-- Field-bus pin switches that wait for the response of the carrying commit (R79): pin and clock of the commit. -/
  mioDeferred : List (Nat × Nat) := []
  deriving DecidableEq, Repr

/-! ## Events (chapter 5) -/

/-- An MSI-X message issued: port, function, vector. -/
structure Msix where
  port : Nat
  fn : Nat
  vector : Nat
  deriving DecidableEq, Repr

/-- A hold-off that runs (R89): the clock of the delivery that started it, the clock of its expiry, and the targets delivered to in
that first cycle. -/
structure Held where
  since : Nat
  until_ : Nat
  targets : List Nat
  deriving DecidableEq, Repr

/-- A burst that runs at the end of a hold-off (R89): the source delivered last on each target, the clock of the last delivery and the
targets delivered to in that cycle; none delivered yet leaves the clock absent. -/
structure Burst where
  last : Sparse Nat := []
  at_ : Option Nat := none
  targets : List Nat := []
  deriving DecidableEq, Repr

/-- A delivery that was selected before a mask or route write took effect (R87): it may still issue, to its old route, until a
clock value. -/
structure Late where
  src : Nat
  route : Nat
  until_ : Nat
  deriving DecidableEq, Repr

/-- Event sources, MSI-X and hold-off (R80–R89). -/
structure Events where
  pending : BitVec 1024 := 0
  inService : BitVec 1024 := 0
  overrun : BitVec 1024 := 0
  overruns : Nat := 0
  /-- Occurrences of a completion source since its last delivery. -/
  count : Sparse Nat := []
  /-- Completion sources whose coalescing condition has been met. -/
  met : List Nat := []
  /-- The clock of a completion source's first undelivered occurrence, and the clock at which its coalescing time is up (R88). -/
  firstAt : Sparse Nat := []
  due : Sparse Nat := []
  held : Sparse Held := []
  /-- Bursts in progress, by group (R89). -/
  bursts : Sparse Burst := []
  late : List Late := []
  /-- The source taken last by each Warden. -/
  lastTaken : List Nat := [0, 0]
  /-- Functions with MSI-X Enable set, and with the function mask set, as 73 × port + function. -/
  msixEnable : List Nat := []
  fnMask : List Nat := []
  /-- Vectors unmasked in the MSI-X table, as 320 × (73 × port + function) + vector. -/
  vecUnmasked : List Nat := []
  /-- The Pending Bit Array: vectors with a message held by a mask, numbered as in `vecUnmasked`. -/
  pba : List Nat := []
  /-- Messages sent, newest first. -/
  sent : List Msix := []
  deriving DecidableEq, Repr


/-! ## PCI Express configuration (R85, R121, R232, R233) -/

/-- What the host's configuration writes have set, by host port: BAR2 of the PF and of the VFs in MiB, VFs enabled, uncorrectable
internal errors reported through AER, and the data of the last BAR2 read. -/
structure Pcie where
  bar2 : List Nat := [256, 256]
  vfBar2 : List Nat := [256, 256]
  vfs : List Nat := [0, 0]
  aer : List Nat := [0, 0]
  bar2Read : List Byte := []
  /-- The data of the last BAR0 read. -/
  bar0Read : List Byte := []
  deriving DecidableEq, Repr
/-! ## Seedbank (chapters 3, 7, 19) -/

/-- One 64-byte history record (R317, Table 19-6). BOOTS, TIME and the CRC are kept or computed as the record is read. -/
structure HistRec where
  type : Nat
  unit : Nat
  boots : Nat
  fromState : Nat
  toState : Nat
  time : Nat
  seq : Nat
  detail : Nat
  deriving DecidableEq, Repr

/-- The 32-byte summary of one unit (R317, Table 19-8), and when it last entered SERVING (R309). -/
structure UnitSum where
  /-- 0 SERVING, 1 CLEARING, 2 FENCED, 3 REGROWING (R297). -/
  state : Nat := 0
  retired : Bool := false
  inSurvey : Bool := false
  strikes : Nat := 0
  fences : Nat := 0
  cause : Nat := 0
  changeBoots : Nat := 0
  anchorBoots : Nat := 0
  changeAt : Nat := 0
  anchorAt : Nat := 0
  /-- The last return: device time and cold-start value, and whether there was one. -/
  returnAt : Nat := 0
  returnBoots : Nat := 0
  returned : Bool := false
  deriving DecidableEq, Repr

/-- What training leaves in Seedbank for cached training (R103, R107). -/
structure TrainData where
  density : Nat
  ranks : Nat
  deriving DecidableEq, Repr

/-- A journal entry of Seedbank (R50, R52): the RWP values of one commit by parameter key, and whether it also holds the default of
every RWP parameter that it does not list. -/
structure JEntry where
  values : Sparse Nat
  defaults : Bool := false
  deriving DecidableEq, Repr

/-- The non-volatile store, mirrored between D0 and D3. -/
structure Seedbank where
  /-- Copies in service. -/
  copyOk : List Bool := [true, true]
  /-- Whether the next journal write succeeds. -/
  writable : Bool := true
  /-- The journal of RWP values, newest entry first (R50, R51). -/
  journal : List JEntry := []
  /-- The history log, newest first, at most 8,192 records (R317), and SEQ of the next record. -/
  hist : List HistRec := []
  histNext : Nat := 1
  /-- Unit summaries by UNIT number. -/
  units : Sparse UnitSum := []
  /-- MIN_SVN for BOOT, PATCH, SURVEY and KEY (R116). -/
  minSvn : List Nat := [0, 0, 0, 0]
  operatorKeyHash : BitVec 384 := 0
  /-- SHA-384 of the stored boot image (R108). -/
  imageDigest : BitVec 384 := 0
  coldStarts : Nat := 0
  training : Option TrainData := none
  /-- CLASS_BSEQ by class (R349). -/
  bseq : Sparse Nat := []
  /-- Incarnation of the device on the fabric: one more at every start-up and warm reset, never 0 (R277). -/
  incarnation : BitVec 16 := 0
  deriving DecidableEq, Repr

/-! ## Trailhead (chapter 8) -/

/-- An entry of a partition's handle table (R132, Table 8-5). At reset every entry is not VALID with GEN = 1. -/
structure HEntry where
  base : Nat := 0
  length : Nat := 0
  gen : Nat := 1
  kind : Nat := 0
  rights : Nat := 0
  valid : Bool := false
  object : Nat := 0
  deriving DecidableEq, Repr

/-- A submission ring (R123–R126): what RING_CFG held when it was enabled, and its counters. -/
structure Ring where
  part : Nat := 0
  loc : Nat := 0
  sqBase : Nat := 0
  cqBase : Nat := 0
  cswAddr : Nat := 0
  log2 : Nat := 6
  port : Nat := 0
  fn : Nat := 0
  remoteOk : Bool := false
  isLocal : Bool := false
  source : Nat := 0
  cls : Nat := 0
  sqHead : BitVec 32 := 0
  sqTail : BitVec 32 := 0
  cqTail : BitVec 32 := 0
  cqHead : BitVec 32 := 0
  nextSeq : BitVec 64 := 0
  csw : BitVec 64 := 0
  /-- 0 OFF, 1 RUNNING, 2 DRAINING, 3 STOPPED (Table 8-2). -/
  state : Nat := 0
  err : Nat := 0
  /-- A stop record that waits for a CQ slot: status and SEQ (R136). -/
  stopRec : Option (Nat × BitVec 64) := none
  /-- Sequence numbers whose record is written and that the CSW does not cover yet. -/
  written : List (BitVec 64) := []
  /-- The sequence number that REMOTE_SUBMIT stamps next (R140). -/
  appendSeq : BitVec 64 := 0
  deriving DecidableEq, Repr

/-- A handle field after relocation (R134): its byte offset in the command, the handle's index, the entry found, and for a TABLE the
descriptor it saw (R211). -/
structure Reloc where
  off : Nat
  index : Nat
  entry : HEntry
  desc : Nat := 0
  deriving DecidableEq, Repr

/-- The outcome of a command: status, AUX and the record flags RERUN, STALE_IGNORED, RESENT (Table 8-6). -/
structure CmdResult where
  status : Nat
  aux : Nat
  flags : Nat := 0
  deriving DecidableEq, Repr

/-- A command that the Trailhead has fetched and whose record is not written (R129, R135). -/
structure Cmd where
  ring : Nat
  seq : BitVec 64
  entry : BitVec 512
  part : Nat
  /-- A DUPLICATE entry (R141): executed by nobody. -/
  dup : Bool := false
  /-- Steps 4 and 5 of R135 have been decided. -/
  decided : Bool := false
  /-- Relocations, decided or held in the decode shadow (R137). -/
  relocs : Option (List Reloc) := none
  /-- A failure found by run-ahead that is not reported yet (R137). -/
  shadowErr : Option CmdResult := none
  begun : Bool := false
  /-- Outcome, waiting for its record. -/
  result : Option CmdResult := none
  /-- Device time at its fetch, and its place in fetch order (R144, R147, R154). -/
  fetchDev : Nat := 0
  order : Nat := 0
  /-- Clock of its arrival and its contract class (R321, R322). -/
  arrival : Nat := 0
  cls : Nat := 0
  resent : Bool := false
  rerun : Bool := false
  /-- Listed while a model switch of its partition was in LOAD, or in the first list after a flip (R323). -/
  switched : Bool := false
  /-- Issued to the fabric (R142). -/
  overFabric : Bool := false
  deriving DecidableEq, Repr

/-- Entries made fetchable by one doorbell or append: how many, the clock and the second of device time (R321, R323). -/
structure Arrived where
  count : Nat
  clock : Nat
  second : Nat
  deriving DecidableEq, Repr

/-- The command front end. -/
structure Trailhead where
  rings : Sparse Ring := []
  /-- Handle entries by 2²⁰ × partition + INDEX. -/
  handles : Sparse HEntry := []
  /-- How often a change of PART_MEM has cleared a partition's whole table since it was initialised (R287): an entry that is not listed is not
  VALID, with its GEN advanced from 1 as many times. -/
  clears : Sparse Nat := []
  /-- Fetched commands without a record, in fetch order. -/
  cmds : List Cmd := []
  dbDropped : Nat := 0
  duplicates : Nat := 0
  e2eResends : Nat := 0
  /-- The doorbells that made unfetched entries fetchable, by ring, oldest first. -/
  doorbells : Sparse (List Arrived) := []
  /-- Fetching is stopped by a reset or sleep entry in progress. -/
  halted : Bool := false
  deriving DecidableEq, Repr

/-! ## Stands, models and step lists (chapter 9) -/

/-- A stand that is not FREE (R143, Table 9-1). -/
structure Stand where
  /-- 1 ACTIVE, 2 PARKED, 3 RETIRING. -/
  state : Nat
  part : Nat
  stepPending : Bool := false
  listed : Bool := false
  parkReq : Bool := false
  closeReq : Bool := false
  model : Nat
  stateBuf : Nat := 0
  budget : Nat := 0
  ring : Nat := 0
  stepSeq : BitVec 64 := 0
  deadline : Nat := 0
  steps : Nat := 0
  lastStep : Nat := 0
  /-- Fetch order of the pending step and the clock since which it is ready. -/
  order : Nat := 0
  readyAt : Nat := 0
  listedAt : Nat := 0
  deriving DecidableEq, Repr

/-- A MODEL_SWITCH that has not completed (R151). -/
structure Switch where
  part : Nat
  ring : Nat
  seq : BitVec 64
  new : Nat
  /-- None for a preload. -/
  old : Option Nat
  /-- LOAD is still running. -/
  loading : Bool
  /-- Slot region, source and length of the load. -/
  dst : Nat
  src : Nat
  len : Nat
  hostSrc : Bool
  deriving DecidableEq, Repr

/-- The step list a partition runs (R147). -/
structure StepList where
  stands : List Nat
  model : Nat
  startedAt : Nat
  key : Nat
  deriving DecidableEq, Repr

/-- Stands and the stand scheduler. -/
structure StandTable where
  /-- Stands by device stand number; a FREE stand is not listed. -/
  stands : Sparse Stand := []
  /-- Model slots by 16 × partition + slot: 0 EMPTY, 1 LOADING, 2 RESIDENT. -/
  slots : Sparse Nat := []
  switches : List Switch := []
  lists : Sparse StepList := []
  /-- Steps fetched so far, for fetch order. -/
  fetched : Nat := 0
  stepLists : Sparse Nat := []
  lateSteps : Sparse Nat := []
  /-- LAST_LIST by partition: stands and duration in µs. -/
  lastList : Sparse (Nat × Nat) := []
  /-- Partitions whose next list is the first after a flip (R323). -/
  flipped : List Nat := []
  /-- Partitions whose list has ended and whose step boundary is due (R147). -/
  due : List Nat := []
  /-- Share of the memory engines of each partition with gathers outstanding, in parts of 1,000, in this 100 µs window (R149). -/
  shares : Sparse Nat := []
  deriving DecidableEq, Repr

/-! ## Rootwork (chapter 10) -/

/-- Where a token stands with its confirmation (R160, R301). -/
inductive TokSt where
  | confirmed
  | prov (ticket : Nat)
  /-- Retracted: its corrected token has not landed. -/
  | retracted (ticket : Nat)
  deriving DecidableEq, Repr

/-- A token (R155): 16 bytes, its producing node, firing and output place, and its provisional tag. -/
structure Token where
  data : BitVec 128
  node : Nat
  firing : Nat
  out : Nat
  st : TokSt := .confirmed
  /-- HELD (R182). -/
  held : Bool := false
  /-- The grove that produced it, when one grove did. -/
  grove : Option Nat := none
  /-- Source device of a token received under R281. -/
  src : Option Nat := none
  deriving DecidableEq, Repr

/-- A node entry as the instance copied it (Table 10-2). -/
structure NodeEnt where
  kind : Nat
  nin : Nat
  nout : Nat
  provOk : Bool
  checked : Bool
  remote : Bool
  width : Nat
  dieMask : Nat
  entry : Nat
  firings : Nat
  inQ : List Nat
  outQ : List Nat
  operand : Nat
  opOff : Nat
  opLen : Nat
  deriving DecidableEq, Repr

/-- Where a task of a firing is (R157). -/
inductive TaskPlace where
  | ready (die : Nat)
  | queued (grove : Nat)
  | core (core : Nat)
  | engine (die : Nat)
  | slice (die : Nat)
  | retired
  deriving DecidableEq, Repr

/-- A write held back for a shadowed task (Table 11-8): a store with its byte mask, or an atomic without a return value. -/
inductive Redo where
  | store (addr : Nat) (bytes : List Byte)
  | atom (code addr operand : Nat)
  deriving DecidableEq, Repr

/-- An undo entry (Table 11-8): a line of the grove store and its 64 bytes before the task first stored to it. -/
structure UndoEnt where
  line : Nat
  old : List Byte
  /-- Its place in the order of all shadowed effects. -/
  seq : Nat
  /-- A task that may run at the same time has stored to the line too: its content after an undo is undefined (R168). -/
  mixed : Bool := false
  deriving DecidableEq, Repr

/-- A drain that counts for PEAK (R206): |y ÷ E| as FP32 bits, and the OFMT whose largest finite value it is a fraction of. -/
structure Peak where
  bits : Nat
  ofmt : Nat
  deriving DecidableEq, Repr

/-- One task of a firing. -/
structure Task where
  place : TaskPlace
  /-- The grove it runs or ran on. -/
  grove : Nat := 0
  /-- Returned from the queue of a grove that leaves: ahead of every other task of its instance (chapter 10, crossings). -/
  ahead : Bool := false
  shadowed : Bool := false
  released : Bool := false
  /-- Undo entries, newest first. -/
  undo : List UndoEnt := []
  /-- Redo entries, newest first, each with its place in the order of all shadowed effects. -/
  redo : List (Nat × Redo) := []
  /-- Every drain has passed its tests so far (R298). -/
  sound : Bool := true
  drained : Bool := false
  /-- The checker's result: delivered, and passed. -/
  checked : Option Bool := none
  /-- Layers it has tripped on (R206), and whether it executed a RERUN-layer word (R208). -/
  tripped : List Nat := []
  rerunWord : Bool := false
  /-- The widest SFMT of its words that name each RERUN layer (R208). -/
  rerunFmt : Sparse Nat := []
  /-- While it is shadowed, its drains of a step list by layer: they count for PEAK at its release (R10, R206). -/
  peaks : Sparse Peak := []
  /-- A program exception held back (R186): cause and uPC. -/
  heldFault : Option (Nat × Nat) := none
  /-- Barriers arrived at (Table 11-5). -/
  arrived : List Nat := []
  /-- v24–v31 lanes 3:0 at its END. -/
  outs : List (BitVec 128) := []
  /-- Result of a THICKET task: rows pooled, dropped, EMPTY. -/
  pooled : Nat := 0
  dropped : Nat := 0
  empty : Bool := false
  deriving DecidableEq, Repr

/-- A firing: running, or retired and not yet released (R155, R183, R304). -/
structure Firing where
  num : Nat
  taken : List Token := []
  tasks : List Task := []
  /-- Every task has retired and the output tokens have been written. -/
  emitted : Bool := false
  /-- The slots of the tokens it took are freed. -/
  freed : Bool := false
  ticket : Option Nat := none
  /-- Groves on which a run failed its check, newest first, and the failures counted (R304–R306). -/
  failed : List Nat := []
  failures : Nat := 0
  /-- The grove a firing must run on (R182, PROV_FWD 0). -/
  pinned : Option Nat := none
  /-- ENTRY of the present run, and re-runs at wider entries so far (R208). -/
  entry : Nat := 0
  widened : Nat := 0
  ahead : Bool := false
  /-- Tripped RERUN layers that had no wider entry left: the results stand (R208). -/
  spent : List Nat := []
  /-- Counts for QSTATS of a firing on provisional inputs, as layer and 0 trip, 1 re-run, 2 exhausted: made once its inputs are confirmed (R10). -/
  qPend : List (Nat × Nat) := []
  /-- The undo of R184 is due, with its reason: 0 input retracted, 1 check failed, 2 trip, 3 trip and failed check. -/
  undoDue : Option Nat := none
  /-- Undone, and waiting for the corrected inputs or for placement. -/
  returned : Bool := false
  /-- The token of an input was retracted during this run. -/
  badInput : Bool := false
  deriving DecidableEq, Repr

/-- A node of an instance. -/
structure Node where
  ent : NodeEnt
  /-- Firings started, and firings whose tokens have been written. -/
  started : Nat := 0
  fired : Nat := 0
  firings : List Firing := []
  /-- The queue on whose refusal list it stands (R158). -/
  refusedOn : Option Nat := none
  /-- The operand as relocated at admission (R153), and the descriptor of a TABLE operand. -/
  operand : Option HEntry := none
  desc : Nat := 0
  /-- Clock of its admission or of the end of its last firing: a wait of the node runs from here (Table 10-5). -/
  since : Nat := 0
  deriving DecidableEq, Repr

/-- A queue of an instance. -/
structure Queue where
  depth : Nat
  producer : Nat
  consumer : Nat
  /-- Slots occupied: from the producer's reservation until the consumer's firing retires (R155). -/
  occupied : Nat := 0
  tokens : List Token := []
  /-- Emitted and not landed. -/
  flight : List Token := []
  deriving DecidableEq, Repr

/-- What an instance runs for (R154). -/
inductive InsFor where
  | run (ring : Nat) (seq : BitVec 64)
  | list (part : Nat)
  deriving DecidableEq, Repr

/-- An instance (R154). -/
structure Inst where
  part : Nat
  owner : InsFor
  tag : Nat := 0
  key : Nat := 0
  deadline : Nat := 0
  order : Nat := 0
  args : List Byte := []
  /-- Device address of the argument block. -/
  argAddr : Nat := 0
  nodes : List Node := []
  queues : List Queue := []
  /-- QLAYER and CHECK_CFG as snapshotted (R205, R298): layers 0–63. -/
  layers : List Nat := []
  checks : List Nat := []
  refusals : Nat := 0
  /-- Tokens sent to other devices and not acknowledged (R156). -/
  remote : Nat := 0
  rerun : Bool := false
  deriving DecidableEq, Repr

/-- A GRAPH_RUN that has passed its checks and waits for an instance, or a list handed over (R147, R154). -/
structure Request where
  part : Nat
  owner : InsFor
  graph : HEntry
  args : List Byte := []
  waitset : Nat := 0
  /-- Device address and length of ARGS in a BUFFER, read at admission. -/
  argSrc : Option (Nat × Nat) := none
  /-- Layer table and CHECK_CFG as snapshotted for a step list. -/
  layers : List Nat := []
  checks : List Nat := []
  deadline : Nat := 0
  key : Nat := 0
  /-- Place of the GRAPH_RUN in fetch order across the device (R154). -/
  order : Nat := 0
  deriving DecidableEq, Repr

/-- The fabric side of a token staged for an INPUT node (R159). -/
structure StagedTok where
  die : Nat
  part : Nat
  key : Nat
  node : Nat
  data : BitVec 128
  src : Nat
  st : TokSt := .confirmed
  deriving DecidableEq, Repr

/-- A task in a grove's ready queue, and the clock since which it waits. -/
structure QTask where
  ins : Nat
  node : Nat
  firing : Nat
  task : Nat
  since : Nat
  deriving DecidableEq, Repr

/-- The dataflow dispatcher. -/
structure Rootwork where
  insts : Sparse Inst := []
  requests : List Request := []
  admitted : Nat := 0
  /-- Task queues of the groves, oldest first. -/
  queues : Sparse (List QTask) := []
  staging : List StagedTok := []
  /-- RW_STATS by 4 × partition + place (deadlocks, WAITSETS_LOST, refusals at 1–3). -/
  stats : Sparse Nat := []
  /-- WAITSET handle of each GRAPH_RUN instance. -/
  waitsets : Sparse Nat := []
  /-- Tasks counted in QUEUE_WAIT, and the sum of their waits in µs, by 2 × partition + place. -/
  queueWait : Sparse Nat := []
  deriving DecidableEq, Repr

/-! ## Groves, cores and control stores (chapters 11–13) -/

/-- A row of a matrix panel (R201). -/
structure Panel where
  fmt : Nat
  bytes : List Byte
  /-- The layer whose effective scale is the row scale R. -/
  layer : Nat
  deriving DecidableEq, Repr

/-- The matrix block of a core (R197, R201–R204), with the checker's sums (R298). Keyed by 64 × row + 8 × block + column, by
8 × row + column, by row, or by 8 × row + block. -/
structure Matrix where
  panels : Sparse Panel := []
  acc : Sparse (BitVec 32) := []
  part : Sparse (BitVec 32) := []
  pend : Sparse Nat := []
  kp : Sparse Nat := []
  /-- The scale slice in use by row, and the rows whose next iteration is a data iteration after it. -/
  slice : Sparse (BitVec 256) := []
  sliceDone : List Nat := []
  q : Sparse (BitVec 32) := []
  m : Sparse (BitVec 32) := []
  qPart : Sparse (BitVec 32) := []
  mPart : Sparse (BitVec 32) := []
  deriving DecidableEq, Repr

/-- A contribution that waits for the other participants of a VSCANX (R195). -/
structure ScanWait where
  fmt : Nat
  mod : Nat
  value : Nat
  vd : Nat
  vb : Nat
  /-- Registered by a whole word, which then goes on. -/
  word : Bool
  deriving DecidableEq, Repr

/-- A core (R166, R170). A core that runs no task is not listed: its registers are those of `{}`, all zero; every task starts with the
registers of R170 (DESIGN CHOICE: log entry 9). -/
structure Core where
  ins : Nat := 0
  node : Nat := 0
  firing : Nat := 0
  task : Nat := 0
  s : List (BitVec 32) := List.replicate 32 0
  a : List (BitVec 48) := List.replicate 4 0
  v : List (BitVec 256) := List.replicate 32 0
  k : List (BitVec 32) := List.replicate 8 0
  lc : BitVec 16 := 0
  /-- Return addresses, newest first: in the patch RAM or in the control store. -/
  stack : List (Bool × Nat) := []
  upc : Nat := 0
  inPatch : Bool := false
  z : Bool := false
  n : Bool := false
  carry : Nat := 0
  mat : Matrix := {}
  scan : Option ScanWait := none
  /-- What VSCANX delivered to the present word: the values of vD and vB. -/
  scanOut : Option (BitVec 256 × BitVec 256) := none
  /-- The present word waits for room in the shadow, and the wait is counted. -/
  waiting : Bool := false
  /-- Iterations of the present word that have executed. -/
  iter : Nat := 0
  /-- Saturation events by layer (R206). -/
  sat : Sparse Nat := []
  /-- Scratch lines that its task has stored to (R168). -/
  lines : List Nat := []
  deriving DecidableEq, Repr

/-- A grove's store, flags and sequencer (R166–R168, R174). -/
structure Grove where
  /-- Scratch by grove-local address; an unlisted byte is 0, or open when `fill` is set. -/
  store : Sparse Byte := []
  fill : Option Nat := none
  flags : BitVec 16 := 0
  deriving DecidableEq, Repr

/-- One kind of control store and the patch set applied to it (R169, R177, R179). -/
structure PatchSet where
  id : Nat := 0
  /-- Patch RAM words by address, and MATCH and PRAM by match register. -/
  words : Sparse (BitVec 256) := []
  regs : Sparse (Nat × Nat) := []
  deriving DecidableEq, Repr

/-- The microcode of the device. -/
structure Micro where
  /-- Control stores by kind: 0 grove, 1 Thicket, 2 memory. -/
  stores : List (Sparse (BitVec 256)) := [[], [], []]
  /-- SHA-384 of each loaded store. -/
  digests : List (BitVec 384) := [0, 0, 0]
  /-- The patch set in force on sequencers that have switched, and the sets that those still to switch run under, by kind (R179). -/
  patch : List PatchSet := [{}, {}, {}]
  former : List (List (PatchSet × List Nat)) := [[], [], []]
  /-- Sequencers still to switch, by kind. -/
  switching : List (List Nat) := [[], [], []]
  /-- The PATCH container kept in the image region (R180). -/
  kept : List Byte := []
  lastRule : Nat := 0
  deriving DecidableEq, Repr

/-- Statistics of a partition's quantisation layer (R206–R208) and what the present list has drained. -/
structure QStat where
  trips : Nat := 0
  reruns : Nat := 0
  exhausted : Nat := 0
  adaptLimit : Nat := 0
  /-- A trip since the last boundary; PEAK of the present list, when it has drained the layer; lists in the window. -/
  tripNow : Bool := false
  peak : Option Peak := none
  window : Nat := 0
  deriving DecidableEq, Repr

/-- Groves, cores and microcode. -/
structure Cores where
  groves : Sparse Grove := []
  /-- The loss that left the store of every grove not listed undefined (R168). -/
  lost : Option Nat := some 0
  cores : Sparse Core := []
  micro : Micro := {}
  /-- GROVE_SPLIT in force by partition, where it differs from the committed value (R167). -/
  split : Sparse Nat := []
  /-- SPEC_STATS by 4 × partition + place, and MICRO_FAULTS by partition. -/
  spec : Sparse Nat := []
  microFaults : Sparse Nat := []
  /-- QSTATS by 64 × partition + layer. -/
  qstat : Sparse QStat := []
  /-- Shadowed effects so far: the next one's place in their order (R184). -/
  shadowSeq : Nat := 0
  deriving DecidableEq, Repr

/-! ## Counters and Tracks (chapter 21) -/

/-- Counters of a grove or of a die (R336): 8 programmable, OVF bits, and the 4 fixed of a grove. -/
structure Counters where
  pc : List Nat := List.replicate 8 0
  ovf : Nat := 0
  fixed : List Nat := List.replicate 4 0
  deriving DecidableEq, Repr

/-- The Tracks buffer of a die (R342). -/
structure TrackBuf where
  wp : Nat := 0
  base : Nat := 0
  mark : Nat := 0
  missed : Nat := 0
  full : Bool := false
  /-- Entries written last, newest first: number, partition and the 32 bytes. -/
  entries : List (Nat × Nat × Nat) := []
  deriving DecidableEq, Repr

/-- Counters and samples. -/
structure Tracks where
  grove : Sparse Counters := []
  die : Sparse Counters := []
  /-- Engine counters by 4 × (4,096 × kind + index) + place. -/
  engine : Sparse Nat := []
  /-- CARRY by 12 × partition + counter. -/
  carry : Sparse Nat := []
  bufs : Sparse TrackBuf := []
  /-- Groves whose next eligible iteration is tagged, and samples that wait to be written. -/
  armed : List Nat := []
  tagged : Sparse (Nat × Nat) := []
  deriving DecidableEq, Repr

/-! ## Thicket (chapter 14) -/

/-- A hot row (R220): its partition, table slot, row number and copy. -/
structure HotRow where
  part : Nat
  slot : Nat
  row : Nat
  bytes : List Byte
  poisoned : Bool := false
  deriving DecidableEq, Repr

/-- A prefetch entry (R223, R224). -/
structure PfEntry where
  part : Nat
  slot : Nat
  row : Nat
  bytes : List Byte
  /-- Number of the fill. -/
  id : Nat := 0
  /-- A gather read was served from it; a step list used it. -/
  used : Bool := false
  listed : Bool := false
  /-- Step boundaries of the partition since the fill. -/
  boundaries : Nat := 0
  /-- AUX of the MEMORY_ERROR that a read of poison gave: the entry holds the poison. -/
  poison : Option Nat := none
  deriving DecidableEq, Repr

/-- A sequencer that runs paced words (R172, R175): where it stands, in its control store or in its patch RAM, its loop counter and
return stack, and whether it runs: a word with NEXT = END stops it. -/
structure Paced where
  upc : Nat := 0
  inPatch : Bool := false
  lc : BitVec 16 := 0
  stack : List (Bool × Nat) := []
  running : Bool := false
  deriving DecidableEq, Repr

/-- The datapath of one Thicket engine as its words see it (R225, Table 14-5). -/
structure ThkEngine where
  /-- e0–e7: device addresses. -/
  eregs : List (BitVec 48) := List.replicate 8 0
  /-- Indices waiting, oldest first. -/
  idxQueue : List (BitVec 32) := []
  /-- Lanes of the row line read last, and whether one is there. -/
  rowLine : List (BitVec 32) := []
  lineReady : Bool := false
  /-- Accumulator lines of 16 FP32 lanes by number, 0–8,191. -/
  acc : Sparse (List (BitVec 32)) := []
  z : Bool := false
  /-- The result of the last tag lookup. -/
  hotHit : Bool := false
  seq : Paced := {}
  deriving DecidableEq, Repr

/-- The embedding engines, the hot set and the prefetch buffers. -/
structure Thicket where
  engines : Sparse ThkEngine := []
  /-- Hot rows by device address of the row. -/
  hot : Sparse HotRow := []
  /-- Prefetch entries by device address of the row. -/
  prefetch : Sparse PfEntry := []
  /-- TABLE_STATS by 1,024 × partition + 4 × slot + place. -/
  tableStats : Sparse Nat := []
  /-- PF_STATS by 4 × partition + place. -/
  pfStats : Sparse Nat := []
  hotFull : Sparse Nat := []
  /-- Number of the next prefetch fill. -/
  nextFill : Nat := 0
  deriving DecidableEq, Repr

/-! ## The LPDDR5X array and the Canopy (chapter 15) -/

/-- The LPDDR5X array as one address space, with what is in force since the last stage 6. -/
structure Mem where
  /-- Density of each package in GiB and ranks per channel, found at training; 0 before stage 6. -/
  density : Nat := 0
  ranks : Nat := 1
  /-- INLINE_ECC and MEM_SPEED in force. -/
  eccOn : Bool := true
  speed : Nat := 3
  /-- Bytes by device address; an unlisted byte reads 0. -/
  bytes : Sparse Byte := []
  /-- Poisoned lines, by address / 64, with the source: 0 LPDDR, 1 Canopy SRAM (R248). -/
  poison : Sparse Nat := []
  /-- Ports whose every line was written poisoned at a return (R312), with the lines written since. -/
  poisonPorts : Sparse (List Nat) := []
  /-- POISONED. -/
  poisoned : Nat := 0
  /-- Errors that the LPDDR cells of a line hold and no read has found yet (R248). -/
  latent : Sparse Ecc := []
  deriving DecidableEq, Repr

/-- State of a copy in a grove-store cache (R235); EV sits in the eviction buffer. -/
inductive CopyState where
  | shared | exclusive | modified | evicting
  deriving DecidableEq, Repr

/-- A grove's copy of a line. -/
structure GCopy where
  st : CopyState
  data : List Byte
  /-- An EV line that was M: its eviction carries data. -/
  dirty : Bool := false
  deriving DecidableEq, Repr

/-- The directory states of a slice line (R235). -/
inductive DirState where
  | u
  | sh (groups : Nat)
  | ow (g : Nat)
  deriving DecidableEq, Repr

/-- A line present in the slice: its directory entry and whether it is dirty. -/
structure CLine where
  dir : DirState := .u
  dirty : Bool := false
  /-- Number of its last use, for the replacement within its set (R234). -/
  used : Nat := 0
  deriving DecidableEq, Repr

/-- The messages of Table 15-2 and the answers of the home. -/
inductive DMsg where
  | rdS | rdX | upg | evictD | evictC | snpSh | snpInv | evictingA | evictAck | rspD | rspS | rspI | dataE | dataS | dataX | upgAck
  deriving DecidableEq, Repr

/-- A message in flight: line / 64, grove, kind, data where it carries them. -/
structure Flight where
  msg : DMsg
  g : Nat
  line : Nat
  data : List Byte := []
  deriving DecidableEq, Repr

/-- The transaction the home has open on a line (R235, R237). -/
structure HomeTxn where
  req : DMsg
  g : Nat
  /-- Groves whose snoop answer is awaited. -/
  waiting : List Nat
  /-- Groves that answered EVICTING and whose eviction message has not arrived, and evictions that arrived first. -/
  evWait : List Nat := []
  evHave : List Nat := []
  /-- Groves to send EVICT_ACK to when the requester is served. -/
  acks : List Nat := []
  deriving DecidableEq, Repr

/-- Slices, directory and Canopy statistics. -/
structure Canopy where
  /-- Lines present in the slices, by address / 64, and the number of the last use of one. -/
  lines : Sparse CLine := []
  uses : Nat := 0
  /-- Copies in grove caches, by 512 × line + grove. -/
  copies : Sparse GCopy := []
  flights : List Flight := []
  homes : Sparse HomeTxn := []
  /-- Requests queued at the home, in order of arrival. -/
  queue : List (DMsg × Nat × Nat) := []
  /-- DIR_STATS: snoops, crossings, back-invalidations, atomics and reductions. -/
  snoops : Nat := 0
  crossings : Nat := 0
  backInv : Nat := 0
  atomics : Nat := 0
  /-- Banks removed from each slice: by unit index 50 × die + bank, in order of removal (R229). -/
  removed : List Nat := []
  /-- Banks active by die: the 48 of the bank map in force. -/
  active : Sparse (List Nat) := []
  /-- Banks that wait for a directory epoch flip (R313). -/
  flipWait : List Nat := []
  /-- Corrected and uncorrectable errors by die, and corrected errors by bank in the present hour. -/
  corrected : Sparse Nat := []
  uncorrected : Sparse Nat := []
  bankHour : Sparse (Nat × Nat) := []
  /-- HOT_REGION in force, MiB per die. -/
  hotRegion : Nat := 0
  /-- The slices are in the layout of Table 15-1 (R228). -/
  laidOut : Bool := false
  deriving DecidableEq, Repr

/-- One memory port: its JESD209-5C side and its error counts (R242–R249). -/
structure MPort where
  /-- Open row by bank: 32 × channel + 16 × rank + bank. -/
  openRow : Sparse Nat := []
  /-- Channels in self-refresh and in power-down, 2 × channel + rank. -/
  selfRefresh : List Nat := []
  powerDown : List Nat := []
  wckSynced : List Nat := []
  /-- Mode registers by 256 × (2 × channel + rank) + address. -/
  modeRegs : Sparse Nat := []
  /-- Activations by bank since the last RFM, refresh count, and the data of the last read. -/
  activations : Sparse Nat := []
  refreshed : Nat := 0
  /-- Clock of the last refresh. -/
  refreshedAt : Nat := 0
  readData : Line := 0
  fifo : List Line := []
  /-- Lines written by the sequencer, by ((2 × channel + rank) × 16 + bank) × 2²⁴ + 64 × row + column. -/
  cells : Sparse Line := []
  /-- Refresh report and RFM threshold (0: not required). -/
  refreshRate : Nat := 0
  rfmAt : Nat := 0
  /-- Drift of the WCK2DQ oscillators in percent of a unit interval, by channel (R244). -/
  drift : Sparse Nat := []
  zqLatched : Bool := false
  lastMpc : Nat := 0
  /-- Memory sequencer condition Z (POLL). -/
  z : Bool := false
  corrected : Nat := 0
  uncorrected : Nat := 0
  lastUe : Nat := 0
  seq : Paced := {}
  deriving DecidableEq, Repr

/-! ## Row updates (chapter 16) -/

/-- States of a staging entry that is not FREE (Table 16-1). -/
inductive StageState where
  | filling | committed | writing | superseded | releasing
  deriving DecidableEq, Repr

/-- A staging entry (R253). -/
structure Staged where
  id : Nat
  part : Nat
  slot : Nat
  row : Nat
  /-- Device address and length of the row. -/
  addr : Nat
  gen : Nat
  bytes : List Byte
  state : StageState
  /-- Epoch tag, and reader references. -/
  tag : Nat := 0
  refs : Nat := 0
  ring : Nat
  seq : BitVec 64
  /-- The line, counted from its first, in which an uncorrectable error fell. -/
  bad : Option Nat := none
  deriving DecidableEq, Repr

/-- A row update that waits for a descriptor (R253). -/
structure StageWait where
  ring : Nat
  seq : BitVec 64
  part : Nat
  slot : Nat
  row : Nat
  addr : Nat
  gen : Nat
  /-- STRIDE of the table. -/
  len : Nat
  /-- Fetch order of its command. -/
  order : Nat
  deriving DecidableEq, Repr

/-- Where a row read in flight is served from (R255). -/
inductive RowSource where
  | staged (id : Nat)
  | prefetch (fill : Nat)
  | epoch (e : Nat)
  deriving DecidableEq, Repr

/-- A Thicket row read in flight: home die and source. -/
structure RowRead where
  id : Nat
  die : Nat
  src : RowSource
  /-- Bytes of the row, the version chosen, and the AUX of the MEMORY_ERROR that it gives if it is poisoned. -/
  len : Nat
  bytes : List Byte
  poison : Option Nat := none
  deriving DecidableEq, Repr

/-- Staging and epochs. -/
structure LiveRows where
  staged : List Staged := []
  nextId : Nat := 0
  waiting : List StageWait := []
  /-- Current epoch of each die. -/
  epoch : List Nat := [0, 0, 0, 0, 0, 0]
  /-- Epoch counters by 8 × die + epoch. -/
  readers : Sparse Nat := []
  stalls : Nat := 0
  /-- LR_STATS by 6 × partition + place. -/
  stats : Sparse Nat := []
  reads : List RowRead := []
  nextRead : Nat := 0
  deriving DecidableEq, Repr

/-! ## The Glala fabric (chapter 17) -/

/-- What a fabric operation was issued for. -/
inductive OpFor where
  | cmd (ring : Nat) (seq : BitVec 64)
  /-- A token of a remote OUTPUT node: instance, node, token number. -/
  | token (ins node : Nat)
  /-- A COPY task: instance, node, firing, local address of READ data, bytes of the whole copy. -/
  | copy (ins node firing local_ total : Nat)
  | relay
  /-- CONFIRM, RETRACT or a correction for tickets of this device. -/
  | ticket (tickets : List Nat)
  | correction (ticket out : Nat)
  | other
  deriving DecidableEq, Repr

/-- An operation of this device that has no ANSWER yet (R142, R275). -/
structure OutOp where
  dest : Nat
  oseq : BitVec 64
  opc : Nat
  part : Nat
  arg : Nat
  ticket : Nat := 0
  prov : Bool := false
  data : List Byte
  owner : OpFor
  resent : Bool := false
  /-- LINK_LOSTs and timer expiries it has met (R142). -/
  lost : Nat := 0
  expired : Nat := 0
  /-- A TOKEN that found staging full waits to be sent again (R279). -/
  parked : Bool := false
  /-- Waits for the PROBE of its destination, for room among the 1,024 unanswered, or for the answer. -/
  sent : Bool := false
  deriving DecidableEq, Repr

/-- A destination this device sends to (R275, R277). -/
structure Peer where
  next : BitVec 64 := 1
  inc : Option (BitVec 16) := none
  deriving DecidableEq, Repr

/-- What a dedup window holds of one operation (R278). -/
inductive Dedup where
  | running
  | answered (status value : Nat)
  deriving DecidableEq, Repr

/-- The dedup window of a source (R278). -/
structure Window where
  inc : BitVec 16
  high : Nat := 0
  seen : Sparse Dedup := []
  deriving DecidableEq, Repr

/-- An operation of which flits are missing (R272, R275). -/
structure Assembly where
  src : Nat
  vc : Nat
  oseq : BitVec 64
  nflits : Nat
  got : Nat
  prov : Bool
  ticket : Nat
  bytes : List Byte
  deriving DecidableEq, Repr

/-- A DISC message or a TIME sent on a port (R269, R270, R283). A source-routed operation carries the ports still to follow, the arrival
ports recorded, the manager's serial, its sequence number and its data; the answer to one, the ports still to follow, a status and a value. -/
inductive FabMsg where
  | hello (port : Nat) (serial addr inc priority bestPriority bestSerial beacon : Nat)
  | beacon (port : Nat) (serial addr number hops : Nat)
  | time (port : Nat) (t : Nat)
  | disc (port : Nat) (route path : List Nat) (serial oseq : Nat) (data : List Byte)
  | discRsp (port : Nat) (path : List Nat) (oseq status : Nat) (value : List Byte)
  deriving DecidableEq, Repr

/-- A flit that waits in a transit queue: the port it came by (14: this device), its bits, and the clock of its arrival. -/
structure Transit where
  port : Nat
  flit : BitVec 1024
  at_ : Nat := 0
  deriving DecidableEq, Repr

/-- A flit on its way out: the sequence number of the operation of this device that it belongs to (0: none), its bits, and for DISC and TIME
the message that it carries. The payload of a DISC flit, which has no stated layout, is the open value of a draw. -/
structure LFlit where
  op : Nat
  flit : BitVec 1024
  msg : Option FabMsg := none
  draw : Nat := 0
  deriving DecidableEq, Repr

/-- A fabric port (R263–R267, Table 17-5). -/
structure FPort where
  /-- 0 OFF, 1 TRAINING, 2 UP, 3 DOWN, 4 FENCED. -/
  state : Nat := 0
  width : Nat := 0
  lanes : Nat := 0
  fails : Nat := 0
  replays : Nat := 0
  linkLost : Nat := 0
  corrected : Nat := 0
  uncorrectable : Nat := 0
  /-- Flits and operations discarded and counted (R265, R268, R271, R275). -/
  discarded : Nat := 0
  /-- LSEQ of the next flit, the highest acknowledged, the retry buffer oldest first, replays without progress. -/
  lseq : Nat := 0
  acked : Nat := 4095
  retry : List (Nat × LFlit) := []
  attempts : Nat := 0
  /-- ACKSEQ of the receiver, and a NAK to send. -/
  rxSeq : Nat := 4095
  nak : Bool := false
  /-- A flit with an LSEQ has been received and no flit has carried its ACKSEQ yet. -/
  ackDue : Bool := false
  /-- Credits held and credits to return, by virtual channel. -/
  credits : List Nat := [128, 128, 128, 128]
  owed : List Nat := [0, 0, 0, 0]
  /-- Flits of this device that wait for a credit or for room in the retry buffer. -/
  waiting : List LFlit := []
  /-- The operation each virtual channel is in the middle of: its source and the flits still to go (R266). -/
  busy : Sparse (Nat × Nat) := []
  /-- It has left UP and is usable again only from a ROUTE_FLIP after it has returned (R274). -/
  left : Bool := false
  transit : List Transit := []
  /-- Flits put on the link, newest first. -/
  sent : List (BitVec 1024) := []
  linkDelay : Nat := 0
  peerAddr : Nat := 0
  deriving DecidableEq, Repr

/-- A manager candidate (R269): priority and serial. -/
structure Candidate where
  priority : Nat
  serial : Nat
  deriving DecidableEq, Repr

/-- The fabric side of the device. -/
structure Fabric where
  /-- Active route epoch (R271, R273). -/
  epoch : Nat := 0
  /-- Ports usable under the tables in force (R274). -/
  usable : List Nat := []
  /-- Clock of the last flip. -/
  lastFlip : Option Nat := none
  ports : Sparse FPort := []
  out : List OutOp := []
  peers : Sparse Peer := []
  windows : Sparse Window := []
  assembly : List Assembly := []
  /-- What other devices have reported with ROUTE_NOTICE: source, port and state, newest first (R274). -/
  notices : List (Nat × Nat × Nat) := []
  /-- Sources that found token staging full. -/
  refusedTokens : List Nat := []
  /-- Operations discarded and counted: unknown codes and missing flits (R272, R275). -/
  discarded : Nat := 0
  msgs : List FabMsg := []
  /-- The candidates that the neighbours reported, by port. -/
  heard : Sparse Candidate := []
  manager : Option Candidate := none
  managerAddr : Nat := 0
  isManager : Bool := false
  beaconNo : Nat := 0
  /-- The beacon number forwarded last, by the serial of the manager that sent it. -/
  beacons : Sparse Nat := []
  /-- FR_RSP_HEAD (bytes 11:0), its state and FR_RSP_VALUE. -/
  rspHead : Nat := 0
  rspState : Nat := 0
  rspValue : Nat := 0
  /-- The first TIME of the present period has been forwarded: its value. -/
  lastTime : Nat := 0
  /-- FAB_STATS in the order of Table 17-5. -/
  stats : List Nat := List.replicate 8 0
  deriving DecidableEq, Repr

/-! ## Groves in service (chapters 6, 18) and Firebreak (chapter 19) -/

/-- A grove on its way into service (R98, R291). -/
inductive JoinStage where
  | powering | zeroing | waiting
  deriving DecidableEq, Repr

/-- Where groves stand between commits and step boundaries (R98, R290, R291). -/
structure GroveSets where
  /-- Groves that still serve a partition they were removed from or disabled in: grove to partition. -/
  leaving : Sparse Nat := []
  /-- Groves that have left a partition at its step boundary and finish the tasks they run: grove to partition. -/
  departing : Sparse Nat := []
  /-- Groves not yet admitted. -/
  joining : Sparse JoinStage := []
  /-- Power-gated groves. -/
  gated : List Nat := []
  deriving DecidableEq, Repr

/-- A live ticket (R301): where the firing that owns it came from. -/
structure Ticket where
  num : Nat
  part : Nat
  ins : Nat
  node : Nat
  /-- 0 unresolved, 1 confirmed, 2 retracted. -/
  resolved : Nat := 0
  deriving DecidableEq, Repr

/-- A destination of an off-device provisional token (R303). -/
structure ProvDest where
  dest : Nat
  /-- 0 not told of the resolution, 1 done, 2 asked for a resend before the resolution, 3 told. -/
  state : Nat := 0
  deriving DecidableEq, Repr

/-- An entry of the ticket store (R303): one off-device provisional token, as the TOKEN operation carries it, with the firing and output
that produced it while its instance exists. -/
structure ProvEntry where
  ticket : Nat
  part : Nat
  ins : Option Nat
  node : Nat
  firing : Nat
  out : Nat
  /-- ARG of the TOKEN (the INPUT node), the key, and the 16 bytes of the token. -/
  slot : Nat
  key : Nat
  token : BitVec 128
  dests : List ProvDest
  /-- 0 unresolved, 1 confirmed, 2 retracted, 3 retracted and corrected. -/
  resolved : Nat := 0
  deriving DecidableEq, Repr

/-- A provisional token received from another device, waiting for its CONFIRM (R281, R282). -/
structure ProvRx where
  src : Nat
  ticket : Nat
  part : Nat
  key : Nat
  slot : Nat
  since : Nat
  /-- 0 waiting, 1 window expired. -/
  state : Nat := 0
  deriving DecidableEq, Repr

/-- A survey round in progress (R316): units still to take and units out. -/
structure Round where
  todo : List Nat
  out : List Nat
  deriving DecidableEq, Repr

/-- Firebreak outside Seedbank. -/
structure Firebreak where
  ticketNext : Nat := 1
  tickets : List Ticket := []
  store : List ProvEntry := []
  provRx : List ProvRx := []
  /-- Survey set of each kind delivered since the last cold start: kind to section bytes (R315). -/
  surveys : Sparse (List Byte) := []
  round : Option Round := none
  /-- Rounds, units done, failed, skipped. -/
  rounds : Nat := 0
  unitsDone : Nat := 0
  unitsFailed : Nat := 0
  unitsSkipped : Nat := 0
  /-- Device time of the last round's start. -/
  roundAt : Nat := 0
  /-- FB_STATS by 8 × partition + place. -/
  stats : Sparse Nat := []
  /-- Units whose clearing was started by a hard cause. -/
  hardClearing : List Nat := []
  /-- A memory port that a UNIT_CMD return is bringing back through a warm reset (R312). -/
  returningPort : Option Nat := none
  deriving DecidableEq, Repr

/-! ## Time and Lookout (chapter 20) -/

/-- The record of one class in one second (R330, Table 20-2). -/
structure LkRec where
  cls : Nat
  part : Nat
  /-- Second number; START is the second in ns. -/
  second : Nat
  flags : Nat := 0
  tokens : Nat := 0
  arrivals : Nat := 0
  errors : Nat := 0
  rejected : Nat := 0
  aborted : Nat := 0
  reruns : Nat := 0
  switched : Nat := 0
  under : Nat := 0
  beyond : Nat := 0
  rate : Nat := 0
  max : Nat := 0
  sum : Nat := 0
  /-- P, T of the four targets in force and EXCEED. -/
  targets : List (Nat × Nat) := []
  exceed : List Nat := [0, 0, 0, 0]
  bins : Sparse Nat := []
  deriving DecidableEq, Repr

/-- A sealed batch in the ledger store (R332). -/
structure Batch where
  pos : Nat
  cls : Nat
  part : Nat
  bytes : List Byte
  deriving DecidableEq, Repr

/-- The ledger engine (R321–R335). -/
structure Lookout where
  /-- CLASS_CFG in force by class, as the 64-byte value; it changes at second boundaries (R324). -/
  cfg : Sparse Nat := []
  /-- Records of the second in progress by class. -/
  now : Sparse LkRec := []
  /-- Records of finished seconds of the open minute, newest first. -/
  minute : List LkRec := []
  /-- Records of finished minutes that wait for their seal. -/
  due : List LkRec := []
  /-- Classes that were enabled at any instant of the open minute. -/
  inMinute : List Nat := []
  /-- Class and minute number of the batches that wait for their seal. -/
  toSeal : List (Nat × Nat) := []
  store : List Batch := []
  writePtr : Nat := 0
  oldestPtr : Nat := 0
  sealed : Nat := 0
  overwritten : Nat := 0
  foreign : Nat := 0
  unmeasured : Nat := 0
  failoverSecs : Nat := 0
  quiet : Nat := 0
  /-- A takeover fell in the second in progress, or the second is not whole. -/
  failover : Bool := false
  /-- LOCKED has held since the start of the second in progress. -/
  lockedAll : Bool := false
  deriving DecidableEq, Repr

/-- The clocks of the block: nanoseconds since power, and device time (R328). -/
structure Time where
  /-- Nanoseconds the block has run; latencies and deadlines are measured on it. -/
  clock : Nat := 0
  /-- Device time in ns; it starts at 0 at each cold start. -/
  dev : Nat := 0
  /-- TIME_SRC in force; a change applies at the next whole second. -/
  src : Nat := 0
  /-- TIME_STATUS: LOCKED and LOST. -/
  locked : Bool := false
  lost : Bool := false
  /-- A TIME_SET that waits for the next PPS edge. -/
  setPending : Option Nat := none
  /-- Clock at the last PPS edge or fabric TIME. -/
  lastRef : Nat := 0
  /-- Time has been stepped in the second in progress (STEPPED). -/
  stepped : Bool := false
  deriving DecidableEq, Repr

/-! ## What DORMANT leaves without power (R103) -/

/-- The blocks that DORMANT leaves without power, as they stood when they lost it: a READ in DORMANT returns their last values (R103). -/
structure Asleep where
  root : Rootwork
  gr : Cores
  thk : Thicket
  rows : LiveRows
  canopy : Canopy
  ports : Sparse MPort
  fab : Fabric
  groves : GroveSets
  deriving DecidableEq, Repr

/-! ## The whole block -/

/-- The state of the block and the queue of commands that wait. The field default values are those of reset. -/
structure State where
  fuses : Fuses := {}
  pins : Pins := {}
  power : Power := {}
  boot : Boot := {}
  seed : Seedbank := {}
  dir : Dir := {}
  fieldBus : FieldBus := {}
  und : Understory := {}
  ev : Events := {}
  time : Time := {}
  groves : GroveSets := {}
  fb : Firebreak := {}
  trail : Trailhead := {}
  stands : StandTable := {}
  thk : Thicket := {}
  rows : LiveRows := {}
  mem : Mem := {}
  canopy : Canopy := {}
  ports : Sparse MPort := []
  fab : Fabric := {}
  look : Lookout := {}
  root : Rootwork := {}
  gr : Cores := {}
  trk : Tracks := {}
  pcie : Pcie := {}
  /-- In DORMANT, the blocks without power as they were last. -/
  asleep : Option Asleep := none
  /-- Draws of open values taken so far: the model's own field, applied by `Config.freeBits`. -/
  free : Nat := 1
  /-- Writes the block has posted to host memory, newest first: port, function, address, bytes. -/
  posted : List (Nat × Nat × Nat × List Byte) := []
  /-- Commands waiting, first in, first out. -/
  pending : List Instr := []
  deriving DecidableEq, Repr

/-- The part with its rails up and PWROK low: nothing has started (R19, R106). -/
def State.reset : State := {}

end Sys2Proof.Machine
end

