-- ==== Sys2Proof/Machine/Ops.lean ====
section
/-!
DEFINITION. The shared operations: parameters, open values, history records, event occurrences, memory bytes, units and groves.
-/
namespace Sys2Proof.Machine

/-- What a meaning answers. -/
abbrev Out := Host.Outcome State Fault Refusal

/-! ## Parameters -/

/-- The instance number of a device-scoped parameter (R35). -/
def devInst : Nat := 0xFF

/-- The key of a parameter instance. -/
def pkey (idx sub inst : Nat) : Nat := idx * 65536 + sub * 256 + inst

/-- Installed capacity in MiB: 48 packages (R14, R24). -/
def installedMiB (s : State) : Nat := 48 * s.mem.density * 1024

/-- The usable capacity U in bytes (R230): 31/32 of what is installed while inline ECC is in force. -/
def usable (s : State) : Nat :=
  (if s.mem.eccOn then installedMiB s * 31 / 32 else installedMiB s) * 2 ^ 20

/-- The end of general memory, which is the start of the image region (R230). -/
def generalEnd (s : State) : Nat := usable s - 2368 * 2 ^ 20

/-- The default value of a parameter instance (R346 and the defining chapters). -/
def paramDefault (s : State) (idx sub inst : Nat) : Nat :=
  match findParam idx sub with
  | none => 0
  | some d =>
    match d.dflt with
    | .num n => n
    | .event => if 0x111C ≤ idx then 0x00320102 else 0x00000002
    | .domain =>
      let n := 128 * (idx - 0x1200) + (sub - 1)
      if n < 540 && n % 90 < 80 then 0x0008 else 0
    | .ringAllot => 56 * inst + (56 <<< 12)
    | .standAllot => 1820 * inst + (1820 <<< 32)
    | .partMap => if inst = 0 then 0x8001 else inst + 1
    | .partGroves => if inst = 0 then ones 72 else 0
    | .partMem => if inst = 0 then (generalEnd s / 2 ^ 28) <<< 32 else 0
    | .routes => 0x000F * (ones (16 * 1024) / 0xFFFF)
    | .check => 0x0A05 + (0x47800000 <<< 32)
    | .identity => 0

/-- The stored value of a parameter instance: what was committed, or the default. RO fields are added by `readValue`. -/
def param (s : State) (idx sub inst : Nat) : Nat :=
  (sfind s.dir.params (pkey idx sub inst)).getD (paramDefault s idx sub inst)

/-- The stored value of a device-scoped parameter. -/
def dparam (s : State) (idx sub : Nat) : Nat := param s idx sub devInst

/-- A parameter instance given a committed value. -/
def setParam (s : State) (idx sub inst v : Nat) : State :=
  { s with dir.params := sput s.dir.params (pkey idx sub inst) v }

/-- A parameter instance back at its default. -/
def clearParam (s : State) (idx sub inst : Nat) : State :=
  { s with dir.params := sdel s.dir.params (pkey idx sub inst) }

/-- An RWP value written to Seedbank as one journal entry (R50). -/
def journalPut (s : State) (idx sub inst v : Nat) : State :=
  { s with seed.journal := ⟨[(pkey idx sub inst, v)], false⟩ :: s.seed.journal }

/-- The RWP values that a journal holds, newest entry first (R51): of each parameter the newest entry that holds it counts, and one with
no entry is at its default. -/
def recovered : List JEntry → Sparse Nat
  | [] => []
  | e :: l => e.values.foldl (fun m q => sput m q.1 q.2) (if e.defaults then [] else recovered l)

/-- The journal without the entries that fail their check, by place from the newest (R51). -/
def intact (j : List JEntry) (bad : List Nat) : List JEntry := (j.zipIdx.filter (fun q => !bad.contains q.2)).map (·.1)

/-! ## Open values -/

/-- A draw of `w` open bits, and the state that counts it. -/
def drawFree (s : State) (w : Nat) : Nat × State :=
  (Config.freeBits s.free % 2 ^ w, { s with free := s.free + 1 })

/-! ## Bytes of device memory -/

/-- The byte at a device address; a byte nothing has written reads 0. -/
def memByte (m : Sparse Byte) (a : Nat) : Byte := sget 0 m a

/-- Bytes from an address upward. -/
def memRead (m : Sparse Byte) (a : Nat) : Nat → List Byte
  | 0 => []
  | n + 1 => memByte m a :: memRead m (a + 1) n

/-- Bytes written from an address upward. -/
def memWrite (m : Sparse Byte) (a : Nat) : List Byte → Sparse Byte
  | [] => m
  | b :: bs => memWrite (sset 0 m a b) (a + 1) bs

/-- The canonical form of a byte memory: rising addresses, no entry equal to what an unlisted address reads as. -/
def Memory.wf (m : Sparse Byte) : Bool := swf 0 m

/-! ## History records (R317) -/

/-- Source 0x027 and the others are raised by `raise`; this is the least a record needs: one more record in the log. -/
def pushRecord (s : State) (type unit fromS toS detail : Nat) : State :=
  let r : HistRec := ⟨type, unit, s.seed.coldStarts % 65536, fromS, toS, s.time.dev, s.seed.histNext, detail⟩
  { s with seed.hist := (r :: s.seed.hist).take 8192, seed.histNext := s.seed.histNext + 1 }

/-! ## Event occurrences (R80–R83, R88) -/

/-- EV_CONFIG of a source (R81, Table 5-4). -/
def evConfig (s : State) (src : Nat) : Nat := dparam s (0x1118 + src / 128) (src % 128 + 1)

/-- EV_ROUTE of a source (Table 5-3). -/
def evRoute (s : State) (src : Nat) : Nat := dparam s (0x1110 + src / 128) (src % 128 + 1)

/-- Sources that Table 5-1, R319, R335 and chapter 21 leave reserved: they never occur. -/
def sourceReserved (n : Nat) : Bool :=
  decide (0x007 ≤ n) && decide (n ≤ 0x00F) || decide (0x013 ≤ n) && decide (n ≤ 0x01F) ||
  decide (0x028 ≤ n) && decide (n ≤ 0x04F) || decide (0x099 ≤ n) && decide (n ≤ 0x09F) ||
  decide (0x0A3 ≤ n) && decide (n ≤ 0x0A7) || decide (0x0B0 ≤ n) && decide (n ≤ 0x0BF) ||
  decide (n = 0x0C2) || decide (n = 0x0C3) || decide (0x1E4 ≤ n) && decide (n ≤ 0x1FF)

/-- One bit of a 1,024-bit status set or cleared. -/
def bit1024 (b : BitVec 1024) (n : Nat) (v : Bool) : BitVec 1024 :=
  if v then b ||| BitVec.ofNat 1024 (1 <<< n) else b &&& ~~~ (BitVec.ofNat 1024 (1 <<< n))

/-- An occurrence of a source (R83): PENDING, or OVERRUN when PENDING is set already; a disabled or reserved source does
nothing. A completion source counts it for coalescing, and its time runs from the first undelivered occurrence by TIME as it stands (R88). -/
def raise (s : State) (src : Nat) : State :=
  if sourceReserved src || !bitOf (evConfig s src) 1 || decide (1024 ≤ src) then s
  else
    let n := sget 0 s.ev.count src + 1
    let s1 := if 0x200 ≤ src then
        let first := (sfind s.ev.firstAt src).getD s.time.clock
        { s with ev.count := sput s.ev.count src n,
                 ev.firstAt := sput s.ev.firstAt src first,
                 ev.due := sput s.ev.due src (first + 1000 * field (evConfig s src) 31 16),
                 ev.met := if field (evConfig s src) 15 8 ≤ n then insertNat s.ev.met src else s.ev.met }
      else s
    if s.ev.pending.getLsbD src then
      { s1 with ev.overrun := bit1024 s.ev.overrun src true, ev.overruns := s.ev.overruns + 1 }
    else { s1 with ev.pending := bit1024 s.ev.pending src true }

/-- PENDING cleared by software or by a reset: coalescing restarts (R88). -/
def clearPending (s : State) (src : Nat) : State :=
  { s with ev.pending := bit1024 s.ev.pending src false,
           ev.count := sdel s.ev.count src, ev.firstAt := sdel s.ev.firstAt src, ev.due := sdel s.ev.due src,
           ev.met := s.ev.met.filter (· ≠ src) }

/-- A record defined anywhere in the spec: written to the log; a full log overwrites its oldest record and raises 0x027 (R317). -/
def record (s : State) (type unit fromS toS detail : Nat) : State :=
  let s1 := pushRecord s type unit fromS toS detail
  if s.seed.hist.length < 8192 then s1 else raise s1 0x027

/-- PART_ERROR of a partition (Table 5-1). -/
def partError (s : State) (p : Nat) : State := raise s (0x154 + 2 * p)

/-- PART_NOTICE of a partition. -/
def partNotice (s : State) (p : Nat) : State := raise s (0x155 + 2 * p)

/-! ## Straps and modes -/

/-- Solo: the fabric is unpowered (R16, Table 2-6). -/
def solo (s : State) : Bool := s.pins.straps.getLsbD 7

/-- The strapped field-bus node ID. -/
def nodeId (s : State) : Nat := field s.pins.straps.toNat 6 0

/-- READY has been reached (R106). -/
def isReady (s : State) : Bool := decide (s.boot.stage = 10)

/-- A host port trains under the straps (R27): D0 always, D3 unless STRAP9 is 1. -/
def portTrains (s : State) (port : Nat) : Bool := port = 0 || !s.pins.straps.getLsbD 9

/-! ## Units (R296, R297, Table 19-8) -/

/-- UNIT numbers. -/
def unitGrove (g : Nat) : Nat := 0x1000 + g
def unitBank (die bank : Nat) : Nat := 0x2000 + 50 * die + bank
def unitPort (p : Nat) : Nat := 0x3000 + p
def unitFabric (p : Nat) : Nat := 0x4000 + p

/-- The summary of a unit. -/
def unitSum (s : State) (u : Nat) : UnitSum := sget {} s.seed.units u

/-- A unit's summary changed. -/
def modUnit (s : State) (u : Nat) (f : UnitSum → UnitSum) : State :=
  { s with seed.units := sset {} s.seed.units u (f (unitSum s u)) }

/-- A unit moved to a service state: the time and cold start of the change are kept (Table 19-8). -/
def moveUnit (s : State) (u st : Nat) : State :=
  modUnit s u (fun x => { x with state := st, changeAt := s.time.dev, changeBoots := s.seed.coldStarts % 65536 })

/-- A unit in service. -/
def serving (s : State) (u : Nat) : Bool := (unitSum s u).state = 0

/-- A UNIT number that Table 19-1 lists. -/
def unitExists (u : Nat) : Bool :=
  let k := u / 4096
  let i := u % 4096
  (k = 1 && i < 432) || (k = 2 && i < 300) || (k = 3 && i < 48) || (k = 4 && i < 12)

/-- A stored time is more than `hours` old (R308): taken in an earlier cold start, or exceeded by the present device time. -/
def olderThan (s : State) (at_ boots hours : Nat) : Bool :=
  decide (boots ≠ s.seed.coldStarts % 65536) || decide (at_ + hours * 3600000000000 < s.time.dev)

/-! ## Groves and partitions (R285, R290) -/

/-- PART_MAP of a partition. -/
def partMap (s : State) (p : Nat) : Nat := param s 0x5801 1 p

/-- A partition is enabled (R285). -/
def partEnabled (s : State) (p : Nat) : Bool := bitOf (partMap s p) 15

/-- The grove is in the partition's set (R285). -/
def inPartSet (s : State) (p g : Nat) : Bool := bitOf (param s 0x5802 (g / 72 + 1) p) (g % 72)

/-- The grove is enabled in GROVE_ENABLE. -/
def groveEnabled (s : State) (g : Nat) : Bool := bitOf (dparam s 0x1230 (g / 72 + 1)) (g % 72)

/-- The enabled partition whose set holds the grove. -/
def partOfGrove (s : State) (g : Nat) : Option Nat :=
  firstBelow (fun p => partEnabled s p && inPartSet s p g) 72

/-- The grove serves the partition (R290): it has not left yet, or it is in the set, enabled, SERVING and admitted. -/
def serves (s : State) (p g : Nat) : Bool :=
  match sfind s.groves.leaving g with
  | some q => q = p && serving s (unitGrove g)
  | none => partEnabled s p && inPartSet s p g && groveEnabled s g && serving s (unitGrove g) &&
      (sfind s.groves.joining g).isNone && (sfind s.groves.departing g).isNone

/-- The partition the grove serves now, if any. -/
def servedPart (s : State) (g : Nat) : Option Nat :=
  match sfind s.groves.leaving g with
  | some q => if serving s (unitGrove g) then some q else none
  | none => if groveEnabled s g && serving s (unitGrove g) && (sfind s.groves.joining g).isNone && (sfind s.groves.departing g).isNone then
      partOfGrove s g else none

/-- The first byte and the size of a partition's memory (R288). -/
def partBase (s : State) (p : Nat) : Nat := 2 ^ 28 * field (param s 0x5803 1 p) 31 0
def partSize (s : State) (p : Nat) : Nat := 2 ^ 28 * field (param s 0x5803 1 p) 63 32

/-- The bytes `a` to `a + n - 1` lie in the partition's memory (R288). -/
def inPartMem (s : State) (p a n : Nat) : Bool :=
  partBase s p ≤ a && decide (a + n ≤ partBase s p + partSize s p)

/-- The partition a VF reaches (R35, R285): the enabled partition whose PART_MAP names the VF and its port. -/
def partOfVf (s : State) (port vf : Nat) : Option Nat :=
  firstBelow (fun p => partEnabled s p && field (partMap s p) 7 0 = vf && field (partMap s p) 8 8 = port) 72

/-! ## Host memory -/

/-- A posted write to host memory. -/
def postWrite (s : State) (port fn addr : Nat) (bs : List Byte) : State :=
  { s with posted := (port, fn, addr, bs) :: s.posted }

end Sys2Proof.Machine
end

