-- ==== Sys2Proof/Machine/Counters.lean ====
section
/-! DEFINITION. Counters and Tracks sampling (R336–R343): counting, wraps, carries, tags, samples and watermarks. -/
namespace Sys2Proof.Machine

/-- The counters of a grove and of a die. -/
def groveCtr (s : State) (g : Nat) : Counters := sget {} s.trk.grove g
def dieCtr (s : State) (d : Nat) : Counters := sget {} s.trk.die d

/-- The configuration entry of a counter (Table 21-1). -/
def ctrEntry (cfg k : Nat) : Nat := field cfg (32 * k + 31) (32 * k)
def ctrEvent (e : Nat) : Nat := field e 7 0
def ctrOn (e : Nat) : Bool := bitOf e 8 && decide (ctrEvent e ≠ 0)

/-- GCTR_CFG of a partition, and FREEZE. -/
def gctrCfg (s : State) (p : Nat) : Nat := param s 0x7402 1 p
def frozen (s : State) (p : Nat) : Bool := bitOf (param s 0x7402 2 p) 0

/-- The partition whose set holds a grove, as it takes effect (R290, R337). -/
def ctrPart (s : State) (g : Nat) : Option Nat :=
  match (sfind s.groves.leaving g).or (sfind s.groves.departing g) with
  | some p => some p
  | none => if (sfind s.groves.joining g).isSome then none else partOfGrove s g

/-- CARRY of a partition's counter raised (R339). -/
def addCarry (s : State) (p k n : Nat) : State :=
  { s with trk.carry := sset 0 s.trk.carry (12 * p + k) ((sget 0 s.trk.carry (12 * p + k) + n) % 2 ^ 64) }

/-- What a wrap of a grove counter does besides wrapping: OVF, CARRY, and the events (R336, R339). -/
def groveWrapped (s : State) (p g k : Nat) : State :=
  let c := groveCtr s g
  let s1 := addCarry { s with trk.grove := sput s.trk.grove g { c with ovf := putBit c.ovf k true } } p k (2 ^ 48)
  if bitOf (ctrEntry (gctrCfg s p) k) 9 then partNotice (raise s1 0x0A8) p else s1

/-- A grove counter given a value that may have passed 2⁴⁸ − 1. -/
def groveCtrAdd (s : State) (p g k n : Nat) : State :=
  let c := groveCtr s g
  let v := lget 0 c.pc k + n
  let s1 := { s with trk.grove := sput s.trk.grove g { c with pc := lset c.pc k (v % 2 ^ 48) } }
  if v < 2 ^ 48 then s1 else groveWrapped s1 p g k

/-- `n` occurrences of a grove event (R336, R337). -/
def countG (s : State) (g ev n : Nat) : State :=
  match ctrPart s g with
  | none => s
  | some p =>
    if frozen s p ∨ n = 0 then s
    else (List.range 8).foldl (fun s k =>
      let e := ctrEntry (gctrCfg s p) k
      if ctrOn e && decide (ctrEvent e = ev) then groveCtrAdd s p g k n else s) s

/-- A fixed counter of a grove (R336): 0 CYCLES, 1 TASKS, 2 WORDS, 3 MACS. -/
def countFixed (s : State) (g k n : Nat) : State :=
  match ctrPart s g with
  | none => s
  | some p =>
    if frozen s p ∨ n = 0 then s
    else
      let c := groveCtr s g
      { s with trk.grove := sput s.trk.grove g { c with fixed := lset c.fixed k ((lget 0 c.fixed k + n) % 2 ^ 64) } }

/-- DIE_CTR_CFG of a die. -/
def dieCfg (s : State) (d : Nat) : Nat := dparam s 0x7410 (d + 1)

/-- A die counter's wrap: OVF and source 0x0A8 (R336). -/
def dieWrapped (s : State) (d k : Nat) : State :=
  let c := dieCtr s d
  let s1 := { s with trk.die := sput s.trk.die d { c with ovf := putBit c.ovf k true } }
  if bitOf (ctrEntry (dieCfg s d) k) 9 then raise s1 0x0A8 else s1

/-- `n` occurrences of a die event. -/
def countD (s : State) (d ev n : Nat) : State :=
  if n = 0 then s
  else (List.range 8).foldl (fun s k =>
    let e := ctrEntry (dieCfg s d) k
    if ctrOn e && decide (ctrEvent e = ev) then
      let c := dieCtr s d
      let v := lget 0 c.pc k + n
      let s1 := { s with trk.die := sput s.trk.die d { c with pc := lset c.pc k (v % 2 ^ 48) } }
      if v < 2 ^ 48 then s1 else dieWrapped s1 d k
    else s) s

/-- An engine's fixed counter (Table 21-3): kind 1 Thicket, 2 memory port, 3 fabric port. In Solo fabric counters stay 0. -/
def countE (s : State) (kind i place n : Nat) : State :=
  if (kind = 3 ∧ solo s) ∨ n = 0 then s
  else
    let key := 4 * (4096 * kind + i) + place
    { s with trk.engine := sset 0 s.trk.engine key ((sget 0 s.trk.engine key + n) % 2 ^ 64) }

/-- A grove leaves a partition's set or is power-gated: its values go to CARRY and are cleared, and an outstanding tag is missed
(R339, R341). -/
def foldCounters (s : State) (p g : Nat) : State :=
  let c := groveCtr s g
  let s1 := (List.range 12).foldl (fun s k => addCarry s p k (if k < 8 then lget 0 c.pc k else lget 0 c.fixed (k - 8))) s
  let d := g / 72
  let lost := s.trk.armed.contains g || (sfind s.trk.tagged g).isSome
  let b := sget {} s.trk.bufs d
  let bufs := if lost then sput s.trk.bufs d { b with missed := b.missed + 1 } else s1.trk.bufs
  { s1 with trk.grove := sdel s1.trk.grove g, trk.bufs := bufs, trk.armed := s.trk.armed.filter (· ≠ g), trk.tagged := sdel s.trk.tagged g }

/-- The total of a partition's counter (R339): 0–7 programmable, 8–11 fixed. -/
def ctrSum (s : State) (p k : Nat) : Nat :=
  (sget 0 s.trk.carry (12 * p + k) +
    ((List.range 432).filter (fun g => ctrPart s g = some p)).foldl (fun a g =>
      a + (if k < 8 then lget 0 (groveCtr s g).pc k else lget 0 (groveCtr s g).fixed (k - 8))) 0) % 2 ^ 64

/-- GCTR_CLEAR: the selected counters of the partition's groves with their CARRY and OVF are zeroed (R340). -/
def gctrClear (s : State) (p sel : Nat) : State :=
  let zap (c : Counters) : Counters :=
    let pc := (List.range 8).map (fun k => if bitOf sel k then 0 else lget 0 c.pc k)
    { pc, ovf := clearBits c.ovf (sel % 256), fixed := if bitOf sel 8 then List.replicate 4 0 else c.fixed }
  let grove := s.trk.grove.map (fun q => if ctrPart s q.1 = some p then (q.1, zap q.2) else q)
  let carry := s.trk.carry.filter (fun q => !(decide (q.1 / 12 = p) && (if q.1 % 12 < 8 then bitOf sel (q.1 % 12) else bitOf sel 8)))
  { s with trk.grove := grove, trk.carry := carry }

/-- DIE_CTR_CLEAR: the counters and OVF bits of the named dies are zeroed (R340). -/
def dieCtrClear (s : State) (dies : Nat) : State :=
  { s with trk.die := s.trk.die.filter (fun q => !bitOf dies q.1) }

/-- TRACKS_RESUME: BASE of the named dies takes WP and FULL clears (R342). -/
def tracksResume (s : State) (dies : Nat) : State :=
  { s with trk.bufs := s.trk.bufs.map (fun q => if bitOf dies q.1 then (q.1, { q.2 with base := q.2.wp, full := false }) else q) }

/-- A counter's value (R336). -/
def ctrEnabled (s : State) : CtrRef → Bool
  | .grove p g n => decide (ctrPart s g = some p.val) && !frozen s p && ctrOn (ctrEntry (gctrCfg s p) n)
  | .die d n => decide (n.val < 8) && ctrOn (ctrEntry (dieCfg s d) n)

/-- COUNTER_WRAP: a counting programmable counter passes 2⁴⁸ − 1 (R336, R339). -/
def execCounterWrap (c : CtrRef) (s : State) : Out :=
  .next (if !ctrEnabled s c then s else match c with
    | .grove p g n =>
      let x := groveCtr s g
      groveWrapped { s with trk.grove := sput s.trk.grove g { x with pc := lset x.pc n 0 } } p g n
    | .die d n =>
      let x := dieCtr s d
      dieWrapped { s with trk.die := sput s.trk.die d { x with pc := lset x.pc n 0 } } d n)

/-- TRACKS_CFG of a partition, and PERIOD. -/
def tracksCfg (s : State) (p : Nat) : Nat := param s 0x7420 1 p

/-- An interval or a tag of a die that leads to no sample (R341). -/
def missed (s : State) (d : Nat) : State :=
  let b := sget {} s.trk.bufs d
  { s with trk.bufs := sput s.trk.bufs d { b with missed := b.missed + 1 } }

/-- TRACKS_INTERVAL_END: the grove's next eligible iteration will be tagged; with a tag outstanding, one is missed (R341). -/
def execTracksIntervalEnd (g : Fin 432) (s : State) : Out :=
  .next (match ctrPart s g with
  | none => s
  | some p =>
    if field (tracksCfg s p) 31 0 = 0 then s
    else if s.trk.armed.contains g.val || (sfind s.trk.tagged g).isSome then missed s (g.val / 72)
    else { s with trk.armed := insertNat s.trk.armed g })

/-- STOP and WATERMARK of TRACKS_CTL. -/
def tracksStop (s : State) : Bool := bitOf (dparam s 0x7420 2) 0
def watermark (s : State) : Nat := field (dparam s 0x7420 2) 31 16

/-- A sample written to its die's buffer (R342): FULL and WATERMARK handled. With STOP set a buffer that holds 4,096 entries takes none. -/
def writeSample (s : State) (d p sample : Nat) : State :=
  let b := sget {} s.trk.bufs d
  if tracksStop s && b.full then missed s d
  else if tracksStop s && decide (4096 ≤ b.wp - b.base) then
    raise { s with trk.bufs := sput s.trk.bufs d { b with missed := b.missed + 1, full := true } } 0x0AF
  else
    let wp := b.wp + 1
    let full := tracksStop s && decide (4096 ≤ wp - b.base)
    let hit := decide (watermark s ≠ 0) && decide (watermark s ≤ wp - b.mark)
    let b1 := { b with wp, full := b.full || full, mark := if hit then wp else b.mark, entries := ((b.wp, p, sample) :: b.entries).take 4096 }
    let s1 := { s with trk.bufs := sput s.trk.bufs d b1 }
    let s2 := if full && !b.full then raise s1 0x0AF else s1
    if hit then raise s2 (0x0A9 + d) else s2

/-- TRACKS_SAMPLE_WRITE: the grove's tagged sample reaches its die's buffer (R342). -/
def execTracksSampleWrite (g : Fin 432) (s : State) : Out :=
  .next (match sfind s.trk.tagged g with
  | none => s
  | some (p, sample) => writeSample { s with trk.tagged := sdel s.trk.tagged g } (g.val / 72) p sample)

end Sys2Proof.Machine
end

