-- ==== Sys2Proof/Machine/FP.lean ====
section
/-!
DEFINITION. Floating point (R187, R188, R198–R200, R213): exact dyadic values, rounding to nearest with ties to even, and conversions.
-/
namespace Sys2Proof.Machine

/-- A floating-point value: a NaN, an infinity, or (−1)^neg × m × 2^e. -/
inductive FVal where
  | nan
  | inf (neg : Bool)
  | fin (neg : Bool) (m : Nat) (e : Int)
  deriving DecidableEq, Repr

/-- A binary format (Table 12-1, Table 13-2): exponent and fraction bits, and whether it lacks infinities (E4M3). -/
structure FFmt where
  eb : Nat
  fb : Nat
  noInf : Bool := false
  deriving DecidableEq, Repr

def fp32 : FFmt := ⟨8, 23, false⟩
def bf16 : FFmt := ⟨8, 7, false⟩
def fp16 : FFmt := ⟨5, 10, false⟩
def e5m2 : FFmt := ⟨5, 2, false⟩
def e4m3 : FFmt := ⟨4, 3, true⟩

/-- Exponent bias. -/
def FFmt.bias (f : FFmt) : Nat := 2 ^ (f.eb - 1) - 1

/-- Width in bits. -/
def FFmt.width (f : FFmt) : Nat := f.eb + f.fb + 1

/-- The canonical NaN (R188, Table 13-2). -/
def FFmt.nanBits (f : FFmt) : Nat :=
  if f.noInf then 2 ^ (f.eb + f.fb) - 1 else (2 ^ f.eb - 1) * 2 ^ f.fb + 2 ^ (f.fb - 1)

/-- The bits of an infinity; a format without one gives its largest finite value. -/
def FFmt.infBits (f : FFmt) (neg : Bool) : Nat :=
  (if neg then 2 ^ (f.eb + f.fb) else 0) + (if f.noInf then 2 ^ (f.eb + f.fb) - 2 else (2 ^ f.eb - 1) * 2 ^ f.fb)

/-- The bits of the largest finite value. -/
def FFmt.maxBits (f : FFmt) (neg : Bool) : Nat :=
  (if neg then 2 ^ (f.eb + f.fb) else 0) + (if f.noInf then 2 ^ (f.eb + f.fb) - 2 else (2 ^ f.eb - 1) * 2 ^ f.fb - 1)

/-- The value of a bit pattern. -/
def fdec (f : FFmt) (b : Nat) : FVal :=
  let neg := bitOf b (f.eb + f.fb)
  let e := field b (f.eb + f.fb - 1) f.fb
  let m := b % 2 ^ f.fb
  if f.noInf && decide (e = 2 ^ f.eb - 1) && decide (m = 2 ^ f.fb - 1) then .nan
  else if !f.noInf && decide (e = 2 ^ f.eb - 1) then (if m = 0 then .inf neg else .nan)
  else if e = 0 then .fin neg m (1 - Int.ofNat f.bias - Int.ofNat f.fb)
  else .fin neg (m + 2 ^ f.fb) (Int.ofNat e - Int.ofNat f.bias - Int.ofNat f.fb)

/-- A number of halves dropped: `m` shifted right by `r`, rounded to nearest, ties to even. -/
def shiftRne (m r : Nat) : Nat :=
  if r = 0 then m
  else
    let keep := m >>> r
    let rem := m % 2 ^ r
    let half := 2 ^ (r - 1)
    if half < rem ∨ (rem = half ∧ keep % 2 = 1) then keep + 1 else keep

/-- The exponent of the last place that `m × 2^e` has in a format. -/
def lastPlace (f : FFmt) (m : Nat) (e : Int) : Int :=
  max (e + Int.ofNat (m.log2 + 1) - Int.ofNat (f.fb + 1)) (1 - Int.ofNat f.bias - Int.ofNat f.fb)

/-- A magnitude rounded to a format with unbounded exponent: its bits without a sign, as an exponent-and-fraction number. -/
def magBits (f : FFmt) (m : Nat) (e : Int) : Nat :=
  if m = 0 then 0
  else
    let t := lastPlace f m e
    let k := if t ≤ e then m <<< (e - t).toNat else shiftRne m (t - e).toNat
    -- adding the significand to the exponent field carries into it when the significand overflows
    let be := (t - (1 - Int.ofNat f.bias - Int.ofNat f.fb)).toNat
    be * 2 ^ f.fb + k

/-- A rounded magnitude exceeds the largest finite value. -/
def overflows (f : FFmt) (m : Nat) (e : Int) : Bool := decide (f.maxBits false < magBits f m e)

/-- A value encoded, rounded to nearest, ties to even; overflow gives the infinity (R188). -/
def fenc (f : FFmt) : FVal → Nat
  | .nan => f.nanBits
  | .inf neg => f.infBits neg
  | .fin neg m e => if overflows f m e then f.infBits neg else (if neg then 2 ^ (f.eb + f.fb) else 0) + magBits f m e

/-- The negated value. -/
def fneg : FVal → FVal
  | .nan => .nan
  | .inf n => .inf (!n)
  | .fin n m e => .fin (!n) m e

/-- The magnitude. -/
def fabsV : FVal → FVal
  | .nan => .nan
  | .inf _ => .inf false
  | .fin _ m e => .fin false m e

/-- A signed integer times a power of two, as a value; an exact zero is +0. -/
def ofScaled (i : Int) (e : Int) : FVal := .fin (decide (i < 0)) i.natAbs e

/-- The exact sum (IEEE 754; exact cancellation gives +0). -/
def fadd : FVal → FVal → FVal
  | .nan, _ => .nan
  | _, .nan => .nan
  | .inf a, .inf b => if a = b then .inf a else .nan
  | .inf a, _ => .inf a
  | _, .inf b => .inf b
  | .fin a ma ea, .fin b mb eb =>
    if ma = 0 ∧ mb = 0 then .fin (a && b) 0 0
    else
      let e := min ea eb
      let x := Int.ofNat (ma <<< (ea - e).toNat)
      let y := Int.ofNat (mb <<< (eb - e).toNat)
      ofScaled ((if a then -x else x) + (if b then -y else y)) e

/-- The exact product. -/
def fmul : FVal → FVal → FVal
  | .nan, _ => .nan
  | _, .nan => .nan
  | .inf a, .inf b => .inf (a != b)
  | .inf a, .fin b m _ => if m = 0 then .nan else .inf (a != b)
  | .fin b m _, .inf a => if m = 0 then .nan else .inf (a != b)
  | .fin a ma ea, .fin b mb eb => .fin (a != b) (ma * mb) (ea + eb)

/-- The quotient, exact enough for one rounding: 80 quotient bits and a sticky bit. -/
def fdiv : FVal → FVal → FVal
  | .nan, _ => .nan
  | _, .nan => .nan
  | .inf _, .inf _ => .nan
  | .inf a, .fin b _ _ => .inf (a != b)
  | .fin a _ _, .inf b => .fin (a != b) 0 0
  | .fin a ma ea, .fin b mb eb =>
    if mb = 0 then (if ma = 0 then .nan else .inf (a != b))
    else
      let k := 80 + mb.log2
      let n := ma <<< k
      .fin (a != b) (2 * (n / mb) + (if n % mb = 0 then 0 else 1)) (ea - eb - Int.ofNat k - 1)

/-- A rounding to a format, as a value. -/
def frnd (f : FFmt) (v : FVal) : FVal := fdec f (fenc f v)

/-- The value as a comparable pair when it is not NaN: exact comparison of finite values. -/
def fltV : FVal → FVal → Bool
  | .nan, _ => false
  | _, .nan => false
  | .inf a, .inf b => a && !b
  | .inf a, _ => a
  | _, .inf b => !b
  | .fin a ma ea, .fin b mb eb =>
    let e := min ea eb
    let x := Int.ofNat (ma <<< (ea - e).toNat)
    let y := Int.ofNat (mb <<< (eb - e).toNat)
    decide ((if a then -x else x) < (if b then -y else y))

/-- Equality of values (−0 equals +0, a NaN equals nothing). -/
def feqV (a b : FVal) : Bool :=
  match a, b with
  | .nan, _ => false
  | _, .nan => false
  | a, b => !fltV a b && !fltV b a

/-- The sign of a value. -/
def fsign : FVal → Bool
  | .nan => false
  | .inf n => n
  | .fin n _ _ => n

/-- The smaller value under R188: a NaN loses to a number, −0 is below +0. -/
def fmin (a b : FVal) : FVal :=
  match a, b with
  | .nan, b => b
  | a, .nan => a
  | a, b => if fltV a b then a else if fltV b a then b else if fsign a then a else b

/-- The larger value under R188. -/
def fmax (a b : FVal) : FVal :=
  match a, b with
  | .nan, b => b
  | a, .nan => a
  | a, b => if fltV a b then b else if fltV b a then a else if fsign a then b else a

/-- The value is finite. -/
def isFin : FVal → Bool
  | .fin _ _ _ => true
  | _ => false

/-- The value is a NaN. -/
def isNan : FVal → Bool
  | .nan => true
  | _ => false

/-- An integer as a value. -/
def ofInt (i : Int) : FVal := ofScaled i 0

/-- A finite magnitude rounded to an integer, ties to even. -/
def intMag (m : Nat) (e : Int) : Nat := if 0 ≤ e then m <<< e.toNat else shiftRne m (-e).toNat

/-- A value rounded to an integer and held in a range; the flag is set by R199's events. -/
def toIntSat (v : FVal) (lo hi : Int) : Int × Bool :=
  match v with
  | .nan => (0, true)
  | .inf n => (if n then lo else hi, true)
  | .fin n m e =>
    let x := Int.ofNat (intMag m e)
    let y := if n then -x else x
    if y < lo then (lo, true) else if hi < y then (hi, true) else (y, false)

/-- Conversion of a value to an output format code 0 FP32, 1 BF16, 2 E4M3, 3 E5M2, 4 INT8, 5 INT4 (R199): its bits, and whether it is
a saturation event. -/
def convOut (ofmt : Nat) (e5sat : Bool) (v : FVal) : Nat × Bool :=
  let fp (f : FFmt) (sat : Bool) : Nat × Bool :=
    match v with
    | .nan => (f.nanBits, true)
    | .inf n => (if sat then f.maxBits n else f.infBits n, true)
    | .fin n m e => if overflows f m e then (if sat then f.maxBits n else f.infBits n, true) else (fenc f v, false)
  match ofmt with
  | 0 => fp fp32 false
  | 1 => fp bf16 false
  | 2 => fp e4m3 true
  | 3 => fp e5m2 e5sat
  | 4 => let (i, b) := toIntSat v (-128) 127
    (wrapInt 8 i, b)
  | _ => let (i, b) := toIntSat v (-8) 7
    (wrapInt 4 i, b)

/-- Width in bits of an output format code. -/
def outWidth (ofmt : Nat) : Nat :=
  match ofmt with
  | 0 => 32
  | 1 => 16
  | 5 => 4
  | _ => 8

/-- The largest finite value of an output format code. -/
def outMax (ofmt : Nat) : FVal :=
  match ofmt with
  | 0 => fdec fp32 (fp32.maxBits false)
  | 1 => fdec bf16 (bf16.maxBits false)
  | 2 => fdec e4m3 (e4m3.maxBits false)
  | 3 => fdec e5m2 (e5m2.maxBits false)
  | 4 => ofInt 127
  | _ => ofInt 7

/-- FP32 operations on bit patterns, rounded once (R188). -/
def add32 (a b : BitVec 32) : BitVec 32 := BitVec.ofNat 32 (fenc fp32 (fadd (fdec fp32 a.toNat) (fdec fp32 b.toNat)))
def fma32 (a b c : BitVec 32) : BitVec 32 :=
  BitVec.ofNat 32 (fenc fp32 (fadd (fmul (fdec fp32 a.toNat) (fdec fp32 b.toNat)) (fdec fp32 c.toNat)))
def max32 (a b : BitVec 32) : BitVec 32 := BitVec.ofNat 32 (fenc fp32 (fmax (fdec fp32 a.toNat) (fdec fp32 b.toNat)))

/-- An FP32 bit pattern as a value. -/
def val32 (b : BitVec 32) : FVal := fdec fp32 b.toNat

/-- A value as an FP32 bit pattern. -/
def bits32 (v : FVal) : BitVec 32 := BitVec.ofNat 32 (fenc fp32 v)

/-- Element `i` of a row of packed elements in a row format (R198, Table 14-2): its bits. -/
def rowElem (fmt : Nat) (bs : List Byte) (i : Nat) : Nat :=
  match fmt with
  | 0 => leAt bs (4 * i) 4
  | 1 => leAt bs (2 * i) 2
  | 5 => field (leAt bs (i / 2) 1) (4 * (i % 2) + 3) (4 * (i % 2))
  | _ => leAt bs i 1

/-- A row element decoded to FP32 with the row's SCALE and BIAS (R213). -/
def rowDecode (fmt : Nat) (scale bias : Nat) (b : Nat) : BitVec 32 :=
  match fmt with
  | 0 => BitVec.ofNat 32 b
  | 1 => bits32 (fdec bf16 b)
  | 2 => bits32 (fdec e4m3 b)
  | 3 => bits32 (fdec e5m2 b)
  | 4 => bits32 (fadd (fmul (ofInt (signedOf 8 b)) (fdec fp32 scale)) (fdec fp32 bias))
  | _ => bits32 (fadd (fmul (ofInt (signedOf 4 b)) (fdec fp32 scale)) (fdec fp32 bias))

end Sys2Proof.Machine
end

