-- ==== Sys2Proof/Machine/Units.lean ====
section
/-! DEFINITION. Faults charged to units, strikes, fences, retirements and returns (R307–R311, R352). -/
namespace Sys2Proof.Machine

/-- Kind and index of a UNIT number (Table 19-1). -/
def unitKind (u : Nat) : Nat := u / 4096
def unitIndex (u : Nat) : Nat := u % 4096

/-- In Solo, fabric ports are not Firebreak units (R297). -/
def isUnit (s : State) (u : Nat) : Bool := unitExists u && !(solo s && decide (unitKind u = 4))

/-- Groves of a die that serve a partition (R290). -/
def servingOn (s : State) (p d : Nat) : List Nat := (List.range 72).map (72 * d + ·) |>.filter (fun g => serves s p g)

/-- The lowest enabled SERVING grove of a die that belongs to no enabled partition (R310). -/
def replacement (s : State) (d : Nat) : Option Nat :=
  ((List.range 72).map (72 * d + ·)).find? (fun g => groveEnabled s g && serving s (unitGrove g) && (partOfGrove s g).isNone)

/-- A grove that leaves SERVING and was its partition's last on the die, with none to replace it: PART_ERROR (R310). -/
def lastGrove (s : State) (u : Nat) : State :=
  if unitKind u ≠ 1 then s
  else match partOfGrove s (unitIndex u) with
    | none => s
    | some p => let d := unitIndex u / 72
      if (servingOn s p d).isEmpty && (replacement s d).isNone then partError s p else s

/-- The unit is retired: it stays FENCED until unretired (R309). -/
def markRetired (s : State) (u cause : Nat) : State :=
  raise (modUnit s u (fun x => { x with retired := true, cause })) 0x024

/-- A unit of a kind that takes no traffic while out: a fabric port stops at once (R274, R311). -/
def unitStops (s : State) (u : Nat) : State :=
  if unitKind u = 4 then
    { s with fab.usable := s.fab.usable.filter (· ≠ unitIndex u),
             fab.ports := sput s.fab.ports (unitIndex u) { sget {} s.fab.ports (unitIndex u) with left := true } }
  else s

/-- A fabric port's state as PORT_STATE shows it. -/
def portShown (s : State) (u st : Nat) : State :=
  if unitKind u = 4 then { s with fab.ports := sput s.fab.ports (unitIndex u) { sget {} s.fab.ports (unitIndex u) with state := st } } else s

/-- The active banks of a slice: 48 of the 50, at start the first 48 (R226). -/
def activeBanks (s : State) (d : Nat) : List Nat := (sfind s.canopy.active d).getD (List.range 48)

/-- A bank out of its slice: replaced by a spare in service, or missing (R229, R311). -/
def removeBank (s : State) (d b : Nat) : State :=
  let act := activeBanks s d
  let spare := firstBelow (fun x => !act.contains x && !(s.canopy.removed.contains (50 * d + x)) && decide (x ≠ b) && serving s (unitBank d x)) 50
  let act1 := if act.contains b then (match spare with
      | some x => insertNat (act.filter (· ≠ b)) x
      | none => act.filter (· ≠ b)) else act
  { s with canopy.active := sput s.canopy.active d act1, canopy.removed := insertNat s.canopy.removed (50 * d + b) }

/-- A unit reaches REGROWING (R309, R316). A power-gated grove powers up. -/
def startRegrow (s : State) (u : Nat) : State :=
  let s1 := moveUnit s u 3
  if unitKind u = 1 then { s1 with groves.gated := s1.groves.gated.filter (· ≠ unitIndex u) } else portShown s1 u 1

/-- A unit reaches FENCED from CLEARING (R309, R311, R352): its FENCE record, a retirement by SURVEY_FAIL or by a refence within
RETIRE_WINDOW, and an automatic return. A survey's passage counts as no fence. -/
def reachFenced (s : State) (u : Nat) : State :=
  let x := unitSum s u
  let s1 := raise (record (moveUnit s u 2) 0x0002 u 1 2 x.cause) 0x022
  let s2 := if unitKind u = 1 then { s1 with groves.gated := insertNat s1.groves.gated (unitIndex u) }
    else if unitKind u = 2 then removeBank s1 (unitIndex u / 50) (unitIndex u % 50) else portShown s1 u 4
  let s3 := { s2 with fb.hardClearing := s2.fb.hardClearing.filter (· ≠ u) }
  if x.inSurvey then startRegrow s3 u
  else
    let w := dparam s 0x6003 3
    let refence := x.returned && decide (w ≠ 0) && !olderThan s x.returnAt x.returnBoots w
    let s4 := modUnit s3 u (fun y => { y with fences := y.fences + 1 })
    if refence || decide (x.cause = 0x05) then markRetired (record s4 0x0004 u 1 2 x.cause) u x.cause
    else if dparam s 0x6003 4 = 1 ∧ unitKind u ≠ 3 ∧ x.cause ≠ 0x7F ∧ !x.retired then startRegrow s4 u else s4

/-- A SERVING unit starts CLEARING with a cause (R307); a memory port passes through it at once (Table 19-4). -/
def startClearing (s : State) (u cause : Nat) (hard : Bool) : State :=
  let s1 := modUnit (moveUnit s u 1) u (fun x => { x with cause })
  let s2 := { s1 with fb.hardClearing := if hard then insertNat s1.fb.hardClearing u else s1.fb.hardClearing }
  let s3 := lastGrove (unitStops s2 u) u
  if unitKind u = 3 then reachFenced s3 u else s3

/-- A failed return (R309, R352): FENCED and retired, with a RETIRE record and no FENCE record. -/
def failReturn (s : State) (u cause : Nat) : State :=
  let s1 := record (raise (moveUnit s u 2) 0x022) 0x0004 u 3 2 cause
  let s2 := if unitKind u = 1 then { s1 with groves.gated := insertNat s1.groves.gated (unitIndex u), groves.joining := sdel s1.groves.joining (unitIndex u) }
    else portShown s1 u 4
  markRetired (modUnit s2 u (fun x => { x with inSurvey := false, fences := x.fences + 1 })) u cause

/-- A hard fault against a unit, by its state (R307). -/
def hardFault (s : State) (u cause : Nat) : State :=
  match (unitSum s u).state with
  | 0 => startClearing s u cause true
  | 3 => failReturn s u cause
  | st => record s 0x0002 u st st cause

/-- A strike against a unit (R308): its record, and a fence at STRIKE_LIMIT. -/
def strike (s : State) (u cause : Nat) : State :=
  let x := unitSum s u
  if x.state ≠ 0 then record s 0x0001 u x.state x.state (cause + (x.strikes <<< 16))
  else
    let s1 := if olderThan s x.anchorAt x.anchorBoots (dparam s 0x6003 2) then
        modUnit s u (fun y => { y with strikes := 0, anchorAt := s.time.dev, anchorBoots := s.seed.coldStarts % 65536 }) else s
    let n := (unitSum s1 u).strikes + 1
    let s2 := record (modUnit s1 u (fun y => { y with strikes := n, cause })) 0x0001 u 0 0 (cause + (n <<< 16))
    if dparam s 0x6003 1 ≤ n then startClearing (modUnit s2 u (fun y => { y with strikes := 0 })) u cause false else s2

/-- A unit reaches SERVING from REGROWING (R311, R352): its RETURN record and source 0x023. -/
def returnUnit (s : State) (u surveyId : Nat) : State :=
  let s1 := modUnit (moveUnit s u 0) u (fun x =>
    { x with returnAt := s.time.dev, returnBoots := s.seed.coldStarts % 65536, returned := true, inSurvey := false })
  raise (record s1 0x0003 u 3 0 surveyId) 0x023

/-- SURVEY_ID of the set in use for a kind: 0 while the built-in patterns are in use (R315). -/
def surveyId (s : State) (kind : Nat) : Nat := leAt (sget [] s.fb.surveys kind) 2 2

end Sys2Proof.Machine
end

