-- ==== Sys2Proof/Machine/Coherence.lean ====
section
/-!
DEFINITION. The address map (R231), reads of LPDDR with their ECC checks (R248), the room of slices and grove caches (R226, R234), and the
directory protocol between grove caches and the home slices (R235–R237, Table 15-2): requests, snoops, answers, evictions and their
crossings, message by message.
-/
namespace Sys2Proof.Machine

/-! ## The address map (R231) -/

/-- The memory port of a device address. -/
def portOf (a : Nat) : Nat :=
  let b := a / 256
  let g := b / 48
  let r := b % 48
  (r + (g * 0x9E3779B1 % 2 ^ 32) % 48) % 48

/-- The address within its port. -/
def portAddr (a : Nat) : Nat := 256 * (a / 256 / 48) + a % 256

/-- The channel of a line within its port. -/
def channelOf (a : Nat) : Nat := (a / 64) % 4

/-- The home die of a line or of a row's first byte. -/
def homeDie (a : Nat) : Nat := portOf a / 8

/-! ## Reads of LPDDR (R248) -/

/-- A memory port, and one changed. -/
def mport (s : State) (p : Nat) : MPort := sget {} s.ports p
def modMPort (s : State) (p : Nat) (f : MPort → MPort) : State := { s with ports := sset {} s.ports p (f (mport s p)) }

/-- PORT_STATUS of an uncorrectable error at a line, and the port's event. -/
def portUe (s : State) (port line : Nat) : State :=
  raise (modMPort s port (fun x => { x with uncorrected := x.uncorrected + 1, lastUe := 64 * line })) (0x050 + port)

/-- A line poisoned by a detected error: source 0 LPDDR or 1 Canopy SRAM, counted in POISONED (R248, R250). -/
def poisonLine (s : State) (line src : Nat) : State :=
  { s with mem.poison := sput s.mem.poison line src, mem.poisoned := s.mem.poisoned + 1 }

/-- The result of an ECC check on a line of a port: a corrected error is written back and counted; an uncorrectable one poisons the line.
An error that was found lies hidden no longer. -/
def eccResult (s0 : State) (port line : Nat) (e : Ecc) : State :=
  let s := { s0 with mem.latent := sdel s0.mem.latent line }
  match e with
  | .clean => s0
  | .corrected => countD (modMPort s port (fun x => { x with corrected := x.corrected + 1 })) (port / 8) 0x4F 1
  | .uncorrectable => poisonLine (portUe s port line) line 0

/-- A line read from LPDDR: counted, and what its cells hold found by the ECC check, with INLINE_ECC in force; a fenced port reads
nothing. -/
def readLpddr (s : State) (line : Nat) : State :=
  let port := portOf (64 * line)
  if (unitSum s (unitPort port)).state = 2 then s else
  let s1 := countE (countD s (port / 8) 0x4D 1) 2 port 0 1
  match sfind s.mem.latent line with
  | some e => if s.mem.eccOn then eccResult s1 port line e else s1
  | none => s1

/-! ## Lines, copies and messages -/

/-- The key of a grove's copy of a line. -/
def copyKey (line g : Nat) : Nat := 512 * line + g

/-- The directory entry of a line. -/
def dirOf (s : State) (line : Nat) : DirState :=
  match sfind s.canopy.lines line with
  | some c => c.dir
  | none => .u

/-- Bytes written at the home. -/
def homeWrite (s : State) (a : Nat) (bs : List Byte) : State := { s with mem.bytes := memWrite s.mem.bytes a bs }

/-- A grove's copy of a line. -/
def copyOfLine (s : State) (g line : Nat) : Option GCopy := sfind s.canopy.copies (copyKey line g)

/-- A grove's copy written, or dropped. -/
def setCopy (s : State) (g line : Nat) (c : GCopy) : State := { s with canopy.copies := sput s.canopy.copies (copyKey line g) c }
def dropCopy (s : State) (g line : Nat) : State := { s with canopy.copies := sdel s.canopy.copies (copyKey line g) }

/-- The 64 bytes of a line at the home. -/
def homeLine (s : State) (line : Nat) : List Byte := memRead s.mem.bytes (64 * line) 64

/-- A message put on its way. -/
def send (s : State) (m : DMsg) (g line : Nat) (data : List Byte := []) : State :=
  { s with canopy.flights := s.canopy.flights ++ [⟨m, g, line, data⟩] }

/-- Groves of the groups of a sharer mask, other than the requester (R235). -/
def groupGroves (mask g : Nat) : List Nat := (List.range 432).filter (fun x => bitOf mask (x / 8) && decide (x ≠ g))

/-- Sharer mask with a grove's group added. -/
def withGroup (mask g : Nat) : Nat := mask ||| (1 <<< (g / 8))

/-- A line has a message, a transaction or a request under way. -/
def lineBusy (s : State) (line : Nat) : Bool :=
  s.canopy.flights.any (fun f => decide (f.line = line)) || (sfind s.canopy.homes line).isSome ||
  s.canopy.queue.any (fun q => decide (q.2.2 = line))

/-! ## Invalidation of every copy (R236) -/

/-- The groves that hold a copy of a line. -/
def holders (s : State) (line : Nat) : List Nat :=
  (s.canopy.copies.filter (fun p => decide (p.1 / 512 = line))).map (fun p => p.1 % 512)

/-- The groves that SNP_INV of a line goes to, without one: the groups of the sharers, or the owner (R235). -/
def snooped (s : State) (line but : Nat) : List Nat :=
  match dirOf s line with
  | .u => []
  | .sh m => groupGroves m but
  | .ow o => if o = but then [] else [o]

/-- A grove's copy that holds data newer than the home's. -/
def newerCopy (s : State) (g line : Nat) : Option GCopy := (copyOfLine s g line).filter (fun c => decide (c.st = .modified) || c.dirty)

/-- SNP_INV to every copy of a line, for one grove or none (432), with its answers: M data are merged into the home. Whether any were. -/
def invalidate (but : Nat) (s : State) (line : Nat) : State × Bool :=
  let gs := holders s line
  let s1 := gs.foldl (fun s g => match newerCopy s g line with
    | some c => homeWrite s (64 * line) c.data
    | none => s) s
  let out := snooped s line but
  let s2 := { s1 with canopy.copies := s1.canopy.copies.filter (fun p => decide (p.1 / 512 ≠ line)),
                      canopy.snoops := s1.canopy.snoops + out.length }
  (out.foldl (fun s x => countG s x 0x0A 1) s2, gs.any (fun g => (newerCopy s g line).isSome))

/-! ## Room in the slices (R226, R234, R236) -/

/-- Cache MiB of a die (Table 15-1). -/
def cacheMiB (s : State) (d : Nat) : Nat :=
  if s.canopy.laidOut then 2 * (activeBanks s d).length - 8 - (if d = 0 ∨ d = 3 then 4 else 0) - s.canopy.hotRegion else 0

/-- The set of its slice that a line falls in: sets of 16 ways of 64 B. Which set is the sequencer image's choice, and open. -/
def sliceSet (s : State) (line : Nat) : Nat := Config.sliceSet line % Nat.max 1 (1024 * cacheMiB s (homeDie (64 * line)))

/-- The bank of its slice that a line lies in, which is the sequencer image's choice too (R231). -/
def sliceBank (s : State) (line : Nat) : Nat :=
  let act := activeBanks s (homeDie (64 * line))
  lget 0 act (Config.sliceBank line % Nat.max 1 act.length)

/-- A line leaves the slice: back-invalidations to every copy, and the line written back, merged with their data (R236). -/
def evictLine (s : State) (line : Nat) : State :=
  match sfind s.canopy.lines line with
  | none => s
  | some c =>
    let n := (snooped s line 432).length
    let d := homeDie (64 * line)
    let (s1, newer) := invalidate 432 s line
    let s2 := countD { s1 with canopy.backInv := s1.canopy.backInv + n, canopy.lines := sdel s1.canopy.lines line } d 0x43 n
    if c.dirty || newer then countE (countD s2 d 0x4E 1) 2 (portOf (64 * line)) 1 1 else s2

/-- The lines of a list with the least recent use. -/
def leastUsed : Sparse CLine → Option Nat
  | [] => none
  | q :: l => some (l.foldl (fun a x => if x.2.used < a.2.used then x else a) q).1

/-- Room for one more line in a line's set: the least recently used line of a full set leaves. A line with a transaction under way is
passed by. -/
def makeRoom (s : State) (line : Nat) : State :=
  if s.canopy.lines.length < 16 then s
  else
    let set := s.canopy.lines.filter (fun q => decide (homeDie (64 * q.1) = homeDie (64 * line)) && decide (sliceSet s q.1 = sliceSet s line))
    if set.length < 16 then s
    else match leastUsed (set.filter (fun q => !lineBusy s q.1)) with
      | some v => evictLine s v
      | none => s

/-- A use of a line that the slice holds. -/
def useLine (s : State) (line : Nat) : State :=
  match sfind s.canopy.lines line with
  | none => s
  | some c => { s with canopy.lines := sput s.canopy.lines line { c with used := s.canopy.uses + 1 }, canopy.uses := s.canopy.uses + 1 }

/-- A line put into the slice with a directory state; a line that is dirty stays dirty, and a line that is new takes a way of its set. -/
def putLine (s0 : State) (line : Nat) (d : DirState) (dirty : Bool) : State :=
  match sfind s0.canopy.lines line with
  | some c => { s0 with canopy.lines := sput s0.canopy.lines line ⟨d, c.dirty || dirty, s0.canopy.uses + 1⟩, canopy.uses := s0.canopy.uses + 1 }
  | none =>
    let s := makeRoom s0 line
    { s with canopy.lines := sput s.canopy.lines line ⟨d, dirty, s.canopy.uses + 1⟩, canopy.uses := s.canopy.uses + 1 }

/-- The home looks a line up: a hit is a use of it; a miss reads LPDDR. -/
def lookLine (s : State) (line : Nat) : State :=
  let d := homeDie (64 * line)
  if (sfind s.canopy.lines line).isSome then useLine (countD s d 0x41 1) line else readLpddr (countD s d 0x42 1) line

/-! ## Requests at the home -/

/-- A message from the home to a grove; those for one line arrive in order (Table 15-2). -/
def toGrove (m : DMsg) : Bool := [DMsg.snpSh, .snpInv, .evictAck, .dataE, .dataS, .dataX, .upgAck].contains m

/-- The first message in flight of a kind between a grove and the home for a line, when it may arrive. -/
def flightFor (s : State) (m : DMsg) (g line : Nat) : Option Flight :=
  if toGrove m then
    match s.canopy.flights.find? (fun f => decide (f.g = g) && decide (f.line = line) && toGrove f.msg) with
    | some f => if f.msg = m then some f else none
    | none => none
  else s.canopy.flights.find? (fun f => decide (f.g = g) && decide (f.line = line) && decide (f.msg = m))

/-- Data of an owner or an eviction merged into the slice. -/
def mergeData (s : State) (line : Nat) (data : List Byte) : State :=
  if data.isEmpty then s else putLine (homeWrite s (64 * line) data) line (dirOf s line) true

/-- The home serves a request whose snoops are over: the answer, and the directory entry it leaves (Table 15-2). -/
def serve (s0 : State) (req : DMsg) (g line : Nat) : State :=
  let s := lookLine s0 line
  match req, dirOf s line with
  | .rdS, .u => send (putLine s line (.ow g) false) .dataE g line (homeLine s line)
  | .rdS, .sh m => send (putLine s line (.sh (withGroup m g)) false) .dataS g line (homeLine s line)
  | .rdS, .ow o => send (putLine s line (.sh (withGroup (1 <<< (o / 8)) g)) false) .dataS g line (homeLine s line)
  | .upg, .sh m =>
    if bitOf m (g / 8) then send (putLine s line (.ow g) false) .upgAck g line
    else send (putLine s line (.ow g) false) .dataX g line (homeLine s line)
  | _, _ => send (putLine s line (.ow g) false) .dataX g line (homeLine s line)

/-- The home begins a request on a line that has no transaction open: it is served, or snoops go out (R235, R236). -/
def beginReq (s : State) (req : DMsg) (g line : Nat) : State :=
  let snoopAll (m : DMsg) (l : List Nat) : State :=
    if l.isEmpty then serve s req g line
    else
      let s1 := l.foldl (fun s x => send s m x line) s
      { s1 with canopy.homes := sput s1.canopy.homes line { req, g, waiting := l }, canopy.snoops := s1.canopy.snoops + l.length }
  match dirOf s line with
  | .u => serve s req g line
  | .sh m => if req = .rdS then serve s req g line else snoopAll .snpInv (groupGroves m g)
  | .ow o => if o = g then serve s req g line else if req = .rdS then snoopAll .snpSh [o] else snoopAll .snpInv [o]

/-- The next request queued for a line, when no transaction is open on it. -/
def nextReq (s : State) (line : Nat) : State :=
  if (sfind s.canopy.homes line).isSome then s
  else match s.canopy.queue.find? (fun q => decide (q.2.2 = line)) with
    | some (m, g, l) => beginReq { s with canopy.queue := s.canopy.queue.erase (m, g, l) } m g l
    | none => s

/-- A request arrives at the home: it begins, or queues in order of arrival (R235). -/
def request (s : State) (m : DMsg) (g line : Nat) : State :=
  if (sfind s.canopy.homes line).isSome || s.canopy.queue.any (fun q => decide (q.2.2 = line))
  then { s with canopy.queue := s.canopy.queue ++ [(m, g, line)] } else beginReq s m g line

/-- A transaction with no answer outstanding ends: the requester is served, then every crossed eviction is acknowledged (R237). -/
def closeHome (s : State) (line : Nat) : State :=
  match sfind s.canopy.homes line with
  | none => s
  | some t =>
    if !t.waiting.isEmpty then s
    else
      let s1 := serve { s with canopy.homes := sdel s.canopy.homes line } t.req t.g line
      let s2 := t.acks.foldl (fun s x => send s .evictAck x line) s1
      nextReq { s2 with canopy.crossings := s2.canopy.crossings + t.acks.length } line

/-- A grove's answer at the home: it no longer holds the line in the recorded state. -/
def answered (s : State) (g line : Nat) (left : Bool) (ack : Bool) : State :=
  match sfind s.canopy.homes line with
  | none => s
  | some t =>
    let t1 := { t with waiting := t.waiting.filter (· ≠ g), evWait := t.evWait.filter (· ≠ g), evHave := t.evHave.filter (· ≠ g),
                       acks := if ack then t.acks ++ [g] else t.acks }
    let s1 := { s with canopy.homes := sput s.canopy.homes line t1 }
    -- a grove that gave the line up is recorded no longer; an upgrade keeps the requester's group
    let s2 := if !left then s1 else match dirOf s1 line with
      | .ow o => if o = g then putLine s1 line .u false else s1
      | .sh m => if t1.waiting.isEmpty then
          (if t.req = .upg ∧ bitOf m (t.g / 8) ∧ (copyOfLine s1 t.g line).any (fun c => decide (c.st ≠ .evicting))
            then putLine s1 line (.sh (1 <<< (t.g / 8))) false else putLine s1 line .u false) else s1
      | .u => s1
    -- an eviction that crossed an answer given before it is acknowledged by itself
    closeHome (if !ack && t.evHave.contains g then send s2 .evictAck g line else s2) line

/-- An eviction message taken by the home outside a crossing: data merged, the entry dropped where it named the grove, and
EVICT_ACK sent. -/
def takeEviction (s : State) (g line : Nat) (data : List Byte) : State :=
  let s1 := mergeData s line data
  let s2 := match dirOf s1 line with
    | .ow o => if o = g then putLine s1 line .u false else s1
    | _ => s1
  send s2 .evictAck g line

/-! ## Grove caches and their eviction buffers (R167, R235) -/

/-- GROVE_SPLIT in force for a partition (R167), and the cache bytes that it gives (Table 11-1). -/
def splitOf (s : State) (p : Nat) : Nat := sget (param s 0x3001 1 p) s.gr.split p
def cacheBytes (split : Nat) : Nat := lget 0 [0, 262144, 524288, 1048576] (field split 1 0)

/-- The lines that a grove holds in its eviction buffer. -/
def evLines (s : State) (g : Nat) : List Nat :=
  (s.canopy.copies.filter (fun q => decide (q.1 % 512 = g) && decide (q.2.st = .evicting))).map (fun q => q.1 / 512)

/-- The eviction buffer of a grove has one of its 16 entries free. -/
def evRoom (s : State) (g : Nat) : Bool := decide ((evLines s g).length < 16)

/-- A grove starts to evict a line that it holds: EV, with its message on the way; only with an entry of the buffer free. -/
def startEviction (s : State) (g line : Nat) : State :=
  match copyOfLine s g line with
  | none => s
  | some c =>
    if c.st = .evicting ∨ !evRoom s g then s
    else if c.st = .modified then send (setCopy s g line { c with st := .evicting, dirty := true }) .evictD g line c.data
    else send (setCopy s g line { c with st := .evicting }) .evictC g line

/-- The set of a grove cache that a line falls in: sets of 8 ways (R167); which is open. -/
def groveSet (s : State) (g line : Nat) : Nat := Config.groveSet line % Nat.max 1 (cacheBytes (splitOf s ((ctrPart s g).getD 0)) / 512)

/-- A way for one more line in a grove's set: where all 8 are taken, one of them, which is open, starts its eviction. -/
def groveRoom (s : State) (g line : Nat) : State :=
  let mine := (s.canopy.copies.filter (fun q => decide (q.1 % 512 = g) && decide (q.2.st ≠ .evicting))).map (fun q => q.1 / 512)
  if mine.length < 8 ∨ mine.contains line then s
  else
    let set := mine.filter (fun l => decide (groveSet s g l = groveSet s g line))
    if set.length < 8 then s
    else startEviction { s with free := s.free + 1 } g (lget line set (Config.freeBits s.free % set.length))

/-- A grove takes a line that the home has sent it. -/
def fillCopy (s : State) (g line : Nat) (c : GCopy) : State := setCopy (groveRoom s g line) g line c

/-- A message arrives. -/
def arrive (s0 : State) (f : Flight) : State :=
  let s := { s0 with canopy.flights := s0.canopy.flights.erase f }
  let g := f.g
  let line := f.line
  match f.msg with
  | .snpSh =>
    let s := countG s g 0x0A 1
    (match copyOfLine s g line with
      | none => send s .rspI g line
      | some c => (match c.st with
        | .evicting => send (countG s g 0x0B 1) .evictingA g line
        | .modified => send (setCopy s g line { c with st := .shared }) .rspD g line c.data
        | _ => send (setCopy s g line { c with st := .shared }) .rspS g line))
  | .snpInv =>
    let s := countG s g 0x0A 1
    (match copyOfLine s g line with
      | none => send s .rspI g line
      | some c => (match c.st with
        | .evicting => send (countG s g 0x0B 1) .evictingA g line
        | .modified => send (dropCopy s g line) .rspD g line c.data
        | _ => send (dropCopy s g line) .rspI g line))
  | .rspD => answered (mergeData s line f.data) g line
      (match sfind s.canopy.homes line with
        | some t => decide (t.req ≠ .rdS)
        | none => false) false
  | .rspS => answered s g line false false
  | .rspI => answered s g line true false
  | .evictingA =>
    (match sfind s.canopy.homes line with
      | none => s
      | some t => if t.evHave.contains g then answered s g line true true
        else { s with canopy.homes := sput s.canopy.homes line { t with evWait := g :: t.evWait } })
  | .evictD | .evictC =>
    (match sfind s.canopy.homes line with
      | none => takeEviction s g line f.data
      | some t =>
        if !t.waiting.contains g then takeEviction s g line f.data
        else
          let s1 := mergeData s line f.data
          if t.evWait.contains g then answered s1 g line true true
          else { s1 with canopy.homes := sput s1.canopy.homes line { t with evHave := g :: t.evHave } })
  | .evictAck => dropCopy s g line
  | .dataE => fillCopy s g line ⟨.exclusive, f.data, false⟩
  | .dataS => fillCopy s g line ⟨.shared, f.data, false⟩
  | .dataX => fillCopy s g line ⟨.modified, f.data, false⟩
  | .upgAck => (match copyOfLine s g line with
      | some c => setCopy s g line { c with st := .modified }
      | none => s)
  | .rdS => request s .rdS g line
  | .rdX => request s .rdX g line
  | .upg => request s .upg g line

/-- Up to a number of messages of a line arrive, in the order in which they were sent. -/
def drain (line : Nat) : Nat → State → State
  | 0, s => s
  | n + 1, s => match s.canopy.flights.find? (fun f => decide (f.line = line)) with
    | some f => drain line n (arrive s f)
    | none => s

/-- Every transaction ahead of another access to a line ends (R235: one transaction per line at a time, in order of arrival). -/
def settle (s : State) (line : Nat) : State :=
  if lineBusy s line then drain line (2000 * (s.canopy.flights.length + s.canopy.queue.length + 1)) s else s

/-- A bank is cleared: back-invalidations for its lines, and the dirty ones written back (Table 19-4). -/
def clearBank (s : State) (die bank : Nat) : State :=
  (s.canopy.lines.filter (fun q => decide (homeDie (64 * q.1) = die) && decide (sliceBank s q.1 = bank))).foldl
    (fun s q => evictLine (settle s q.1) q.1) s

/-! ## The messages as commands -/

/-- A message in flight arrives, when there is one. -/
def arriveRow (m : DMsg) (g line : Nat) (s : State) : Out :=
  .next (match flightFor s m g line with
  | some f => arrive s f
  | none => s)

/-- RD_S: a read request of a grove without a copy reaches the home. -/
def execRdS (g : Fin 432) (line : BitVec 42) (s : State) : Out :=
  .next (if (copyOfLine s g line.toNat).isNone then request s .rdS g line.toNat else s)

/-- RD_X: a request to write of a grove without a copy reaches the home. -/
def execRdX (g : Fin 432) (line : BitVec 42) (s : State) : Out :=
  .next (if (copyOfLine s g line.toNat).isNone then request s .rdX g line.toNat else s)

/-- UPG: a grove that held the line in S asks for M (Table 15-2). -/
def execUpg (g : Fin 432) (line : BitVec 42) (s : State) : Out :=
  .next (match copyOfLine s g line.toNat with
  | some c => if c.st = .shared then request s .upg g line.toNat else s
  | none => request s .upg g line.toNat)

/-- EVICT_D: an eviction message with data in flight reaches the home; with none in flight, the grove starts evicting its M line. -/
def execEvictD (g : Fin 432) (line : BitVec 42) (s : State) : Out :=
  .next (match flightFor s .evictD g line.toNat with
  | some f => arrive s f
  | none => match copyOfLine s g line.toNat with
    | some c => if c.st = .modified then startEviction s g line.toNat else s
    | none => s)

/-- EVICT_C: the same for an S or E line, without data. -/
def execEvictC (g : Fin 432) (line : BitVec 42) (s : State) : Out :=
  .next (match flightFor s .evictC g line.toNat with
  | some f => arrive s f
  | none => match copyOfLine s g line.toNat with
    | some c => if c.st = .shared ∨ c.st = .exclusive then startEviction s g line.toNat else s
    | none => s)

/-- SNP_SH arrives at a grove. -/
def execSnpSh (g : Fin 432) (line : BitVec 42) (s : State) : Out := arriveRow .snpSh g line.toNat s
/-- SNP_INV arrives at a grove. -/
def execSnpInv (g : Fin 432) (line : BitVec 42) (s : State) : Out := arriveRow .snpInv g line.toNat s
/-- EVICTING arrives at the home (R237). -/
def execEvicting (g : Fin 432) (line : BitVec 42) (s : State) : Out := arriveRow .evictingA g line.toNat s
/-- EVICT_ACK arrives at a grove, which frees the entry. -/
def execEvictAck (g : Fin 432) (line : BitVec 42) (s : State) : Out := arriveRow .evictAck g line.toNat s
/-- RSP_D arrives at the home. -/
def execRspD (g : Fin 432) (line : BitVec 42) (s : State) : Out := arriveRow .rspD g line.toNat s
/-- RSP_S arrives at the home. -/
def execRspS (g : Fin 432) (line : BitVec 42) (s : State) : Out := arriveRow .rspS g line.toNat s
/-- RSP_I arrives at the home. -/
def execRspI (g : Fin 432) (line : BitVec 42) (s : State) : Out := arriveRow .rspI g line.toNat s
/-- DATA_E arrives at a grove. -/
def execDataE (g : Fin 432) (line : BitVec 42) (s : State) : Out := arriveRow .dataE g line.toNat s
/-- DATA_S arrives at a grove. -/
def execDataS (g : Fin 432) (line : BitVec 42) (s : State) : Out := arriveRow .dataS g line.toNat s
/-- DATA_X arrives at a grove. -/
def execDataX (g : Fin 432) (line : BitVec 42) (s : State) : Out := arriveRow .dataX g line.toNat s
/-- UPG_ACK arrives at a grove. -/
def execUpgAck (g : Fin 432) (line : BitVec 42) (s : State) : Out := arriveRow .upgAck g line.toNat s

end Sys2Proof.Machine
end

