-- ==== Sys2Proof/Machine/Memory.lean ====
section
/-!
DEFINITION. Poison, and coherent reads and writes of device memory by accessors other than groves (R236, R248).
-/
namespace Sys2Proof.Machine

/-- The source of the poison that a line carries, if it does: a fenced port poisons every consumption (R248, R312). -/
def poisonOf (s : State) (line : Nat) : Option Nat :=
  let p := portOf (64 * line)
  if (unitSum s (unitPort p)).state = 2 then some 0
  else match sfind s.mem.poison line with
    | some src => some src
    | none => match sfind s.mem.poisonPorts p with
      | some clean => if clean.contains line then none else some 0
      | none => none

/-- AUX of a MEMORY_ERROR for a line (R248). -/
def memErrAux (line src : Nat) : Nat := (portOf (64 * line) <<< 26) + (src <<< 25)

/-- AUX of a MEMORY_ERROR for a host read error (R351). -/
def hostErrAux : Nat := 1 <<< 24

/-- The lines that the bytes `a` to `a + n - 1` touch. -/
def linesOf (a n : Nat) : List Nat :=
  if n = 0 then [] else (List.range ((a + n - 1) / 64 - a / 64 + 1)).map (fun k => a / 64 + k)

/-- The first poisoned line of a range, as AUX. -/
def firstPoison (s : State) (a n : Nat) : Option Nat :=
  (linesOf a n).findSome? (fun l => (poisonOf s l).map (memErrAux l))

/-- The data an owner holds merged into the home and its copy left shared: what SNP_SH and its answer do (R236). -/
def snoopShared (s0 : State) (line : Nat) : State :=
  let s := settle s0 line
  match dirOf s line with
  | .ow g =>
    let s1 := countG { s with canopy.snoops := s.canopy.snoops + 1 } g 0x0A 1
    (match sfind s.canopy.copies (copyKey line g) with
      | some c =>
        let dirty := decide (c.st = .modified) || c.dirty
        let s2 := if dirty then homeWrite s1 (64 * line) c.data else s1
        let s3 := { s2 with canopy.copies := if c.st = .evicting then sdel s2.canopy.copies (copyKey line g)
                             else sput s2.canopy.copies (copyKey line g) { c with st := .shared, dirty := false } }
        putLine s3 line (if c.st = .evicting then .u else .sh (1 <<< (g / 8))) dirty
      | none => putLine s1 line .u false)
  | _ => s

/-- Every grove copy of a line invalidated for one grove or none (432), after the transactions ahead (R236). -/
def snoopFor (but : Nat) (s0 : State) (line : Nat) : State :=
  let s := settle s0 line
  let (s1, newer) := invalidate but s line
  if (holders s line).isEmpty ∧ dirOf s line = .u then s1 else putLine s1 line .u newer

/-- Every copy of a line invalidated. -/
def snoopInvalidate (s : State) (line : Nat) : State := snoopFor 432 s line

/-- A coherent read by an accessor that is not a grove: the state after the snoops, and the bytes or the AUX of a MEMORY_ERROR
(R236, R248). -/
def readMem (s : State) (a n : Nat) : State × Except Nat (List Byte) :=
  let s1 := (linesOf a n).foldl (fun s l => lookLine (snoopShared s l) l) s
  match firstPoison s1 a n with
  | some aux => (s1, .error aux)
  | none => (s1, .ok (memRead s1.mem.bytes a n))

/-- A line's poison removed, and with it what its cells held: the line is written anew. -/
def unpoison (s : State) (line : Nat) : State :=
  let p := portOf (64 * line)
  let s1 := { s with mem.poison := sdel s.mem.poison line, mem.latent := sdel s.mem.latent line }
  match sfind s.mem.poisonPorts p with
  | some clean => { s1 with mem.poisonPorts := sput s1.mem.poisonPorts p (insertNat clean line) }
  | none => s1

/-- A write at the home by an accessor that is not a grove: copies are invalidated; a line written whole loses its poison, one written in
part is looked up first and keeps it; a write to a fenced port is discarded (R236, R248, R312). -/
def writeMem (s : State) (a : Nat) (bs : List Byte) : State :=
  let n := bs.length
  let ls := linesOf a n
  let whole (l : Nat) : Bool := decide (a ≤ 64 * l) && decide (64 * l + 64 ≤ a + n)
  let s1 := ls.foldl snoopInvalidate s
  let s2 := ls.foldl (fun s l => if whole l then unpoison s l else lookLine s l) s1
  let s3 := ls.foldl (fun s l =>
      let lo := Nat.max a (64 * l)
      let hi := Nat.min (a + n) (64 * l + 64)
      if (unitSum s (unitPort (portOf (64 * l)))).state = 2 then s
      else homeWrite s lo ((bs.drop (lo - a)).take (hi - lo))) s2
  ls.foldl (fun s l => putLine s l (dirOf s l) true) s3

end Sys2Proof.Machine
end

