-- ==== Sys2Proof/Machine/Atomics.lean ====
section
/-! DEFINITION. Atomics and reductions at the home slice (R238, R239, Table 15-5). -/
namespace Sys2Proof.Machine

/-- The operand size of a Table 15-5 code in bytes; none for an undefined code. -/
def atomSize (code : Nat) : Option Nat :=
  if [0x01, 0x03, 0x04, 0x05, 0x06, 0x07, 0x0D, 0x0F, 0x11, 0x12].contains code then some 4
  else if [0x02, 0x08, 0x09, 0x0A, 0x0B, 0x0C, 0x0E, 0x10].contains code then some 8
  else if 0x20 ≤ code ∧ code ≤ 0x25 then some 32 else none

/-- FETCH of a code: required for SWAP and CAS, forbidden for reductions, otherwise optional (Table 15-5). -/
def fetchOk (code : Nat) (fetch : Bool) : Bool :=
  if 0x0D ≤ code ∧ code ≤ 0x10 then fetch else if 0x20 ≤ code then !fetch else true

/-- An elementwise operation on values of `w` bits packed in a number. -/
def eachElem (w n : Nat) (f : Nat → Nat → Nat) (a b : Nat) : Nat :=
  (List.range n).foldl (fun acc i => acc + (f (field a (w * i + w - 1) (w * i)) (field b (w * i + w - 1) (w * i)) % 2 ^ w) <<< (w * i)) 0

/-- A floating-point operation on bit patterns of a format. -/
def onBits (f : FFmt) (op : FVal → FVal → FVal) (a b : Nat) : Nat := fenc f (op (fdec f a) (fdec f b))

/-- The smaller and larger of two signed numbers of `w` bits. -/
def sminBits (w a b : Nat) : Nat := if signedOf w a ≤ signedOf w b then a else b
def smaxBits (w a b : Nat) : Nat := if signedOf w a ≤ signedOf w b then b else a

/-- The value that memory takes: `old` under the operation with an operand and, for CAS, a compare value (Table 15-5). -/
def atomNew (code old operand compare : Nat) : Nat :=
  match code with
  | 0x01 => (old + operand) % 2 ^ 32
  | 0x02 => (old + operand) % 2 ^ 64
  | 0x03 => onBits fp32 fadd old (operand % 2 ^ 32)
  | 0x04 => sminBits 32 old (operand % 2 ^ 32)
  | 0x05 => smaxBits 32 old (operand % 2 ^ 32)
  | 0x06 => Nat.min old (operand % 2 ^ 32)
  | 0x07 => Nat.max old (operand % 2 ^ 32)
  | 0x08 => sminBits 64 old (operand % 2 ^ 64)
  | 0x09 => smaxBits 64 old (operand % 2 ^ 64)
  | 0x0A => old &&& (operand % 2 ^ 64)
  | 0x0B => old ||| (operand % 2 ^ 64)
  | 0x0C => old ^^^ (operand % 2 ^ 64)
  | 0x0D => operand % 2 ^ 32
  | 0x0E => operand % 2 ^ 64
  | 0x0F => if old = compare % 2 ^ 32 then operand % 2 ^ 32 else old
  | 0x10 => if old = compare % 2 ^ 64 then operand % 2 ^ 64 else old
  | 0x11 => onBits fp32 fmin old (operand % 2 ^ 32)
  | 0x12 => onBits fp32 fmax old (operand % 2 ^ 32)
  | 0x20 => eachElem 32 8 (onBits fp32 fadd) old operand
  | 0x21 => eachElem 16 16 (onBits bf16 fadd) old operand
  | 0x22 => eachElem 32 8 (onBits fp32 fmax) old operand
  | 0x23 => eachElem 32 8 (onBits fp32 fmin) old operand
  | 0x24 => eachElem 32 8 (fun a b => a + b) old operand
  | 0x25 => eachElem 16 16 (onBits bf16 fmax) old operand
  | _ => old

/-- An operation performed at the home (R236, R238, R239): every grove copy invalidated, the old value or the AUX of a MEMORY_ERROR
answered. -/
def performAtom (s : State) (code addr operand compare : Nat) : State × Except Nat Nat :=
  match atomSize code with
  | none => (s, .ok 0)
  | some n =>
    let line := addr / 64
    let s1 := lookLine (snoopInvalidate s line) line
    match poisonOf s1 line with
    | some src => (s1, .error (memErrAux line src))
    | none =>
      let old := leNat (memRead s1.mem.bytes addr n)
      let s2 := putLine (homeWrite s1 addr (leBytes n (atomNew code old operand compare))) line .u true
      (countD { s2 with canopy.atomics := s2.canopy.atomics + 1 } (homeDie addr) 0x44 1, .ok old)

/-- An operation may reach a home: its address exists (R230) and is aligned to the operand (R173). -/
def atomReaches (s : State) (code addr : Nat) : Bool :=
  match atomSize code with
  | some n => decide (addr % n = 0) && decide (addr + n ≤ usable s)
  | none => false

/-- One row of Table 15-5. -/
def atomRow (code : Nat) (a : AtomArgs) (s : State) : Out :=
  .next (if atomReaches s code a.addr.toNat then (performAtom s code a.addr.toNat a.operand.toNat a.compare.toNat).1 else s)

/-- ADD32 (R238). -/
def execAdd32 (a : AtomArgs) (s : State) : Out := atomRow 0x01 a s
/-- ADD64 (R238). -/
def execAdd64 (a : AtomArgs) (s : State) : Out := atomRow 0x02 a s
/-- FADD32 (R238). -/
def execFadd32 (a : AtomArgs) (s : State) : Out := atomRow 0x03 a s
/-- MIN32 (R238). -/
def execMin32 (a : AtomArgs) (s : State) : Out := atomRow 0x04 a s
/-- MAX32 (R238). -/
def execMax32 (a : AtomArgs) (s : State) : Out := atomRow 0x05 a s
/-- UMIN32 (R238). -/
def execUmin32 (a : AtomArgs) (s : State) : Out := atomRow 0x06 a s
/-- UMAX32 (R238). -/
def execUmax32 (a : AtomArgs) (s : State) : Out := atomRow 0x07 a s
/-- MIN64 (R238). -/
def execMin64 (a : AtomArgs) (s : State) : Out := atomRow 0x08 a s
/-- MAX64 (R238). -/
def execMax64 (a : AtomArgs) (s : State) : Out := atomRow 0x09 a s
/-- AND64 (R238). -/
def execAnd64 (a : AtomArgs) (s : State) : Out := atomRow 0x0A a s
/-- OR64 (R238). -/
def execOr64 (a : AtomArgs) (s : State) : Out := atomRow 0x0B a s
/-- XOR64 (R238). -/
def execXor64 (a : AtomArgs) (s : State) : Out := atomRow 0x0C a s
/-- SWAP32 (R238). -/
def execSwap32 (a : AtomArgs) (s : State) : Out := atomRow 0x0D a s
/-- SWAP64 (R238). -/
def execSwap64 (a : AtomArgs) (s : State) : Out := atomRow 0x0E a s
/-- CAS32 (R238). -/
def execCas32 (a : AtomArgs) (s : State) : Out := atomRow 0x0F a s
/-- CAS64 (R238). -/
def execCas64 (a : AtomArgs) (s : State) : Out := atomRow 0x10 a s
/-- FMIN32 (R238). -/
def execFmin32 (a : AtomArgs) (s : State) : Out := atomRow 0x11 a s
/-- FMAX32 (R238). -/
def execFmax32 (a : AtomArgs) (s : State) : Out := atomRow 0x12 a s
/-- RADD.F32 (R238). -/
def execRaddF32 (a : AtomArgs) (s : State) : Out := atomRow 0x20 a s
/-- RADD.BF16 (R238). -/
def execRaddBf16 (a : AtomArgs) (s : State) : Out := atomRow 0x21 a s
/-- RMAX.F32 (R238). -/
def execRmaxF32 (a : AtomArgs) (s : State) : Out := atomRow 0x22 a s
/-- RMIN.F32 (R238). -/
def execRminF32 (a : AtomArgs) (s : State) : Out := atomRow 0x23 a s
/-- RADD.I32 (R238). -/
def execRaddI32 (a : AtomArgs) (s : State) : Out := atomRow 0x24 a s
/-- RMAX.BF16 (R238). -/
def execRmaxBf16 (a : AtomArgs) (s : State) : Out := atomRow 0x25 a s

end Sys2Proof.Machine
end

