-- ==== Sys2Proof/Machine/Power.lean ====
section
/-! DEFINITION. Clock domains, the power cap, the thermal limit and autogating (R92–R95, R99–R101). -/
namespace Sys2Proof.Machine

/-- A grove domain (Table 6-2). -/
def isGroveDomain (n : Nat) : Bool := decide (n < 540) && decide (n % 90 < 72)

/-- A Thicket-pair domain (Table 6-2). -/
def isPairDomain (n : Nat) : Bool := decide (n < 540) && decide (72 ≤ n % 90) && decide (n % 90 < 80)

/-- A Canopy-slice domain (Table 6-2). -/
def isCanopyDomain (n : Nat) : Bool := decide (n < 540) && decide (n % 90 = 88)

/-- Stored DOMAIN_CTL of a domain (R92). -/
def domainCtl (s : State) (n : Nat) : Nat := dparam s (0x1200 + n / 128) (n % 128 + 1)

/-- The domain step that CAP_STEP or THERMAL_STEP maps to (Table 6-4a). -/
def mappedStep (n p : Nat) : Nat :=
  if isGroveDomain n then (if p < 5 then p else 4)
  else if isPairDomain n then (if p < 5 then 0 else 1) else 0

/-- DIV_NOW (R93): the slowest of DIV_MAX and the steps that the cap and the thermal limit map to. -/
def divNow (s : State) (n : Nat) : Nat :=
  max (if isGroveDomain n || isPairDomain n then field (domainCtl s n) 2 0 else 0)
    (max (mappedStep n s.power.capStep) (mappedStep n s.power.thermStep))

/-- The valid steps of a domain (R93, Table 6-4). -/
def divMaxValid (n v : Nat) : Bool :=
  if isGroveDomain n then decide (v ≤ 4) else if isPairDomain n then decide (v ≤ 1) else true

/-- Root-PLL cycles per cycle of a grove domain at a step (Table 6-4). -/
def groveDivider (step : Nat) : Nat := lget 12 [3, 4, 6, 8, 12] step

/-- A grove in no enabled partition's set that none of its moves concerns: it stays powered, loaded and clock-gated (R290). -/
def groveIdle (s : State) (g : Nat) : Bool :=
  (partOfGrove s g).isNone && (sfind s.groves.leaving g).isNone && (sfind s.groves.departing g).isNone && (sfind s.groves.joining g).isNone

/-- GATED (Table 6-3): the domain's clock is stopped by autogating, by a power gate, in no partition, by sleep or by the thermal trip. -/
def domainGated (s : State) (n : Nat) : Bool :=
  s.power.autogated.contains n ||
  (isGroveDomain n && (s.groves.gated.contains (72 * (n / 90) + n % 90) || groveIdle s (72 * (n / 90) + n % 90))) ||
  (decide (s.power.mode = .idle) && (isGroveDomain n || isPairDomain n || isCanopyDomain n)) ||
  (decide (s.power.mode = .dormant) && !(decide (n = 542) && decide (s.und.primary = 0) || decide (n = 543) && decide (s.und.primary = 3))) ||
  (s.pins.tripped && !(decide (n = 542) || decide (n = 543)))

/-- The hottest sensor of the device, in 1/16 °C. -/
def hottest (s : State) : Int := s.power.tj.foldl (fun a t => max a t.toInt) (-32768)

/-- TJ_THROTTLE in 1/16 °C. -/
def throttle (s : State) : Int := 16 * Int.ofNat (dparam s 0x1210 7)

/-- CAP_STEP given a value: CAP_LIMITING follows it, and its rise raises source 0x004 (R99). -/
def setCapStep (s : State) (v : Nat) : State :=
  let s1 := { s with power.capStep := v, power.capLimiting := decide (0 < v) }
  if !s.power.capLimiting && decide (0 < v) then raise s1 0x004 else s1

/-- THERMAL_STEP given a value: THERMAL_LIMITING follows it, and its rise raises source 0x003 (R101). -/
def setThermStep (s : State) (v : Nat) : State :=
  let s1 := { s with power.thermStep := v, power.thermLimiting := decide (0 < v) }
  if !s.power.thermLimiting && decide (0 < v) then raise s1 0x003 else s1

/-- A reading of a die's hottest sensor (R28). -/
def setTj (s : State) (die : Nat) (t : BitVec 16) : State := { s with power.tj := lset s.power.tj die t }

/-- The slowest operating point: every grove domain at step 4 and every Thicket pair at ÷8, whatever holds them there (R93, R100). -/
def atSlowest (s : State) : Bool :=
  (List.range 540).all (fun n => if isGroveDomain n then decide (divNow s n = 4) else if isPairDomain n then decide (divNow s n = 1) else true)

/-- CAP_UNATTAINABLE as an average leaves it (R100): set when the cap is exceeded at the slowest operating point, clear below the cap. -/
def judgeCap (s : State) : State :=
  if s.power.powerNow < dparam s 0x1220 1 then { s with power.capUnattainable := false }
  else if dparam s 0x1220 1 < s.power.powerNow ∧ atSlowest s = true then { s with power.capUnattainable := true } else s

/-- CAP_STEP one higher, up to 5 (R99). -/
def raiseCap (s : State) : State := if s.power.capStep < 5 then setCapStep s (s.power.capStep + 1) else s

/-! ## Self-refresh of the LPDDR array (R245) -/

/-- The ranks of a port: 2 × channel + rank. -/
def portRanks (s : State) : List Nat := (List.range 8).filter (fun k => decide (k % 2 < s.mem.ranks))

/-- Every memory port changed in one way. -/
def everyPort (s : State) (f : MPort → MPort) : State :=
  { s with ports := (List.range 48).foldl (fun m p => sset {} m p (f (mport s p))) s.ports }

/-- Every port issues an all-bank refresh and enters self-refresh; WCK stops. -/
def enterSelfRefresh (s : State) : State :=
  everyPort s (fun x =>
    { x with refreshed := x.refreshed + 16 * (portRanks s).length, refreshedAt := s.time.clock, selfRefresh := portRanks s, wckSynced := [] })

/-- Every port leaves self-refresh and resynchronises WCK before its first access. -/
def leaveSelfRefresh (s : State) : State := everyPort s (fun x => { x with selfRefresh := [], wckSynced := portRanks s })

/-! ## Work and wakes (R102, R105) -/

/-- A wake sampled with a cause: before the commit point it aborts the entry; in IDLE it ends IDLE; during a committed entry it is
remembered (R105, Table 6-7), and in DORMANT exit begins. Causes: 1 DIRECTORY, 2 PERST, 3 GPIO, 4 TIMER, 5 WORK. -/
def wake (s : State) (cause : Nat) : State :=
  if s.power.entry.isSome then
    { s with power.entry := none, power.sleepOutcome := 2, power.wakeCause := cause }
  else if s.power.committed.isSome then { s with power.wakeAfter := true, power.wakeCause := cause }
  else match s.power.mode with
    | .idle => leaveSelfRefresh { s with power.mode := .running, power.lpddrSleep := 0, power.wakeCause := cause }
    | .dormant => if s.power.wakeAfter then s else { s with power.wakeAfter := true, power.wakeCause := cause }
    | .running => s

/-- Work arrives (R102): a doorbell, a mailbox request, a directory commit or a fabric operation. Past the commit point of an entry
to DORMANT it is not a wake. -/
def workArrives (s : State) : State :=
  if s.power.committed.isSome || decide (s.power.mode = .dormant) then s else wake s 5

/-- THERMAL_STEP_RAISE: 100 µs above TJ_THROTTLE (R101). -/
def execThermalStepRaise (die : Fin 6) (tj : BitVec 16) (s : State) : Out :=
  let s1 := setTj s die tj
  .next (if throttle s1 < hottest s1 ∧ s1.power.thermStep < 5 then setThermStep s1 (s1.power.thermStep + 1) else s1)

/-- THERMAL_STEP_LOWER: 1 ms below TJ_THROTTLE − 3 °C (R101). -/
def execThermalStepLower (die : Fin 6) (tj : BitVec 16) (s : State) : Out :=
  let s1 := setTj s die tj
  .next (if hottest s1 < throttle s1 - 48 ∧ 0 < s1.power.thermStep then setThermStep s1 (s1.power.thermStep - 1) else s1)

/-- The 1 ms average over the samples held. -/
def averageOf (l : List Nat) : Nat := if l.isEmpty then 0 else l.sum / l.length

/-- POWER_SAMPLE: a 10 µs sample enters the 1 ms average, by which CAP_UNATTAINABLE is judged (R100); above 1,020 W the step rises at
once (R99). -/
def execPowerSample (watts : Nat) (s : State) : Out :=
  let l := (watts :: s.power.samples).take 100
  let s1 := { s with power.samples := l, power.powerNow := averageOf l }
  let s2 := judgeCap s1
  .next (if 1020 < watts then raiseCap s2 else s2)

/-- CAP_STEP_RAISE: the average has exceeded the cap for its delay (R99). -/
def execCapStepRaise (s : State) : Out :=
  .next (if dparam s 0x1220 1 < s.power.powerNow then raiseCap (judgeCap s) else s)

/-- CAP_STEP_LOWER: the average has stayed below 97 % of the cap for 1 ms (R99). -/
def execCapStepLower (s : State) : Out :=
  .next (if 100 * s.power.powerNow < 97 * dparam s 0x1220 1 ∧ 0 < s.power.capStep then setCapStep s (s.power.capStep - 1) else s)

/-- AUTOGATE_STOP: 256 idle cycles of a domain whose AUTOGATE is 1 (R95). -/
def execAutogateStop (dom : Fin 544) (s : State) : Out :=
  .next (if (isGroveDomain dom || isPairDomain dom) && bitOf (domainCtl s dom) 3
    then { s with power.autogated := insertNat s.power.autogated dom } else s)

/-- AUTOGATE_WAKE: work restarts the domain's clock (R95). -/
def execAutogateWake (dom : Fin 544) (s : State) : Out :=
  .next { s with power.autogated := s.power.autogated.filter (fun n => decide (n ≠ dom.val)) }

end Sys2Proof.Machine
end

