-- ==== Sys2Proof/Machine/Operands.lean ====
section
/-!
DEFINITION. Operand forms: ring configuration, handles and relocation, command bodies and their checks, routes (R124, R130–R137, R214,
R221, R251, R271).
-/
namespace Sys2Proof.Machine

/-! ## Routes -/

/-- The 16-bit routing-table entry of a fabric address in an epoch (R271, Table 17-3). -/
def routeEntry (s : State) (epoch addr : Nat) : Nat :=
  let i := addr - 1
  field (dparam s 0x5005 (4 * epoch + i / 1024 + 1)) (16 * (i % 1024) + 15) (16 * (i % 1024))

/-- The port a flit to an address leaves by: PORT if usable, else the lowest usable port in ALT (R271); 14 is local. -/
def routePort (s : State) (epoch addr : Nat) : Option Nat :=
  let e := routeEntry s epoch addr
  let p := field e 3 0
  if addr = dparam s 0x5001 2 then some 14
  else if p = 14 ∨ s.fab.usable.contains p then some p
  else firstBelow (fun q => bitOf e (4 + q) && s.fab.usable.contains q) 12

/-- A route to a device exists (R138): never in Solo, never to an address outside 1 to 4,096, and never while this device has no address,
which its flits would carry (R268). -/
def hasRoute (s : State) (addr : Nat) : Bool :=
  !solo s && decide (dparam s 0x5001 2 ≠ 0) && decide (1 ≤ addr) && decide (addr ≤ 4096) && (routePort s s.fab.epoch addr).isSome

/-! ## Rings -/

/-- FIRST and COUNT of a partition's ring allotment (R123). -/
def ringFirst (s : State) (p : Nat) : Nat := field (param s 0x2001 1 p) 11 0
def ringCount (s : State) (p : Nat) : Nat := field (param s 0x2001 1 p) 24 12

/-- Stored RING_CFG of local ring `l` (R124). -/
def ringCfg (s : State) (p l : Nat) : Nat := param s (0x2100 + l / 128) (l % 128 + 1) p

/-- The ring record of a device ring. -/
def ringOf (s : State) (r : Nat) : Option Ring := sfind s.trail.rings r

/-- A ring changed. -/
def modRing (s : State) (r : Nat) (f : Ring → Ring) : State := { s with trail.rings := smod s.trail.rings r f }

/-- Depth of a ring. -/
def depth (r : Ring) : Nat := 2 ^ r.log2

/-- Commands of a ring fetched and without a record: the CQ slots reserved (R129). -/
def reserved (s : State) (r : Nat) : Nat := (s.trail.cmds.filter (fun c => decide (c.ring = r))).length

/-- The CQ has a slot that is neither used nor reserved (R129). -/
def slotFree (s : State) (r : Nat) (ring : Ring) : Bool :=
  decide ((ring.cqTail - ring.cqHead).toNat + reserved s r < depth ring)

/-- A partition has an enabled ring. -/
def anyRingEnabled (s : State) (p : Nat) : Bool :=
  s.trail.rings.any (fun q => decide (q.2.part = p) && (decide (q.2.state = 1) || decide (q.2.state = 3)))

/-! ## Handles -/

/-- HTAB_SIZE of a partition (R132). -/
def htabSize (s : State) (p : Nat) : Nat := param s 0x2003 1 p

/-- The fields of a handle (R132). -/
def hGen (h : Nat) : Nat := field h 27 20
def hIndex (h : Nat) : Nat := field h 19 0

/-- The key of a handle-table entry. -/
def hKey (p i : Nat) : Nat := p * 2 ^ 20 + i

/-- An entry that no command has set since the partition's table was initialised or cleared as a whole (R132, R287). -/
def blankEntry (s : State) (p : Nat) : HEntry := { gen := sget 0 s.trail.clears p % 255 + 1 }

/-- An entry of a partition's handle table. -/
def hEntry (s : State) (p i : Nat) : HEntry := sget (blankEntry s p) s.trail.handles (hKey p i)

/-- An entry written. -/
def setHEntry (s : State) (p i : Nat) (e : HEntry) : State :=
  { s with trail.handles := sset (blankEntry s p) s.trail.handles (hKey p i) e }

/-- The device address of a handle-table entry (R230). -/
def htabAddr (s : State) (p i : Nat) : Nat := usable s - 2304 * 2 ^ 20 + 2 ^ 25 * p + 32 * i

/-- TABLE_DESC of a slot, and its fields (R211, Table 14-2). -/
def tableDesc (s : State) (p slot : Nat) : Nat := param s (0x3810 + slot / 128) (slot % 128 + 1) p
def tdRows (d : Nat) : Nat := field d 31 0
def tdElems (d : Nat) : Nat := field d 47 32
def tdFormat (d : Nat) : Nat := field d 55 48
def tdFault (d : Nat) : Bool := bitOf d 56
def tdPrefetch (d : Nat) : Bool := bitOf d 57
def tdValid (d : Nat) : Bool := bitOf d 58

/-- The bytes that `n` elements take in a row format (R198): FP32, BF16, E4M3, E5M2, INT8, INT4. -/
def elemBytes (fmt n : Nat) : Nat :=
  match fmt with
  | 0 => 4 * n
  | 1 => 2 * n
  | 5 => (n + 1) / 2
  | _ => n

/-- STRIDE of a table (R211). -/
def tdStride (d : Nat) : Nat := 16 + elemBytes (tdFormat d) (tdElems d)

/-- Handle kinds (Table 8-5). -/
def kBuffer : Nat := 1
def kTable : Nat := 2
def kGraph : Nat := 3
def kStand : Nat := 4
def kModel : Nat := 5
def kHostbuf : Nat := 6

/-- Status codes (Table 8-8). -/
def stOk : Nat := 0x00
def stDuplicate : Nat := 0x01
def stSeqGap : Nat := 0x02
def stDoorbell : Nat := 0x03
def stFetchError : Nat := 0x04
def stBadOpcode : Nat := 0x05
def stBadField : Nat := 0x06
def stBadHandle : Nat := 0x07
def stStale : Nat := 0x08
def stKind : Nat := 0x09
def stRights : Nat := 0x0A
def stBounds : Nat := 0x0B
def stInUse : Nat := 0x0C
def stOutOfPart : Nat := 0x0D
def stUnreachable : Nat := 0x0E
def stTimeout : Nat := 0x0F
def stRingFull : Nat := 0x10
def stRemoteDenied : Nat := 0x11
def stAborted : Nat := 0x12
def stIndexFault : Nat := 0x13
def stDeadlock : Nat := 0x14
def stStandState : Nat := 0x15
def stUnitFault : Nat := 0x16
def stMemoryError : Nat := 0x17

/-- Every valid KIND, which HANDLE_CLEAR's field accepts (Table 8-4a). -/
def anyKind : List Nat := [1, 2, 3, 4, 5, 6]

/-- Whether a kind is right for a field, with the extra rules of TABLE and MODEL handles, which HANDLE_CLEAR's field has not (R134, R211). -/
def kindOk (s : State) (p : Nat) (e : HEntry) (kinds : List Nat) : Bool :=
  kinds.contains e.kind &&
  (decide (kinds = anyKind) || (decide (e.kind ≠ kTable) || (decide (e.object < 256) && tdValid (tableDesc s p e.object))) &&
    (decide (e.kind ≠ kModel) || decide (e.object < 16)))

/-- Relocation of a handle with an offset and a length (R134): the entry, or a status and the AUX of a MEMORY_ERROR. -/
def relocate (s : State) (p h : Nat) (kinds : List Nat) (rd wr : Bool) (off len : Nat) : Except (Nat × Nat) HEntry :=
  let i := hIndex h
  if i = 0 ∨ htabSize s p ≤ i then .error (stBadHandle, 0)
  else match poisonOf s (htabAddr s p i / 64) with
    | some src => .error (stMemoryError, memErrAux (htabAddr s p i / 64) src)
    | none =>
      let e := hEntry s p i
      if !e.valid || decide (e.gen ≠ hGen h) then .error (stStale, 0)
      else if !kindOk s p e kinds then .error (stKind, 0)
      else if (rd && !bitOf e.rights 0) || (wr && !bitOf e.rights 1) then .error (stRights, 0)
      else if e.length < off + len then .error (stBounds, 0)
      else .ok e

/-! ## Command bodies -/

/-- Bytes `hi` to `lo` of an entry. -/
def cf (e hi lo : Nat) : Nat := field e (8 * hi + 7) (8 * lo)

/-- OPCODE and FLAGS of an entry (Table 8-3). -/
def opcodeOf (e : Nat) : Nat := cf e 8 8
def fenceOf (e : Nat) : Bool := bitOf e 72

/-- Opcodes of Table 8-4. -/
def opcodes : List Nat := [0x01, 0x08, 0x09, 0x10, 0x11, 0x12, 0x13, 0x14, 0x20, 0x30, 0x31, 0x32, 0x40, 0x50, 0x51]

/-- One handle field of a command (Table 8-4a): its byte offset, the kinds it accepts, the rights it needs, and the range. -/
structure HField where
  off : Nat
  kinds : List Nat
  rd : Bool
  wr : Bool
  required : Bool
  at_ : Nat
  len : Nat
  deriving DecidableEq, Repr

/-- The table slot that a TABLE handle of a command names, as far as its entry tells. -/
def slotOfHandle (s : State) (p h : Nat) : Nat := (hEntry s p (hIndex h)).object

/-- The length a GATHER's OUT must cover (R216). `d` is the table's descriptor. -/
def gatherOutLen (d pool count nbags : Nat) : Nat :=
  let op := field pool 2 0
  let out := field pool 5 4
  let vb := tdElems d * (if out = 0 then 4 else 2)
  if op = 0 then count * (if out = 2 then tdStride d else vb) + 8 * ((count + 63) / 64)
  else nbags * (vb + 8)

/-- The handle fields of a GATHER body over a table with a descriptor (R211, R214). -/
def gatherFields (td e : Nat) : List HField :=
  [⟨16, [kTable], true, false, true, 0, tdRows td * tdStride td⟩,
   ⟨20, [kBuffer], true, false, true, cf e 31 24, 4 * cf e 35 32⟩,
   ⟨36, [kBuffer], true, false, false, 0, 4 * cf e 43 40⟩,
   ⟨44, [kBuffer], true, false, false, 0, 4 * cf e 35 32⟩,
   ⟨48, [kBuffer, kHostbuf], false, true, true, cf e 59 52, gatherOutLen td (cf e 60 60) (cf e 35 32) (cf e 43 40)⟩]

/-- The handle fields of a command in ascending byte offset, with their relocation ranges (Table 8-4a, R211, R214, R221, R251). -/
def handleFields (s : State) (p e : Nat) : List HField :=
  let td := tableDesc s p (slotOfHandle s p (cf e 19 16))
  match opcodeOf e with
  | 0x09 => [⟨16, anyKind, false, false, true, 0, 0⟩]
  | 0x10 => [⟨16, [kStand], true, true, true, 0, 0⟩, ⟨20, [kModel], true, false, true, 0, 0⟩, ⟨24, [kBuffer], true, true, false, 0, 0⟩]
  | 0x11 => [⟨16, [kStand], true, true, true, 0, 0⟩, ⟨20, [kBuffer], true, false, false, cf e 31 24, cf e 35 32⟩,
             ⟨36, [kBuffer, kHostbuf], false, true, true, cf e 47 40, cf e 51 48⟩]
  | 0x12 => [⟨16, [kStand], true, true, true, 0, 0⟩]
  | 0x13 => [⟨16, [kStand], true, true, true, 0, 0⟩]
  | 0x14 => [⟨16, [kModel], true, true, true, 0, cf e 39 32⟩, ⟨20, [kBuffer, kHostbuf, kModel], true, false, true, cf e 31 24, cf e 39 32⟩,
             ⟨40, [kModel], true, false, false, 0, 0⟩]
  | 0x20 => [⟨16, [kGraph], true, false, true, 0, 0⟩, ⟨20, [kBuffer, kHostbuf], true, false, false, cf e 31 24, cf e 35 32⟩,
             ⟨36, [kBuffer, kHostbuf], false, true, false, 0, 0⟩]
  | 0x30 => gatherFields td e
  | 0x31 => [⟨16, [kTable], false, true, true, 0, tdRows td * tdStride td⟩,
             ⟨32, [kBuffer, kHostbuf], true, false, true, cf e 43 36, tdStride td⟩]
  | 0x32 => [⟨16, [kTable], true, false, true, 0, tdRows td * tdStride td⟩, ⟨20, [kBuffer], true, false, true, 0, 4 * cf e 27 24⟩]
  | 0x40 => [⟨16, [kBuffer, kHostbuf], true, false, true, cf e 31 24, cf e 47 40⟩,
             ⟨20, [kBuffer, kHostbuf], false, true, true, cf e 39 32, cf e 47 40⟩]
  | 0x50 => [⟨20, [kBuffer, kHostbuf], true, false, true, cf e 31 24, 64⟩]
  | _ => []

/-- The value rules of a GATHER body, as (byte offset, broken) in ascending offset (R214). -/
def gatherRules (e : Nat) : List (Nat × Bool) :=
  let op := cf e 60 60 % 8
  let out := field (cf e 60 60) 5 4
  let nb := cf e 43 40
  let bags := cf e 39 36 % 2 ^ 28
  let w := cf e 47 44 % 2 ^ 28
  [(24, decide (cf e 31 24 % 4 ≠ 0)), (32, decide (16777216 < cf e 35 32)),
   (36, if op = 0 then decide (bags ≠ 0) else decide (bags = 0) && decide (nb ≠ 1)),
   (40, if op = 0 then decide (nb ≠ 0) else decide (nb = 0) || decide (1048576 < nb)),
   (44, if op = 3 then decide (w = 0) else decide (w ≠ 0)),
   (52, decide (cf e 59 52 % 64 ≠ 0)),
   (60, decide (5 ≤ op) || decide (out = 3) || (decide (out = 2) && decide (op ≠ 0)) || bitOf e (8 * 60 + 3) || decide (field e (8 * 60 + 7) (8 * 60 + 6) ≠ 0))]

/-- The value rules of a command body, as (byte offset, broken) (R135 step 3 and the defining chapters). -/
def fieldRules (s : State) (p e : Nat) : List (Nat × Bool) :=
  let req := ((handleFields s p e).filter (·.required)).map (fun f => (f.off, decide (cf e (f.off + 3) f.off % 2 ^ 28 = 0)))
  let own := match opcodeOf e with
    | 0x08 => [(16, decide (field (cf e 19 16) 19 0 = 0) || decide (htabSize s p ≤ field (cf e 19 16) 19 0)),
               (40, decide (cf e 40 40 = 0) || decide (6 < cf e 40 40))]
    | 0x20 => [(32, decide (4096 < cf e 35 32))]
    | 0x30 => gatherRules e
    | 0x31 => [(36, decide (cf e 43 36 % 16 ≠ 0))]
    | 0x32 => [(24, decide (1048576 < cf e 27 24) || (decide (cf e 27 24 = 0) && decide (cf e 28 28 ≠ 2))),
               (28, decide (2 < cf e 28 28))]
    | 0x50 => [(24, decide (cf e 31 24 % 64 ≠ 0))]
    | _ => []
  req ++ own

/-- The first field in ascending byte offset that breaks its rule. -/
def badField (s : State) (p e : Nat) : Option Nat :=
  (fieldRules s p e).foldl (fun a q => if q.2 then (match a with
    | none => some q.1
    | some b => some (Nat.min b q.1)) else a) none

/-- The relocations of a command, or the first failure in ascending byte offset (R135 step 4); a field of 0 is none. -/
def relocateAll (s : State) (p e : Nat) : List HField → Except CmdResult (List Reloc)
  | [] => .ok []
  | f :: fs =>
    let h := cf e (f.off + 3) f.off
    if h % 2 ^ 28 = 0 then relocateAll s p e fs
    else match relocate s p h f.kinds f.rd f.wr f.at_ f.len with
      | .error (st, aux) => .error ⟨st, if st = stMemoryError then aux else f.off, 0⟩
      | .ok en => match relocateAll s p e fs with
        | .error r => .error r
        | .ok rs => .ok (⟨f.off, hIndex h, en, if en.kind = kTable then tableDesc s p en.object else 0⟩ :: rs)

/-- The opcode checks (R135 step 5): HANDLE_IN_USE, OUT_OF_PARTITION, UNREACHABLE. -/
def opcodeCheck (s : State) (p e : Nat) : Option Nat :=
  match opcodeOf e with
  | 0x08 =>
    if (hEntry s p (field (cf e 19 16) 19 0)).valid then some stInUse
    else if cf e 40 40 ≠ kHostbuf ∧ field (cf e 39 32) 43 0 ≠ 0 ∧ !inPartMem s p (field (cf e 31 24) 47 0) (field (cf e 39 32) 43 0) then some stOutOfPart
    else none
  | 0x50 => if hasRoute s (cf e 17 16) then none else some stUnreachable
  | 0x51 => if hasRoute s (cf e 17 16) then none else some stUnreachable
  | _ => none

/-- Steps 4 and 5 of R135. -/
def checkHandles (s : State) (p e : Nat) : Except CmdResult (List Reloc) :=
  match relocateAll s p e (handleFields s p e) with
  | .error r => .error r
  | .ok rs => match opcodeCheck s p e with
    | some st => .error ⟨st, 0, 0⟩
    | none => .ok rs

end Sys2Proof.Machine
end

