-- ==== Sys2Proof/Machine/FabricLink.lean ====
section
/-!
DEFINITION. The sending side of the fabric: flits and their checks, credits, the retry buffer, and operations with their sequence
numbers (R265–R267, R271, R275, R277).
-/
namespace Sys2Proof.Machine

/-- The device's fabric address. -/
def fabAddr (s : State) : Nat := dparam s 0x5001 2

/-- A fabric port. -/
def fport (s : State) (p : Nat) : FPort := sget {} s.fab.ports p
def modPort (s : State) (p : Nat) (f : FPort → FPort) : State := { s with fab.ports := sput s.fab.ports p (f (fport s p)) }

/-- FAB_STATS counter raised. -/
def fabStat (s : State) (k : Nat) : State := { s with fab.stats := lset s.fab.stats k (lget 0 s.fab.stats k + 1) }

/-- One bit of the CRC-16 with polynomial 0x1021. -/
def crc16Bit (c : Nat) : Nat := (2 * c % 65536) ^^^ (0x1021 * (c / 32768 % 2))

/-- One byte of it, most significant bit first. -/
def crc16Byte (c : Nat) (b : Byte) : Nat :=
  crc16Bit (crc16Bit (crc16Bit (crc16Bit (crc16Bit (crc16Bit (crc16Bit (crc16Bit (c ^^^ (256 * b.toNat)))))))))

/-- The CRC-16 of a list of bytes from a value; the value is matched, so that it is a number before the next byte. -/
def crc16From : List Byte → Nat → Nat
  | [], c => c
  | b :: l, 0 => crc16From l (crc16Byte 0 b)
  | b :: l, c + 1 => crc16From l (crc16Byte (c + 1) b)

/-- The CRC-16 of a list of bytes, initial value 0xFFFF (Table 17-3). -/
def crc16 (bs : List Byte) : Nat := crc16From bs 0xFFFF

/-- The bytes that a flit's CRC covers: bytes 13:0 and the payload. -/
def crcBytes (f : Nat) : List Byte := leBytes 14 f ++ leBytes 112 (f >>> 128)

/-- A flit's CRC is right. -/
def crcOk (f : BitVec 1024) : Bool := decide (field f.toNat 127 112 = crc16 (crcBytes f.toNat))

/-- Fields of a flit header (Table 17-3). -/
def flLseq (f : Nat) : Nat := field f 11 0
def flKind (f : Nat) : Nat := field f 15 12
def flAck (f : Nat) : Nat := field f 27 16
def flNak (f : Nat) : Bool := bitOf f 28
def flCvc (f : Nat) : Nat := field f 31 30
def flCredits (f : Nat) : Nat := field f 39 32
def flVc (f : Nat) : Nat := field f 41 40
def flProv (f : Nat) : Bool := bitOf f 42
def flFirst (f : Nat) : Bool := bitOf f 43
def flEpoch (f : Nat) : Nat := field f 44 44
def flDst (f : Nat) : Nat := field f 63 48
def flSrc (f : Nat) : Nat := field f 79 64
def flTicket (f : Nat) : Nat := field f 103 80
def flHops (f : Nat) : Nat := field f 111 104
def flPayload (f : Nat) : List Byte := leBytes 112 (f >>> 128)

/-- An OP flit before the link fields are filled in. -/
def mkFlit (vc : Nat) (prov first : Bool) (epoch dst src ticket hops : Nat) (payload : List Byte) : BitVec 1024 :=
  BitVec.ofNat 1024 ((1 <<< 12) + (vc <<< 40) + bitAt prov 42 + bitAt first 43 + (epoch <<< 44) + (dst <<< 48) + (src <<< 64) +
    (ticket <<< 80) + (hops <<< 104) + (leNat (bytesAt payload 0 112) <<< 128))

/-- A flit with LSEQ, ACK, CREDITS and CRC for the link (Table 17-3). -/
def stamp (x : FPort) (lseq : Nat) (f : BitVec 1024) : BitVec 1024 :=
  let cvc := (firstBelow (fun v => decide (0 < lget 0 x.owed v)) 4).getD 0
  let n := putField (putField (putField (putField (putField f.toNat 11 0 lseq) 27 16 x.rxSeq) 28 28 (if x.nak then 1 else 0)) 31 30 cvc)
    39 32 (Nat.min 255 (lget 0 x.owed cvc))
  BitVec.ofNat 1024 (putField n 127 112 (crc16 (crcBytes n)))

/-- The bits of a flit as it goes on the link: the payload of a DISC flit is the open value of its draw. -/
def flitBits (f : LFlit) : BitVec 1024 :=
  if flKind f.flit.toNat = 2 then BitVec.ofNat 1024 (f.flit.toNat % 2 ^ 128 + ((Config.freeBits f.draw % 2 ^ 896) <<< 128)) else f.flit

/-- What returning credits, an ACK and a NAK in a flit leaves to return. -/
def stamped (x : FPort) : FPort :=
  let cvc := (firstBelow (fun v => decide (0 < lget 0 x.owed v)) 4).getD 0
  { x with nak := false, ackDue := false, owed := lset x.owed cvc (lget 0 x.owed cvc - Nat.min 255 (lget 0 x.owed cvc)) }

/-- An IDLE flit sent: it carries ACK, NAK and CREDITS alone, and takes no LSEQ (R266). -/
def sendIdle (x : FPort) : FPort := { stamped x with sent := stamp x 0 0 :: x.sent }

/-- NFLITS of an operation's first flit. -/
def flCount (f : Nat) : Nat := field f (128 + 95) (128 + 80)

/-- A waiting flit may be the next of its virtual channel: a credit is held, and the channel is not in the middle of another
operation (R266). -/
def flitMayGo (x : FPort) (f : LFlit) : Bool :=
  let vc := flVc f.flit.toNat
  decide (0 < lget 0 x.credits vc) && (match sfind x.busy vc with
    | some (src, _) => decide (flSrc f.flit.toNat = src) && !flFirst f.flit.toNat
    | none => true)

/-- The operation a virtual channel is in the middle of after a flit has gone out. -/
def busyAfter (b : Sparse (Nat × Nat)) (f : Nat) : Sparse (Nat × Nat) :=
  let vc := flVc f
  match sfind b vc with
  | some (src, n) => if n ≤ 1 then sdel b vc else sput b vc (src, n - 1)
  | none => if flFirst f ∧ 1 < flCount f then sput b vc (flSrc f, flCount f - 1) else b

/-- One waiting flit goes out: the first whose virtual channel may send, with room in the retry buffer (R266, R267). -/
def sendOne (x : FPort) : Option (FPort × LFlit) :=
  if x.state ≠ 2 ∨ 512 ≤ x.retry.length then none
  else match x.waiting.find? (flitMayGo x) with
    | none => none
    | some f =>
      let vc := flVc f.flit.toNat
      some ({ stamped x with waiting := x.waiting.erase f, lseq := (x.lseq + 1) % 4096, retry := x.retry ++ [(x.lseq, f)],
                             sent := stamp x x.lseq (flitBits f) :: x.sent, busy := busyAfter x.busy f.flit.toNat,
                             credits := lset x.credits vc (lget 0 x.credits vc - 1) }, f)

/-- Waiting flits go out while they can, and which did; the list bounds the steps. -/
def sendAll (x : FPort) : List LFlit → FPort × List LFlit
  | [] => (x, [])
  | _ :: fuel => match sendOne x with
    | some (y, f) => let r := sendAll y fuel; (r.1, f :: r.2)
    | none => (x, [])

/-- A port sends what it can; the messages of DISC and TIME flits are then on the link. -/
def pump (s : State) (p : Nat) : State :=
  let x := fport s p
  let r := sendAll x x.waiting
  let n := r.2.length
  let s1 := { s with fab.ports := sput s.fab.ports p r.1, fab.msgs := (r.2.filterMap (·.msg)).reverse ++ s.fab.msgs }
  countE (countE s1 3 p 0 n) 3 p 2 (112 * n)

/-- A flit put into a port's queue, and what can go sent. -/
def queueFlit (s : State) (p : Nat) (f : LFlit) : State := pump (modPort s p (fun x => { x with waiting := x.waiting ++ [f] })) p

/-- A DISC flit with a message (R266, R268): VC 3, link-local. `op`: the operation of this device that it belongs to. -/
def sendDiscFlit (s : State) (p : Nat) (m : FabMsg) (op : Nat := 0) : State :=
  let f := BitVec.ofNat 1024 ((2 <<< 12) + (3 <<< 40) + bitAt true 43 + (s.fab.epoch <<< 44) + (dparam s 0x5001 2 <<< 64) + (dparam s 0x5001 4 <<< 104))
  queueFlit { s with free := s.free + 1 } p ⟨op, f, some m, s.free⟩

/-- An IDLE flit where credits, an ACK or a NAK are still to go back and no other flit has taken them (R266, R267). -/
def idleIfDue (s : State) (p : Nat) : State :=
  let x := fport s p
  if x.state = 2 ∧ (x.nak ∨ x.ackDue ∨ x.owed.any (0 < ·)) then modPort s p sendIdle else s

/-- A flit routed in an epoch: into a port's queue, or into the transit queue where flits for the device itself are taken
(R271). None where there is no route. -/
def routeFlit (s : State) (epoch : Nat) (f : BitVec 1024) (op : Nat := 0) : Option State :=
  match routePort s epoch (flDst f.toNat) with
  | none => none
  | some p => if p = 14 then some (modPort s 0 (fun x => { x with transit := x.transit ++ [⟨14, f, s.time.clock⟩] }))
    else if p < 12 then some (queueFlit s p ⟨op, f, none, 0⟩) else none

/-- Pieces of a list of bytes: 88 bytes, then 112 at a time; the number bounds them. -/
def pieces : Nat → Nat → List Byte → List (List Byte)
  | 0, _, _ => []
  | n + 1, k, bs => if bs.length ≤ k then [bs] else bs.take k :: pieces n 112 (bs.drop k)

/-- The virtual channel of an operation code (Table 17-4). -/
def opVc (opc : Nat) : Nat :=
  if opc = 0x80 then 1 else if 8 ≤ opc ∧ opc ≤ 0x0A then 2 else if opc = 7 ∨ (0x0B ≤ opc ∧ opc ≤ 0x0D) then 3 else 0

/-- The 24-byte operation header (Table 17-4). -/
def opHeader (oseq opc part nfl len sinc dinc arg : Nat) : List Byte :=
  leBytes 8 oseq ++ leBytes 1 opc ++ leBytes 1 part ++ leBytes 2 nfl ++ leBytes 2 len ++ leBytes 2 sinc ++ leBytes 2 dinc ++ leBytes 2 0 ++
  leBytes 4 arg

/-- The flits of an operation, routed by the active epoch; unchanged where there is no route, and from a device with no address, which its
flits would carry (R268). -/
def sendFlits (s : State) (dest oseq opc part arg ticket : Nat) (prov : Bool) (data : List Byte) : State :=
  if fabAddr s = 0 then s else
  let ps := pieces 40 88 data
  let dinc := if opc = 0x0D then 0 else (((sget {} s.fab.peers dest).inc).getD 0).toNat
  let hdr := opHeader oseq opc part ps.length data.length s.seed.incarnation.toNat dinc arg
  let hops := dparam s 0x5001 4
  let fl := ps.zipIdx.map (fun q => mkFlit (opVc opc) prov (q.2 = 0) s.fab.epoch dest (fabAddr s) ticket hops (if q.2 = 0 then hdr ++ q.1 else q.1))
  fl.foldl (fun s f => (routeFlit s s.fab.epoch f oseq).getD s) s

/-- A destination. -/
def peerOf (s : State) (d : Nat) : Peer := sget {} s.fab.peers d

/-- Operations to a destination that are sent and unanswered. -/
def unanswered (s : State) (d : Nat) : Nat := (s.fab.out.filter (fun o => decide (o.dest = d) && o.sent)).length

/-- Operations to a destination that may go out do: once its incarnation is known, and with fewer than 1,024 unanswered (R275,
R277). A PROBE never waits for the incarnation. -/
def startOps (s : State) (d : Nat) : State :=
  s.fab.out.foldl (fun t o =>
    if o.dest = d ∧ !o.sent ∧ !o.parked ∧ ((peerOf t d).inc.isSome ∨ o.opc = 0x0D) ∧ unanswered t d < 1024 then
      let t1 := { t with fab.out := t.fab.out.map (fun x => if x.dest = d ∧ x.oseq = o.oseq then { x with sent := true } else x) }
      fabStat (sendFlits t1 d o.oseq.toNat o.opc o.part o.arg o.ticket o.prov o.data) 0
    else t) s

/-- An operation entered with the next sequence number of its destination (R275). -/
def addOp (s : State) (d opc part arg ticket : Nat) (prov : Bool) (data : List Byte) (owner : OpFor) : State :=
  let pr := peerOf s d
  { s with fab.peers := sput s.fab.peers d { pr with next := pr.next + 1 },
           fab.out := s.fab.out ++ [{ dest := d, oseq := pr.next, opc, part, arg, ticket, prov, data, owner }] }

/-- A PROBE entered for a destination whose incarnation is not known, unless one is on its way (R277). -/
def addProbe (s : State) (d : Nat) : State :=
  if (peerOf s d).inc.isNone ∧ !s.fab.out.any (fun o => decide (o.dest = d) && decide (o.opc = 0x0D)) then addOp s d 0x0D 0xFF 0 0 false [] .other else s

/-- An operation issued to a destination, behind a PROBE when the incarnation is not known (R275, R277). -/
def issueOp (s : State) (d opc part arg ticket : Nat) (prov : Bool) (data : List Byte) (owner : OpFor) : State :=
  startOps (addOp (if opc = 0x0D then s else addProbe s d) d opc part arg ticket prov data owner) d

/-- An ANSWER (R275). -/
def sendAnswer (s : State) (d : Nat) (oseq : BitVec 64) (status : Nat) (value : List Byte) : State :=
  sendFlits s d oseq.toNat 0x80 0xFF status 0 false value

/-- A TIME operation on a port (R275, R283): one link-local OP flit on VC 3, with no OSEQ, that `hops` links have brought so far. -/
def sendTimeFlit (s : State) (p t hops : Nat) : State :=
  let hdr := opHeader 0 0x0B 0xFF 1 8 s.seed.incarnation.toNat 0 0
  queueFlit s p ⟨0, mkFlit 3 false true s.fab.epoch 0 (fabAddr s) 0 (dparam s 0x5001 4 - hops) (hdr ++ leBytes 8 t), some (.time p t), 0⟩

/-- The operation of a destination and sequence number that has no answer. -/
def outOpOf (s : State) (d : Nat) (oseq : BitVec 64) : Option OutOp := s.fab.out.find? (fun o => decide (o.dest = d) && decide (o.oseq = oseq))

/-- An operation answered or given up. -/
def dropOp (s : State) (o : OutOp) : State := { s with fab.out := s.fab.out.erase o }

end Sys2Proof.Machine
end

