-- ==== Sys2Proof/Machine/GroveStore.lean ====
section
/-! DEFINITION. The grove store: scratch, split, and the coherent accesses of a grove through its cache (R166–R168, R173, R234, R235). -/
namespace Sys2Proof.Machine

/-- Bytes of shadow and of scratch, and shadow lines per core (Table 11-1). -/
def shadowBytes (split : Nat) : Nat := lget 131072 [131072, 262144, 524288] (field split 3 2)
def scratchBytes (split : Nat) : Nat := 2097152 - cacheBytes split - shadowBytes split
def shadowLines (split : Nat) : Nat := lget 32 [32, 64, 128] (field split 3 2)

/-- A grove's store and flags. -/
def groveOf (s : State) (g : Nat) : Grove := sget { fill := s.gr.lost } s.gr.groves g

/-- A grove changed. -/
def modGrove (s : State) (g : Nat) (f : Grove → Grove) : State := { s with gr.groves := sput s.gr.groves g (f (groveOf s g)) }

/-- A byte of scratch: what was stored, 0 after zeroing, or an open value where the contents are undefined (R167, R168). -/
def scratchByte (g : Nat) (x : Grove) (a : Nat) : Byte :=
  (sfind x.store a).getD (match x.fill with
    | some n => BitVec.ofNat 8 (Config.openByte n (2097152 * g + a))
    | none => 0)

/-- Bytes of scratch from an address upward. -/
def scratchRead (g : Nat) (x : Grove) (a n : Nat) : List Byte := (List.range n).map (fun i => scratchByte g x (a + i))

/-- Bytes of a store written; a byte that reads 0 unwritten is listed only when it is not 0. -/
def storeWrite (x : Grove) (a : Nat) : List Byte → Grove
  | [] => x
  | b :: bs => storeWrite { x with store := if x.fill.isSome then sput x.store a b else sset 0 x.store a b } (a + 1) bs

/-- The scratch of a grove lost: its contents are open from now on (R167, R168). -/
def loseScratch (s : State) (g : Nat) : State :=
  { modGrove s g (fun x => { x with store := [], fill := some s.free }) with free := s.free + 1 }

/-- Every bank of a grove's store zeroed (R98, R168, R291). -/
def zeroStore (s : State) (g : Nat) : State := modGrove s g (fun x => { x with store := [], fill := none })

/-- A coherent read of a grove within one line (R235): a hit on its copy, or a fill in S or E; with no cache, a read at the home.
Poison answers the AUX of MEMORY_ERROR. The flag tells a hit. -/
def groveRead (s0 : State) (g p a n : Nat) : State × Except Nat (List Byte) × Bool :=
  let line := a / 64
  if cacheBytes (splitOf s0 p) = 0 then
    let (s1, r) := readMem s0 a n
    (s1, r, false)
  else
    let s := settle s0 line
    match copyOfLine s g line with
    | some c => (match poisonOf s line with
      | some src => (s, .error (memErrAux line src), false)
      | none => (countG s g 0x08 1, .ok (bytesAt c.data (a % 64) n), true))
    | none =>
      let s1 := lookLine (snoopShared (countG s g 0x09 1) line) line
      match poisonOf s1 line with
      | some src => (s1, .error (memErrAux line src), false)
      | none =>
        let (d, st) := match dirOf s1 line with
          | .u => (DirState.ow g, CopyState.exclusive)
          | .sh m => (.sh (withGroup m g), .shared)
          | .ow o => (.sh (withGroup (1 <<< (o / 8)) g), .shared)
        (fillCopy (putLine s1 line d false) g line ⟨st, homeLine s1 line, false⟩, .ok (memRead s1.mem.bytes a n), false)

/-- Bytes replaced within a line. -/
def patchBytes (old : List Byte) (off : Nat) (bs : List Byte) : List Byte := old.take off ++ bs ++ old.drop (off + bs.length)

/-- A coherent write of a grove within one line (R235): on an M or E copy, or after RD_X or UPG; with no cache, a write at the home.
A line on a fenced port is written by nobody (R312). -/
def groveWrite (s0 : State) (g p a : Nat) (bs : List Byte) : State × Bool :=
  let line := a / 64
  if cacheBytes (splitOf s0 p) = 0 ∨ (unitSum s0 (unitPort (portOf a))).state = 2 then (writeMem s0 a bs, false)
  else
    let s := settle s0 line
    match copyOfLine s g line with
    | some c =>
      let s0 := countG s g 0x08 1
      let new : GCopy := { c with st := .modified, data := patchBytes c.data (a % 64) bs }
      (if c.st = .shared then setCopy (putLine (snoopFor g s0 line) line (.ow g) false) g line new else setCopy s0 g line new, true)
    | none =>
      let s1 := lookLine (snoopInvalidate (countG s g 0x09 1) line) line
      (fillCopy (putLine s1 line (.ow g) false) g line ⟨.modified, patchBytes (homeLine s1 line) (a % 64) bs, false⟩, false)

/-- A grove's dirty lines written back and its copies dropped (R98, R167, R291). -/
def flushGrove (s : State) (g : Nat) : State :=
  let mine := (s.canopy.copies.filter (fun q => decide (q.1 % 512 = g))).map (fun q => q.1 / 512)
  mine.foldl (fun s line =>
    let s1 := settle s line
    match copyOfLine s1 g line with
    | some c =>
      let s2 := if c.st = .modified then homeWrite s1 (64 * line) c.data else s1
      let s3 := dropCopy s2 g line
      (match dirOf s3 line with
        | .ow o => if o = g then putLine s3 line .u (c.st = .modified) else s3
        | _ => s3)
    | none => s1) s

/-- A device address lies in the partition's memory and below the end of what exists (R173, R288). -/
def deviceOk (s : State) (p a n : Nat) : Bool := inPartMem s p a n

end Sys2Proof.Machine
end

