-- ==== Sys2Proof/Machine/Crypto.lean ====
section
/-! DEFINITION. SHA-384 and ECDSA P-384: the verification of containers and the signature of batches (R113, R115, R334; FIPS 180-4, FIPS 186-5). -/
namespace Sys2Proof.Machine

/-- The greatest `r` with `r ^ k ≤ n`, found bit by bit from the place given downward, above the bits already found. -/
def rootFloor (k n : Nat) : Nat → Nat → Nat
  | 0, r => r
  | b + 1, r => rootFloor k n b (bif Nat.ble ((r + 2 ^ b) ^ k) n then r + 2 ^ b else r)

/-- The first 64 bits of the fractional part of the `k`-th root of a number below 512. -/
def rootFraction (k p : Nat) : Nat := rootFloor k (p * 2 ^ (64 * k)) 70 0 % 2 ^ 64

/-- The first 80 primes. -/
def firstPrimes : List Nat :=
  (List.range 410).filter (fun n => decide (2 ≤ n) && (List.range 21).all (fun d => decide (d < 2) || decide (n ≤ d) || decide (n % d ≠ 0)))

/-- The 80 constants of the rounds: fractions of the cube roots of the first 80 primes (FIPS 180-4, 4.2.3). -/
def shaConstants : List Nat := firstPrimes.map (rootFraction 3)

/-- The hash value a message starts from: fractions of the square roots of the ninth to sixteenth primes (FIPS 180-4, 5.3.4). -/
def shaStart : List Nat := ((firstPrimes.drop 8).take 8).map (rootFraction 2)

/-- A 64-bit word turned right by `n` places, 0 < n < 64. -/
def turnRight (x n : Nat) : Nat := x / 2 ^ n + x % 2 ^ n * 2 ^ (64 - n)

/-- The exclusive or of a word turned right by each of a list of places, and of a further term. -/
def xorTurns (ns : List Nat) (x more : Nat) : Nat := ns.foldl (fun acc n => acc ^^^ turnRight x n) more

/-- The word that follows a window of sixteen schedule words, the earliest first. -/
def shaNextWord (win : List Nat) : Nat :=
  let early := lget 0 win 1
  let late := lget 0 win 14
  (lget 0 win 0 + xorTurns [1, 8] early (early / 2 ^ 7) + lget 0 win 9 + xorTurns [19, 61] late (late / 2 ^ 6)) % 2 ^ 64

/-- One round under a constant, on the eight working words and the window of sixteen schedule words, which moves on by one. -/
def shaRound (st : List Nat × List Nat) (k : Nat) : List Nat × List Nat :=
  match st.1 with
  | [a, b, c, d, e, f, g, h] =>
    let up := h + xorTurns [14, 18, 41] e 0 + (g ^^^ (e &&& (f ^^^ g))) + k + lget 0 st.2 0
    let down := xorTurns [28, 34, 39] a 0 + ((a &&& b) ||| (c &&& (a ||| b)))
    ([(up + down) % 2 ^ 64, a, b, c, (d + up) % 2 ^ 64, e, f, g], st.2.drop 1 ++ [shaNextWord st.2])
  | _ => st

/-- A hash value after a block of 128 bytes, read as sixteen big-endian words. -/
def shaAfterBlock (hash : List Nat) (block : List Byte) : List Nat :=
  let win := (List.range 16).map (fun i => beNat ((block.drop (8 * i)).take 8))
  List.zipWith (fun x y => (x + y) % 2 ^ 64) hash (shaConstants.foldl shaRound (hash, win)).1

/-- A message followed by a one bit, zeros to the next 112 mod 128, and its length in bits as 16 big-endian bytes. -/
def shaPadded (bs : List Byte) : List Byte :=
  bs ++ (0x80 :: List.replicate ((239 - bs.length % 128) % 128) 0) ++ beBytes 16 (8 * bs.length)

/-- SHA-384 of a message: the first six words of the hash value after its last block, as one big-endian number. -/
def sha384 (bs : List Byte) : Nat :=
  let m := shaPadded bs
  let last := (List.range (m.length / 128)).foldl (fun hash i => shaAfterBlock hash ((m.drop (128 * i)).take 128)) shaStart
  (last.take 6).foldl (fun n w => n * 2 ^ 64 + w) 0

/-- SHA-384 as a byte string. -/
def sha384Bytes (bs : List Byte) : List Byte := beBytes 48 (sha384 bs)

/-- The prime of P-384. -/
def p384 : Nat := 2 ^ 384 - 2 ^ 128 - 2 ^ 96 + 2 ^ 32 - 1

/-- The order of the base point. -/
def n384 : Nat := 0xffffffffffffffffffffffffffffffffffffffffffffffffc7634d81f4372ddf581a0db248b0a77aecec196accc52973

/-- The coefficient b. -/
def b384 : Nat := 0xb3312fa7e23ee7e4988e056be3f82d19181d9c6efe8141120314088f5013875ac656398d8a2ed19d2a85c8edd3ec2aef

/-- The base point. -/
def gx384 : Nat := 0xaa87ca22be8b05378eb1c71ef320ad746e1d3b628ba79b9859f741e082542a385502f25dbf55296c3a545e3872760ab7
def gy384 : Nat := 0x3617de4a96262c6f5d9e98bf9292dc29f8f41dbd289a147ce9da3113b5f0b8c00a60b1ce1d7e819d7a431d7c90ea0e5f

/-- A power modulo `m`, over the bits of the exponent from the place given downward. -/
def powMod (m b e : Nat) : Nat → Nat → Nat
  | 0, acc => acc
  | k + 1, acc =>
    let sq := acc * acc % m
    powMod m b e k (if e.testBit k then sq * b % m else sq)

/-- The inverse modulo a prime. -/
def invMod (m a : Nat) : Nat := powMod m a (m - 2) 384 1

/-- A difference modulo the prime. -/
def subP (a b : Nat) : Nat := (a + (p384 - b % p384)) % p384

/-- A point in Jacobian coordinates; Z = 0 is the point at infinity. -/
structure JPoint where
  x : Nat
  y : Nat
  z : Nat

/-- The double of a point (a = −3). -/
def jDouble (p : JPoint) : JPoint :=
  let delta := p.z * p.z % p384
  let gamma := p.y * p.y % p384
  let beta := p.x * gamma % p384
  let alpha := 3 * (subP p.x delta * ((p.x + delta) % p384) % p384) % p384
  let x3 := subP (alpha * alpha % p384) (8 * beta % p384)
  let yz := (p.y + p.z) % p384
  let z3 := subP (subP (yz * yz % p384) gamma) delta
  let y3 := subP (alpha * subP (4 * beta % p384) x3 % p384) (8 * (gamma * gamma % p384) % p384)
  ⟨x3, y3, z3⟩

/-- The sum of two points. -/
def jAdd (p q : JPoint) : JPoint :=
  if p.z = 0 then q else if q.z = 0 then p else
  let z1 := p.z * p.z % p384
  let z2 := q.z * q.z % p384
  let u1 := p.x * z2 % p384
  let u2 := q.x * z1 % p384
  let s1 := p.y * (q.z * z2 % p384) % p384
  let s2 := q.y * (p.z * z1 % p384) % p384
  if u1 = u2 then (if s1 = s2 then jDouble p else ⟨1, 1, 0⟩)
  else
    let h := subP u2 u1
    let r := subP s2 s1
    let h2 := h * h % p384
    let h3 := h * h2 % p384
    let v := u1 * h2 % p384
    let x3 := subP (subP (r * r % p384) h3) (2 * v % p384)
    let y3 := subP (r * subP v x3 % p384) (s1 * h3 % p384)
    ⟨x3, y3, (p.z * q.z % p384) * h % p384⟩

/-- `u1 · G + u2 · Q`, over the bits from the place given downward. -/
def jMulTwo (u1 u2 : Nat) (g q gq : JPoint) : Nat → JPoint → JPoint
  | 0, acc => acc
  | k + 1, acc =>
    let d := jDouble acc
    let a := if u1.testBit k then (if u2.testBit k then jAdd d gq else jAdd d g)
      else if u2.testBit k then jAdd d q else d
    jMulTwo u1 u2 g q gq k a

/-- A multiple of the base point in affine coordinates; the point at infinity gives (0, 0). -/
def baseTimes (k : Nat) : Nat × Nat :=
  let g : JPoint := ⟨gx384, gy384, 1⟩
  let p := jMulTwo k 0 g g g 384 ⟨1, 1, 0⟩
  let i := invMod p384 (p.z % p384)
  let ii := i * i % p384
  (p.x * ii % p384, p.y * (ii * i % p384) % p384)

/-- The private key that the fuses spell: they hold it less one, modulo the order less one, so that it lies in 1 to n − 1. -/
def privateKey (stored : BitVec 384) : Nat := 1 + stored.toNat % (n384 - 1)

/-- The public key X ‖ Y of a private key, as one big-endian number (R113, R334). -/
def publicKey (d : Nat) : Nat := (baseTimes d).1 * 2 ^ 384 + (baseTimes d).2

/-- The signature r ‖ s of a digest under a private key and a secret number of the signature, as one big-endian number (FIPS 186-5). -/
def ecdsaSign (d digest k : Nat) : Nat :=
  let r := (baseTimes k).1 % n384
  r * 2 ^ 384 + invMod n384 k * (digest + r * d) % n384

/-- Whether `r ‖ s` is a signature of a digest under the key `x ‖ y` (FIPS 186-5). -/
def ecdsaVerify (x y digest r sg : Nat) : Bool :=
  let onCurve := decide (x < p384) && decide (y < p384) &&
    decide (y * y % p384 = (x * x % p384 * x + (p384 - 3) * x + b384) % p384)
  let inRange := decide (0 < r) && decide (r < n384) && decide (0 < sg) && decide (sg < n384)
  if onCurve && inRange then
    let w := invMod n384 sg
    let u1 := digest * w % n384
    let u2 := r * w % n384
    let g : JPoint := ⟨gx384, gy384, 1⟩
    let q : JPoint := ⟨x, y, 1⟩
    let p := jMulTwo u1 u2 g q (jAdd g q) 384 ⟨1, 1, 0⟩
    let zz := p.z * p.z % p384
    decide (p.z ≠ 0) && (decide (p.x = r * zz % p384) || (decide (r + n384 < p384) && decide (p.x = (r + n384) * zz % p384)))
  else false

end Sys2Proof.Machine
end

