-- ==== Sys2Proof/Machine/Lookout.lean ====
section
/-! DEFINITION. Lookout: latency counts, one-second records, sealed batches, and device time (chapter 20). -/
namespace Sys2Proof.Machine

/-- The bin edges L_0 to L_127: 10^(3 + 6k/128) ns, rounded (R325). -/
def binEdges : List Nat := [
  1000, 1114, 1241, 1382, 1540, 1715, 1911, 2129,
  2371, 2642, 2943, 3278, 3652, 4068, 4532, 5048,
  5623, 6264, 6978, 7774, 8660, 9647, 10746, 11971,
  13335, 14855, 16548, 18434, 20535, 22876, 25483, 28387,
  31623, 35227, 39242, 43714, 48697, 54247, 60430, 67317,
  74989, 83536, 93057, 103663, 115478, 128640, 143301, 159634,
  177828, 198096, 220673, 245824, 273842, 305053, 339821, 378552,
  421697, 469759, 523299, 582942, 649382, 723394, 805842, 897687,
  1000000, 1113974, 1240938, 1382372, 1539927, 1715438, 1910953, 2128752,
  2371374, 2641648, 2942727, 3278121, 3651741, 4067944, 4531584, 5048066,
  5623413, 6264335, 6978306, 7773650, 8659643, 9646616, 10746078, 11970850,
  13335214, 14855080, 16548171, 18434230, 20535250, 22875732, 25482967, 28387360,
  31622777, 35226947, 39241898, 43714448, 48696753, 54246909, 60429639, 67317038,
  74989421, 83536255, 93057204, 103663293, 115478198, 128639694, 143301257, 159633854,
  177827941, 198095678, 220673407, 245824407, 273841963, 305052789, 339820833, 378551525,
  421696503, 469758882, 523299115, 582941535, 649381632, 723394163, 805842188, 897687132]

/-- The bin of a latency (R325). -/
def binOf (x : Nat) : Nat := (binEdges.filter (fun e => decide (e ≤ x))).length - 1

/-- The second of device time in progress (R330). -/
def second (s : State) : Nat := s.time.dev / 1000000000

/-- CLASS_CFG in force for a class, and its fields (Table 20-1). -/
def lkCfg (s : State) (c : Nat) : Nat := sget 0 s.look.cfg c
def lkEnabled (s : State) (c : Nat) : Bool := bitOf (lkCfg s c) 0
def lkPart (s : State) (c : Nat) : Nat := field (lkCfg s c) 15 8
def lkRate (s : State) (c : Nat) : Nat := field (lkCfg s c) 63 32
def lkTargets (cfg : Nat) : List (Nat × Nat) :=
  (List.range 4).map (fun k => (field cfg (95 + 64 * k) (64 + 64 * k), field cfg (127 + 64 * k) (96 + 64 * k)))

/-- The empty record of a class in a second. -/
def freshRec (s : State) (c sec : Nat) : LkRec :=
  { cls := c, part := lkPart s c, second := sec, rate := lkRate s c, targets := lkTargets (lkCfg s c) }

/-- The record of a class in the second in progress. -/
def nowRec (s : State) (c : Nat) : LkRec := (sfind s.look.now c).getD (freshRec s c (second s))

/-- The record of a class in the second in progress changed. -/
def modNow (s : State) (c : Nat) (f : LkRec → LkRec) : State :=
  { s with look.now := sput s.look.now c (f (nowRec s c)) }

/-- Only STAND_STEP, GRAPH_RUN and GATHER are measured (R322). -/
def measuredOp (op : Nat) : Bool := op = 0x11 || op = 0x20 || op = 0x30

/-- A command's arrival counted in the second in which its start falls (R323). -/
def lkArrival (s : State) (op cls part sec : Nat) : State :=
  if measuredOp op && lkEnabled s cls && decide (lkPart s cls = part) then
    if sec = second s then modNow s cls (fun r => { r with arrivals := r.arrivals + 1 })
    else
      let add (r : LkRec) : LkRec := if r.cls = cls ∧ r.second = sec then { r with arrivals := r.arrivals + 1 } else r
      { s with look.minute := s.look.minute.map add, look.due := s.look.due.map add }
  else s

/-- How an outcome counts (R323): 0 token, 1 error, 2 aborted, 3 rejected. UNREACHABLE is an error where it ended an operation that was issued (R142). -/
def outcomeClass (status aux : Nat) (overFabric : Bool) : Nat :=
  if status = 0 then 0
  else if (status = 0x16 && decide (0x40 ≤ field aux 31 24)) || status = 0x17 || status = 0x0F || (status = 0x0E && overFabric) then 1
  else if status = 0x12 then 2 else 3

/-- A binned latency entered into a record (R325, R326). -/
def binLatency (r : LkRec) (lat : Nat) (isError rerun switched : Bool) : LkRec :=
  let ex := (List.range 4).map (fun k =>
    let t := lget (0, 0) r.targets k
    lget 0 r.exceed k + (if t.1 ≠ 0 ∧ (isError ∨ t.2 < lat) then 1 else 0))
  let b := binOf lat
  { r with tokens := r.tokens + (if isError then 0 else 1), errors := r.errors + (if isError then 1 else 0),
           reruns := r.reruns + (if rerun then 1 else 0), switched := r.switched + (if switched then 1 else 0),
           under := r.under + (if lat < 1000 then 1 else 0), beyond := r.beyond + (if 1000000000 ≤ lat then 1 else 0),
           max := satAdd 0xFFFFFFFF 0 (Nat.max r.max lat), sum := r.sum + lat, exceed := ex,
           bins := sput r.bins b (sget 0 r.bins b + 1) }

/-- A command's end counted as its record is written (R321–R323). -/
def lkEnd (s : State) (op cls part start : Nat) (dup : Bool) (status aux : Nat) (overFabric rerun switched : Bool) : State :=
  if !measuredOp op || dup then s
  else if !lkEnabled s cls then { s with look.unmeasured := s.look.unmeasured + 1 }
  else if lkPart s cls ≠ part then { s with look.foreign := s.look.foreign + 1 }
  else modNow s cls (fun r =>
    match outcomeClass status aux overFabric with
    | 0 => binLatency r (s.time.clock - start) false rerun switched
    | 1 => binLatency r (s.time.clock - start) true rerun switched
    | 2 => { r with aborted := r.aborted + 1 }
    | _ => { r with rejected := r.rejected + 1 })

/-- N of a record: the sum of its bins (R325). -/
def lkN (r : LkRec) : Nat := r.bins.foldl (fun a p => a + p.2) 0

/-- ALLOW of a target (R326). -/
def lkAllow (p n : Nat) : Nat := (1000000 - p) * n / 1000000

/-- The targets a record misses, as bits (R326). -/
def lkMisses (r : LkRec) : Nat :=
  (List.range 4).foldl (fun a k =>
    let p := (lget (0, 0) r.targets k).1
    a + bitAt (decide (p ≠ 0) && decide (lkAllow p (lkN r) < lget 0 r.exceed k)) k) 0

/-- RATE_MISS of a record (R326). -/
def lkRateMiss (r : LkRec) : Bool := decide (r.rate ≠ 0) && decide (r.tokens < Nat.min r.rate r.arrivals)

/-- The smallest bin whose cumulated count reaches a rank (R327). -/
def rankBin (bins : Sparse Nat) (rank : Nat) : Nat :=
  let go := (List.range 128).foldl (fun (p : Nat × Option Nat) k =>
    let a := p.1 + sget 0 bins k
    (a, match p.2 with
      | some x => some x
      | none => if rank ≤ a then some k else none)) (0, none)
  go.2.getD 0xFF

/-- EST_BIN of a target (R327). -/
def lkEstBin (r : LkRec) (p : Nat) : Nat :=
  if p = 0 ∨ lkN r = 0 then 0xFF else rankBin r.bins (ceilDiv (p * lkN r) 1000000)

/-- The 704 bytes of a one-second record (Table 20-2). -/
def recBytes (r : LkRec) : List Byte :=
  leBytes 1 r.cls ++ leBytes 1 r.part ++ leBytes 2 r.flags ++ leBytes 4 0 ++ leBytes 8 (r.second * 1000000000) ++
  ([r.tokens, r.arrivals, r.errors, r.rejected, r.aborted, r.reruns, r.switched, r.under, r.beyond, r.rate, r.max].flatMap (leBytes 4)) ++
  leBytes 4 0 ++ leBytes 8 r.sum ++ leBytes 8 0 ++
  ((List.range 4).flatMap (fun k =>
    let t := lget (0, 0) r.targets k
    leBytes 4 t.1 ++ leBytes 4 t.2 ++ leBytes 4 (lget 0 r.exceed k) ++ leBytes 4 (if t.1 = 0 then 0 else lkAllow t.1 (lkN r)))) ++
  ((List.range 4).flatMap (fun k => leBytes 1 (lkEstBin r (lget (0, 0) r.targets k).1))) ++ leBytes 44 0 ++
  ((List.range 128).flatMap (fun k => leBytes 4 (sget 0 r.bins k)))

/-- A record with every count zero; RATE is a setting, not a count (R331). -/
def recQuiet (r : LkRec) : Bool :=
  [r.tokens, r.arrivals, r.errors, r.rejected, r.aborted, r.reruns, r.switched, r.under, r.beyond].all (fun n => decide (n = 0))

/-! ## Seconds and minutes -/

/-- Flags of a second that ends: LOCKED, STEPPED, OUTSIDE, FAILOVER, DORMANT, MISS and RATE_MISS (Table 20-2); CONFIG is already set. -/
def endFlags (s : State) (r : LkRec) : Nat :=
  (r.flags ||| bitAt (s.look.lockedAll && s.time.locked) 0) ||| bitAt s.time.stepped 1 ||| bitAt (!lkEnabled s r.cls) 3 |||
  bitAt s.look.failover 5 ||| bitAt (decide (s.power.mode = .dormant)) 6 ||| (lkMisses r <<< 8) ||| bitAt (lkRateMiss r) 12

/-- Classes that are enabled in the second in progress, and those that have a record of it: enabled, or changed at its start. -/
def classesOn (s : State) : List Nat := (List.range 256).filter (lkEnabled s)
def lkClasses (s : State) : List Nat :=
  (List.range 256).filter (fun c => lkEnabled s c || (sfind s.look.now c).isSome)

/-- The second in progress ends: its records join the open minute, and a miss raises TARGET_MISS (R326, R330). -/
def closeSecond (s : State) : State :=
  let rs := (lkClasses s).map (fun c => let r := nowRec s c; { r with flags := endFlags s r })
  let miss := rs.any (fun r => decide (lkMisses r ≠ 0) || lkRateMiss r)
  let s1 := { s with look.minute := rs ++ s.look.minute, look.now := [], look.lockedAll := s.time.locked, look.failover := false,
                     look.failoverSecs := s.look.failoverSecs + (if s.look.failover then 1 else 0),
                     look.inMinute := (classesOn s).foldl insertNat s.look.inMinute, time.stepped := false }
  if miss then raise s1 0x0A1 else s1

/-- Committed class configurations and TIME_SRC come into force at a second boundary; a changed class's record has CONFIG (R324). -/
def applyClassCfg (s : State) : State :=
  let s1 := (List.range 256).foldl (fun s c =>
    let v := dparam s (0x7010 + c / 128) (c % 128 + 1)
    if v = lkCfg s c then s
    else
      let s1 := { s with look.cfg := sset 0 s.look.cfg c v }
      modNow s1 c (fun r => { r with flags := putBit r.flags 4 true })) s
  let src := dparam s1 0x7001 1
  if src = s1.time.src then s1
  else { s1 with time.src := src, time.lastRef := s1.time.clock, time.locked := false, time.lost := false, look.lockedAll := false }

/-- A minute ends: the batches of the classes enabled in it wait for their seal (R330). -/
def closeMinute (s : State) (m : Nat) : State :=
  { s with look.due := s.look.minute.filter (fun r => s.look.inMinute.contains r.cls) ++ s.look.due, look.minute := [],
           look.toSeal := s.look.toSeal ++ s.look.inMinute.map (fun c => (c, m)), look.inMinute := [] }

/-- Device time moved to a later value: the second in progress ends if it is left, jumped seconds of the minutes touched become
SKIPPED records, and minutes that are left are closed (R328, R330). -/
def advanceTime (s : State) (t : Nat) (jump : Bool) : State :=
  let a := second s
  let b := t / 1000000000
  if b ≤ a then { s with time.dev := Nat.max s.time.dev t }
  else
    let cls := classesOn s
    let skip (s : State) (lo hi : Nat) : State :=
      { s with look.minute := ((List.range (hi - lo)).flatMap (fun k =>
          cls.map (fun c => { freshRec s c (lo + k) with flags := 4, rate := 0, targets := [] }))).reverse ++ s.look.minute }
    let s0 := if jump then { s with time.stepped := true } else s
    let s1 := closeSecond s0
    let s2 := if jump then skip s1 (a + 1) (Nat.min b (60 * (a / 60 + 1))) else s1
    let s3 := if a / 60 = b / 60 then s2 else
      let s4 := closeMinute s2 (a / 60)
      if jump then skip { s4 with look.inMinute := if 60 * (b / 60) < b then cls else [] } (60 * (b / 60)) b else s4
    applyClassCfg { s3 with time.dev := t }

/-- SECOND_BOUNDARY: device time reaches its next whole second (R326, R330). -/
def execSecondBoundary (s : State) : Out :=
  .next (advanceTime { s with time.clock := s.time.clock + ((second s + 1) * 1000000000 - s.time.dev) } ((second s + 1) * 1000000000) false)

/-- The bytes of a batch before its seal (Table 20-3). -/
def batchBody (s : State) (c m bseq : Nat) (recs : List LkRec) (part : Nat) : List Byte :=
  let quiet := recs.all recQuiet
  leBytes 4 0x5247444C ++ leBytes 2 1 ++ leBytes 1 c ++ leBytes 1 part ++ leBytes 1 (if quiet then 0 else recs.length) ++
  leBytes 1 (if quiet then 1 else 0) ++ leBytes 1 s.time.src ++ leBytes 1 0 ++ leBytes 8 bseq ++ leBytes 8 (m * 60000000000) ++
  leBytes 8 s.fuses.serial.toNat ++ leBytes 2 s.seed.incarnation.toNat ++ leBytes 26 0 ++
  (if quiet then [] else recs.flatMap recBytes)

/-- The 60 records of a class in a minute, in second order; a second without one was outside the class (Table 20-2 bit 3). -/
def minuteRecs (s : State) (c m : Nat) : List LkRec :=
  (List.range 60).map (fun k =>
    (s.look.due.find? (fun r => r.cls = c && r.second = 60 * m + k)).getD { freshRec s c (60 * m + k) with flags := 8 })

/-- Batches that the ring of 16 MiB no longer holds whole (R332). -/
def keepBatches (l : List Batch) (wp : Nat) : List Batch := l.filter (fun b => decide (wp ≤ b.pos + 2 ^ 24))

/-- DEVICE_KEY, the public key of the device's pair, as 96 bytes X ‖ Y (R334). -/
def deviceKeyBytes (s : State) : List Byte := beBytes 96 (publicKey (privateKey s.fuses.deviceKey))

/-- DEVICE_CERT: SERIAL, DEVICE_KEY, SKOZIN_KEY and Skozin's signature; bytes 15:8 and 319:304 read 0 (Table 20-4). -/
def deviceCert (s : State) : List Byte :=
  leBytes 8 s.fuses.serial.toNat ++ leBytes 8 0 ++ deviceKeyBytes s ++ beBytes 96 s.fuses.skozinKey.toNat ++
  beBytes 96 s.fuses.certSig.toNat ++ leBytes 16 0

/-- The 192 bytes of a seal: KEY_HASH, the signature of the bytes before it under the device's private key, and zeros (Table 20-3, R334).
The secret number of a signature is an open value, drawn in 1 to n − 1. -/
def batchSeal (s : State) (body : List Byte) (draw : Nat) : List Byte :=
  sha384Bytes (deviceKeyBytes s) ++ beBytes 96 (ecdsaSign (privateKey s.fuses.deviceKey) (sha384 body) (1 + draw % (n384 - 1))) ++ leBytes 48 0

/-- BATCH_SEAL: the batch of a class that waits longest is sealed into the ledger store (R330–R332). BSEQ goes to Seedbank first. -/
def execBatchSeal (cls : Fin 256) (s : State) : Out :=
  match s.look.toSeal.find? (fun p => p.1 = cls.val) with
  | none => .next s
  | some (c, m) =>
    let recs := minuteRecs s c m
    let part := ((s.look.due.find? (fun r => r.cls = c && r.second / 60 = m)).map (·.part)).getD (lkPart s c)
    let bseq := sget 0 s.seed.bseq c + 1
    let body := batchBody s c m bseq recs part
    let (secret, s1) := drawFree { s with seed.bseq := sput s.seed.bseq c bseq } 384
    let whole := body ++ batchSeal s body secret
    let wp := s.look.writePtr + whole.length
    let store := keepBatches (s.look.store ++ [⟨s.look.writePtr, c, part, whole⟩]) wp
    let old := match store with
      | b :: _ => b.pos
      | [] => wp
    .next (raise { s1 with
      look.toSeal := s.look.toSeal.erase (c, m),
      look.due := s.look.due.filter (fun r => !(r.cls = c && r.second / 60 = m)),
      look.store := store, look.writePtr := wp, look.oldestPtr := Nat.max s.look.oldestPtr old, look.sealed := s.look.sealed + 1,
      look.overwritten := s.look.overwritten + (s.look.store.length + 1 - store.length),
      look.quiet := s.look.quiet + (if recs.all recQuiet then 1 else 0) } 0x0A0)

/-- A byte of the ledger at a ring position, as a reader of every partition or of one sees it (R332). -/
def ledgerByte (s : State) (part : Option Nat) (p : Nat) : Byte :=
  if p < s.look.oldestPtr ∨ s.look.writePtr ≤ p then 0
  else match s.look.store.find? (fun b => decide (b.pos ≤ p) && decide (p < b.pos + b.bytes.length)) with
    | some b => if part.all (fun q => q = b.part) then lget 0 b.bytes (p - b.pos) else 0
    | none => 0

/-- LEDGER_STATE (Table 20-5). -/
def ledgerState (s : State) : List Byte :=
  [s.look.writePtr, s.look.oldestPtr, s.look.sealed, s.look.overwritten].flatMap (leBytes 8)

/-! ## Device time (R328, R329) -/

/-- A comparison of device time with its reference (R329): more than 1 ms behind steps forward; within 1 ms is slewed out, which the
model takes as reaching the reference when it lies ahead; device time never steps backward. -/
def steerTime (s : State) (ref tol : Nat) : State :=
  let locked := decide (ref ≤ s.time.dev + tol) && decide (s.time.dev ≤ ref + tol)
  let s1 := { s with time.lastRef := s.time.clock, time.lost := false, time.locked := locked, look.lockedAll := s.look.lockedAll && locked }
  if s.time.dev + 1000000 < ref then advanceTime s1 ref true
  else if s.time.dev < ref then advanceTime s1 ref false else s1

/-- A committed or waiting TIME_SET takes effect (R328): a higher second steps device time forward. -/
def setSeconds (s : State) (v : Nat) : State :=
  if second s < v then advanceTime s (v * 1000000000) true else s

/-- PPS_EDGE: a rising edge of PPS_IN, a whole second, when MIO35 carries it and TIME_SRC is 1 (R328, R329). -/
def execPpsEdge (s : State) : Out :=
  .next (if s.time.src = 1 ∧ lget 3 s.und.mioFunc 35 = 0 then
      let whole := (s.time.dev + 500000000) / 1000000000
      let s1 := { s with time.setPending := none }
      if whole < s.time.setPending.getD 0 then
        setSeconds { s1 with time.lastRef := s.time.clock, time.lost := false } (s.time.setPending.getD 0)
      else steerTime s1 (whole * 1000000000) 1000
    else s)

/-- The reference in force has been silent for its limit: 1.5 s of PPS_IN, 3 ms of fabric TIME, which Solo has none of (R328). -/
def referenceLate (s : State) : Bool :=
  if s.time.src = 1 then decide (s.time.lastRef + 1500000000 ≤ s.time.clock)
  else solo s || decide (s.time.lastRef + 3000000 ≤ s.time.clock)

/-- TIME_SOURCE_LOST: the reference is lost and device time runs free (R328). -/
def execTimeSourceLost (s : State) : Out :=
  .next (if s.time.src ≠ 0 ∧ !s.time.lost ∧ referenceLate s then
      raise { s with time.lost := true, time.locked := false, look.lockedAll := false } 0x0A2
    else s)

/-- TIME_STATUS (Table 20-5). -/
def timeStatus (s : State) : Nat := s.time.src + bitAt s.time.locked 2 + bitAt s.time.lost 3

end Sys2Proof.Machine
end

