-- ==== Sys2Proof/Machine/Trailhead.lean ====
section
/-!
DEFINITION. The Trailhead: doorbells, fetch and checks, run-ahead, ring stops, completions, and the commands that it executes itself
(R123–R141).
-/
namespace Sys2Proof.Machine

/-! ## Records -/

/-- Bytes written to a ring's memory: host memory, or device memory for a LOCAL ring. -/
def ringWrite (s : State) (ring : Ring) (a : Nat) (bs : List Byte) : State :=
  if ring.isLocal then writeMem s a bs else postWrite s ring.port ring.fn a bs

/-- PHASE of the record to be written next (R138). -/
def phaseOf (ring : Ring) : Nat := if (ring.cqTail.toNat / depth ring) % 2 = 0 then 1 else 0

/-- The 16 bytes of a record (Table 8-6). -/
def recordBytes (ring : Ring) (seq : BitVec 64) (r : CmdResult) : List Byte :=
  leBytes 8 seq.toNat ++ leBytes 2 r.status ++ leBytes 1 (phaseOf ring + r.flags) ++ leBytes 1 0 ++ leBytes 4 r.aux

/-- The CSW after the records in `w`: it moves on while the next sequence number has its record (R139). The list bounds the moves. -/
def cswAfter (c : BitVec 64) (w : List (BitVec 64)) : List (BitVec 64) → BitVec 64
  | [] => c
  | _ :: fuel => if w.contains (c + 1) then cswAfter (c + 1) w fuel else c

/-- A source raised a number of times. -/
def raiseTimes (s : State) (src : Nat) : Nat → State
  | 0 => s
  | n + 1 => raiseTimes (raise s src) src n

/-- A record written in the CQ slot at CQ_TAIL (R138). -/
def writeRecord (s : State) (r : Nat) (ring : Ring) (seq : BitVec 64) (res : CmdResult) : State :=
  let s1 := ringWrite s ring (ring.cqBase + 16 * (ring.cqTail.toNat % depth ring)) (recordBytes ring seq res)
  modRing s1 r (fun x => { x with cqTail := x.cqTail + 1 })

/-- The CSW brought up to the records written, and one occurrence of the completion source for each command that it comes to cover
(R139). -/
def advanceCsw (s : State) (r : Nat) (seq : BitVec 64) : State :=
  match ringOf s r with
  | none => s
  | some ring =>
    let w := seq :: ring.written
    let c := cswAfter ring.csw w w
    let s1 := modRing s r (fun x => { x with csw := c, written := w.filter (fun q => decide (c.toNat < q.toNat)) })
    if c = ring.csw then s1
    else raiseTimes (ringWrite s1 ring ring.cswAddr (leBytes 8 c.toNat)) (0x200 + ring.source) (c.toNat - ring.csw.toNat)

/-- A draining ring whose last record is written is OFF (R126). -/
def settleRing (s : State) (r : Nat) : State :=
  if reserved s r = 0 then modRing s r (fun x => if x.state = 2 then { x with state := 0 } else x) else s

/-! ## Stops -/

/-- A waiting stop record is written when the CQ has a free slot (R136). -/
def writeStop (s : State) (r : Nat) : State :=
  match ringOf s r with
  | some ring =>
    match ring.stopRec with
    | some (st, seq) =>
      if slotFree s r ring then
        raise (modRing (writeRecord s r ring seq ⟨st, 0, 0⟩) r (fun x => { x with stopRec := none })) (0x200 + ring.source)
      else s
    | none => s
  | none => s

/-- A ring stop (R136): STOPPED with RING_ERR, PART_ERROR, and one record, now or when a slot frees. -/
def stopRing (s : State) (r status : Nat) (seq : BitVec 64) : State :=
  match ringOf s r with
  | none => s
  | some ring =>
    writeStop (partError (modRing s r (fun x => { x with state := 3, err := status, stopRec := some (status, seq) })) ring.part) r

/-! ## Doorbells (R127, R128) -/

/-- The ring of a doorbell page when it is enabled for the writing function and port. -/
def doorbellRing (s : State) (d : Doorbell) : Option Ring :=
  match ringOf s d.page with
  | some r => if (r.state = 1 ∨ r.state = 3) ∧ r.port = d.port.val ∧ r.fn = d.fn.val then some r else none
  | none => none

/-- A doorbell dropped and counted in DB_DROPPED. -/
def dropDoorbell (s : State) : State := { s with trail.dbDropped := s.trail.dbDropped + 1 }

/-- Doorbells are taken: READY, awake or waking, and intake not stopped (R103, R109). -/
def doorbellsOpen (s : State) : Bool :=
  isReady s && !s.power.intakeStopped && decide (s.power.mode ≠ .dormant)

/-- An SQ_TAIL value accepted or refused (R128). -/
def applyTail (s : State) (r : Nat) (ring : Ring) (v : BitVec 32) : State × Bool :=
  let bad := decide (depth ring < (v - ring.sqHead).toNat) || decide (depth ring < (v - ring.sqTail).toNat)
  if bad then
    (if ring.state = 1 then stopRing s r stDoorbell ring.nextSeq else dropDoorbell s, false)
  else
    let n := (v - ring.sqTail).toNat
    let s1 := modRing s r (fun x => { x with sqTail := v })
    let l := sget [] s1.trail.doorbells r ++ [⟨n, s.time.clock, second s⟩]
    (if n = 0 then s1 else { s1 with trail.doorbells := sput s1.trail.doorbells r l }, true)

/-- SQ_TAIL_DOORBELL. -/
def execSqTailDoorbell (d : Doorbell) (s : State) : Out :=
  .next (if !doorbellsOpen s then { s with power.doorbellsDropped := s.power.doorbellsDropped + 1 }
    else
      let s := workArrives s
      match doorbellRing s d with
      | none => dropDoorbell s
      | some ring => if d.full then (applyTail s d.page ring d.value).1 else dropDoorbell s)

/-- CQ_HEAD_DOORBELL. -/
def execCqHeadDoorbell (d : Doorbell) (s : State) : Out :=
  .next (if !doorbellsOpen s then { s with power.doorbellsDropped := s.power.doorbellsDropped + 1 }
    else
      let s := workArrives s
      match doorbellRing s d with
      | none => dropDoorbell s
      | some ring =>
        if !d.full then dropDoorbell s
        else if (ring.cqTail - ring.cqHead).toNat < (d.value - ring.cqHead).toNat then
          (if ring.state = 1 then stopRing s d.page stDoorbell ring.nextSeq else dropDoorbell s)
        else writeStop (modRing s d.page (fun x => { x with cqHead := d.value })) d.page)

/-- STOP_RECORD_WRITE (R136). -/
def execStopRecordWrite (ring : Fin 4096) (s : State) : Out := .next (writeStop s ring)

/-! ## Commands in flight -/

/-- Whether an entry is HANDLE_SET or HANDLE_CLEAR. -/
def isHandleCmd (c : Cmd) : Bool := !c.dup && (opcodeOf c.entry.toNat = 0x08 || opcodeOf c.entry.toNat = 0x09)

/-- The handle INDEX that a HANDLE_SET or HANDLE_CLEAR names. -/
def handleCmdIndex (c : Cmd) : Nat := field (cf c.entry.toNat 19 16) 19 0

/-- A command names a handle INDEX: in a handle field, or as the entry that it sets or clears (R137). -/
def namesIndex (s : State) (c : Cmd) (index : Nat) : Bool :=
  (isHandleCmd c && decide (handleCmdIndex c = index)) ||
  (handleFields s c.part c.entry.toNat).any (fun f =>
    let h := cf c.entry.toNat (f.off + 3) f.off
    decide (h % 2 ^ 28 ≠ 0) && decide (hIndex h = index))

/-- Commands of the list fetched before the one with a ring and sequence number. -/
def earlierThan (r : Nat) (seq : BitVec 64) (l : List Cmd) : List Cmd :=
  l.takeWhile (fun c => !(decide (c.ring = r) && decide (c.seq = seq) && !c.dup))

/-- The earlier HANDLE_SETs and HANDLE_CLEARs of the ring that have not completed, that is, have no record yet (R131, R137). -/
def handleCmdsBefore (s : State) (r : Nat) (seq : BitVec 64) : List Cmd :=
  (earlierThan r seq s.trail.cmds).filter (fun c => decide (c.ring = r) && isHandleCmd c)

/-- One of them names a handle INDEX that the command names too (R137). -/
def handleClash (s : State) (c : Cmd) : Bool := (handleCmdsBefore s c.ring c.seq).any (fun d => namesIndex s c (handleCmdIndex d))

/-- The command of a ring with a sequence number that is not a duplicate. -/
def cmdOf (s : State) (r : Nat) (seq : BitVec 64) : Option Cmd :=
  s.trail.cmds.find? (fun c => decide (c.ring = r) && decide (c.seq = seq) && !c.dup)

/-- A command in flight changed. -/
def modCmd (s : State) (r : Nat) (seq : BitVec 64) (f : Cmd → Cmd) : State :=
  { s with trail.cmds := s.trail.cmds.map (fun c => if c.ring = r ∧ c.seq = seq ∧ !c.dup then f c else c) }

/-- A command has relocated a handle (R133): its relocations stand, decided or held by run-ahead. -/
def relocatedBy (d : Cmd) (part index : Nat) : Bool :=
  decide (d.part = part) && (d.relocs.getD []).any (fun x => decide (x.index = index))

/-- No command that relocated the handle of a HANDLE_CLEAR before the clear is without its record (R133). What run-ahead holds of the clear's
own ring behind it will be redone and does not count (R137). Of two clears of one handle on two rings the one fetched later waits (log entry 98). -/
def clearFree (s : State) (c : Cmd) : Bool :=
  let before := earlierThan c.ring c.seq s.trail.cmds
  let after := (s.trail.cmds.drop before.length).drop 1
  !(before.any (fun d => relocatedBy d c.part (handleCmdIndex c)) ||
    after.any (fun d => relocatedBy d c.part (handleCmdIndex c) && !isHandleCmd d && (decide (d.ring ≠ c.ring) || d.decided)))

/-- A command's outcome is known: it waits for its record. -/
def finish (s : State) (r : Nat) (seq : BitVec 64) (res : CmdResult) : State :=
  modCmd s r seq (fun c => if c.result.isNone then
    { c with begun := true, result := some { res with flags := res.flags + (if c.rerun then 2 else 0) + (if c.resent then 8 else 0) } } else c)

/-- Steps 2 to 5 of R135 for a command: relocations from its shadow when run-ahead has filled it. -/
def verdict (s : State) (c : Cmd) : Except CmdResult (List Reloc) :=
  let n := c.entry.toNat
  if !opcodes.contains (opcodeOf n) then .error ⟨stBadOpcode, 0, 0⟩
  else match badField s c.part n with
  | some o => .error ⟨stBadField, o, 0⟩
  | none =>
    match (match c.shadowErr, c.relocs with
      | some e, _ => Except.error e
      | none, some rs => .ok rs
      | none, none => relocateAll s c.part n (handleFields s c.part n)) with
    | .error e => .error e
    | .ok rs => match opcodeCheck s c.part n with
      | some st => .error ⟨st, 0, 0⟩
      | none => .ok rs

/-- A command decided (R135, R137): its relocations stand unless an earlier HANDLE_SET or HANDLE_CLEAR of the ring that has not completed names one of
its handles; a failure waits until none of those is left. -/
def decideCmd (s : State) (c : Cmd) : Cmd :=
  match verdict s c with
  | .ok rs => if handleClash s c then c else { c with decided := true, relocs := some rs, shadowErr := none }
  | .error e => if (handleCmdsBefore s c.ring c.seq).isEmpty then { c with decided := true, shadowErr := none, result := some e } else c

/-- The commands of a ring that may be decoded: the oldest that has not begun and up to 64 entries beyond it (R137). -/
def decodeWindow (s : State) (r : Nat) : List Cmd :=
  ((s.trail.cmds.filter (fun c => decide (c.ring = r) && !c.dup)).dropWhile (fun c => c.begun || c.result.isSome)).take 65

/-- The undecided commands of a ring's window are decided as far as they can be. -/
def decideReady (s : State) (r : Nat) : State :=
  (decodeWindow s r).foldl (fun s c => if c.decided || c.result.isSome then s else modCmd s r c.seq (decideCmd s)) s

/-- The decode shadows of a ring that name a handle INDEX are discarded and redone (R137). -/
def dropShadows (s : State) (r index : Nat) : State :=
  { s with trail.cmds := s.trail.cmds.map (fun c =>
      if c.ring = r ∧ !c.decided ∧ !c.dup ∧ namesIndex s c index then { c with relocs := none, shadowErr := none } else c) }

/-! ## Fetch (R129, R135) -/

/-- The start of latency of the entry fetched next (R321). -/
def takeArrival (s : State) (r : Nat) : Arrived × State :=
  match sget [] s.trail.doorbells r with
  | [] => (⟨1, s.time.clock, second s⟩, s)
  | a :: l =>
    let rest := if a.count ≤ 1 then l else { a with count := a.count - 1 } :: l
    (a, { s with trail.doorbells := if rest.isEmpty then sdel s.trail.doorbells r else sput s.trail.doorbells r rest })

/-- An entry taken into the Trailhead: the checks of R135. -/
def acceptEntry (s : State) (r : Nat) (ring : Ring) (e : BitVec 512) : State :=
  let n := e.toNat
  let seq := BitVec.ofNat 64 (cf n 7 0)
  let (arr, s0) := takeArrival s r
  let s1 := modRing { s0 with stands.fetched := s.stands.fetched + 1 } r (fun x => { x with sqHead := x.sqHead + 1 })
  let cls := if bitOf n 73 then cf n 10 10 else ring.cls
  let c : Cmd := { ring := r, seq, entry := e, part := ring.part, arrival := arr.clock, cls, fetchDev := s.time.dev, order := s.stands.fetched }
  if seq.toNat < ring.nextSeq.toNat then
    { s1 with trail.cmds := s1.trail.cmds ++ [{ c with dup := true, result := some ⟨stDuplicate, 0, 0⟩ }] }
  else if ring.nextSeq.toNat < seq.toNat then stopRing s1 r stSeqGap seq
  else
    let s2 := modRing s1 r (fun x => { x with nextSeq := x.nextSeq + 1 })
    let s3 := lkArrival s2 (opcodeOf n) cls ring.part arr.second
    decideReady { s3 with trail.cmds := s3.trail.cmds ++ [c] } r

/-- Fetch may take an entry of the ring: RUNNING, an entry fetchable, a CQ slot free, and the device awake (R102, R129). -/
def mayFetch (s : State) (r : Nat) (ring : Ring) : Bool :=
  isReady s && !s.trail.halted && decide (s.power.mode = .running) && decide (ring.state = 1) &&
  decide (ring.sqHead ≠ ring.sqTail) && slotFree s r ring

/-- COMMAND_FETCH: an entry of a ring in host memory comes with the command; a LOCAL ring's is read from device memory (R129). -/
def execCommandFetch (ring : Fin 4096) (data : FetchRead) (s : State) : Out :=
  .next (match ringOf s ring with
  | none => s
  | some rg =>
    if !mayFetch s ring rg then s
    else if rg.isLocal then
      match readMem s (rg.sqBase + 64 * (rg.sqHead.toNat % depth rg)) 64 with
      | (s1, .ok bs) => acceptEntry s1 ring rg (BitVec.ofNat 512 (leNat bs))
      | (s1, .error _) => stopRing s1 ring stFetchError rg.nextSeq
    else match data with
      | .entry e => acceptEntry s ring rg e
      | .err => stopRing s ring stFetchError rg.nextSeq)

/-- RUN_AHEAD_DECODE: the oldest command of a ring, within 64 of the oldest not begun, whose handles are not relocated yet gets its
decode shadow (R137). -/
def execRunAheadDecode (ring : Fin 4096) (s : State) : Out :=
  .next (match (decodeWindow s ring).find? (fun c => !c.decided && c.relocs.isNone && c.shadowErr.isNone) with
  | none => s
  | some c => match relocateAll s c.part c.entry.toNat (handleFields s c.part c.entry.toNat) with
    | .ok rs => modCmd s ring c.seq (fun x => { x with relocs := some rs })
    | .error e => modCmd s ring c.seq (fun x => { x with shadowErr := some e }))

/-! ## Completion (R138, R139, R141) -/

/-- The command whose record is written for a ring and sequence number: the original before its duplicates. -/
def recordable (s : State) (r : Nat) (seq : BitVec 64) : Option Cmd :=
  match cmdOf s r seq with
  | some c => if c.result.isSome then some c else none
  | none => s.trail.cmds.find? (fun c => decide (c.ring = r) && decide (c.seq = seq) && c.result.isSome)

/-- GEN after a clear: 255 is followed by 1 (R133). -/
def nextGen (g : Nat) : Nat := if g = 255 then 1 else g + 1

/-- An entry cleared: not VALID, GEN advanced (R133). -/
def clearHandle (s : State) (p i : Nat) : State :=
  setHEntry s p i { hEntry s p i with valid := false, gen := nextGen (hEntry s p i).gen }

/-- What a HANDLE_SET or HANDLE_CLEAR does to its entry as it completes, and the result of its record (R133, R137). A set that meets an entry which
another ring has made VALID since is HANDLE_IN_USE; a clear whose handle another ring has cleared since leaves the entry (log entry 98). -/
def applyHandle (s : State) (c : Cmd) (res : CmdResult) : State × CmdResult :=
  let e := c.entry.toNat
  let i := handleCmdIndex c
  let old := hEntry s c.part i
  if !isHandleCmd c || decide (res.status ≠ stOk) then (s, res)
  else if opcodeOf e = 0x08 then
    (if old.valid then (s, ⟨stInUse, 0, 0⟩)
     else (setHEntry s c.part i { base := field (cf e 31 24) 47 0, length := field (cf e 39 32) 43 0, gen := old.gen, kind := cf e 40 40,
                                  rights := cf e 41 41 % 8, valid := true, object := cf e 47 44 },
      ⟨stOk, old.gen * 2 ^ 20 + i, 0⟩))
  else (if old.valid && decide (old.gen = hGen (cf e 19 16)) then clearHandle s c.part i else s, res)

/-! ## Ring enable and disable (R125, R126) -/

/-- The relocated base of a LOCAL ring's field, when it meets the rules of R125. -/
def localField (s : State) (p v : Nat) (wr : Bool) (align need : Nat) : Option Nat :=
  if field v 63 32 ≠ 0 then none
  else match relocate s p (field v 31 0) [kBuffer] (!wr) wr 0 0 with
    | .ok e => if e.base % align = 0 ∧ need ≤ e.length then some e.base else none
    | .error _ => none

/-- The addresses of a ring's SQ, CQ and CSW under a configuration (R124, R125). -/
def ringAddrs (s : State) (p cfg : Nat) : Option (Nat × Nat × Nat) :=
  let d := 2 ^ cf cfg 24 24
  if bitOf cfg (200 + 3) then
    match localField s p (cf cfg 7 0) false 4096 (64 * d), localField s p (cf cfg 15 8) true 4096 (16 * d), localField s p (cf cfg 23 16) true 8 8 with
    | some a, some b, some c => some (a, b, c)
    | _, _, _ => none
  else if cf cfg 7 0 % 4096 = 0 ∧ cf cfg 15 8 % 4096 = 0 ∧ cf cfg 23 16 % 8 = 0 then some (cf cfg 7 0, cf cfg 15 8, cf cfg 23 16)
  else none

/-- ENABLE of RING_CFG. -/
def cfgEnable (cfg : Nat) : Bool := bitOf cfg 200

/-- A ring enabled: counters reset, NEXT_SEQ from FIRST_SEQ, FIRST_SEQ − 1 written to the CSW (R125). -/
def enableRing (s : State) (p l cfg : Nat) : State :=
  match ringAddrs s p cfg with
  | none => s
  | some (sq, cq, cw) =>
    let first := BitVec.ofNat 64 (cf cfg 39 32)
    let r : Ring := { part := p, loc := l, sqBase := sq, cqBase := cq, cswAddr := cw, log2 := cf cfg 24 24, port := field cfg 201 201,
                      fn := cf cfg 27 26, remoteOk := bitOf cfg 202, isLocal := bitOf cfg 203, source := cf cfg 29 28 % 512,
                      cls := cf cfg 30 30, nextSeq := first, csw := first - 1, state := 1, appendSeq := first }
    let dev := ringFirst s p + l
    let s1 := { s with trail.rings := sput s.trail.rings dev r, trail.doorbells := sdel s.trail.doorbells dev }
    ringWrite s1 r cw (leBytes 8 (first - 1).toNat)

/-- A ring disabled: fetch stops, a waiting stop record is discarded, shadows are discarded, and it drains (R126, R136, R137). -/
def disableRing (s : State) (dev : Nat) : State :=
  let s1 := { s with trail.cmds := s.trail.cmds.map (fun c => if c.ring = dev ∧ !c.decided then { c with relocs := none, shadowErr := none } else c),
                     trail.doorbells := sdel s.trail.doorbells dev }
  settleRing (modRing s1 dev (fun x => { x with state := 2, stopRec := none })) dev

/-- A ring gone: OFF with every counter 0 (R350). -/
def forgetRing (s : State) (dev : Nat) : State :=
  { s with trail.rings := sdel s.trail.rings dev, trail.doorbells := sdel s.trail.doorbells dev }

/-! ## Commands the Trailhead executes (R131–R134, R140) -/

/-- A command may begin: decided without failure, not begun, and its fence clear (R131). -/
def mayBegin (s : State) (c : Cmd) : Bool :=
  c.decided && c.result.isNone && !c.begun &&
  (!fenceOf c.entry.toNat || (match ringOf s c.ring with
    | some r => decide (r.csw + 1 = c.seq)
    | none => false))

/-- The command of a ring and sequence number with an opcode, when it may begin; deciding it first if run-ahead left it open. -/
def begin? (s : State) (r : Nat) (seq : BitVec 64) (op : Nat) : State × Option Cmd :=
  let s1 := decideReady s r
  match cmdOf s1 r seq with
  | some c => if opcodeOf c.entry.toNat = op ∧ mayBegin s1 c then (s1, some c) else (s1, none)
  | none => (s1, none)

/-- The relocation of the field at a byte offset. -/
def relocAt (c : Cmd) (off : Nat) : Option HEntry :=
  ((c.relocs.getD []).find? (fun x => decide (x.off = off))).map (·.entry)

/-- The descriptor that the TABLE field of a command saw at relocation (R211). -/
def descAt (c : Cmd) (off : Nat) : Nat := (((c.relocs.getD []).find? (fun x => decide (x.off = off))).map (·.desc)).getD 0

/-- NOP: completes OK. -/
def execNopCmd (ring : Fin 4096) (seq : BitVec 64) (s : State) : Out :=
  .next (match begin? s ring seq 0x01 with
  | (s1, some _) => finish s1 ring seq ⟨stOk, 0, 0⟩
  | (s1, none) => s1)

/-- HANDLE_SET: its outcome, the full handle in AUX; the entry is written and VALID as the command completes, and a VALID entry is left as it is
(R133, R137). -/
def execHandleSet (ring : Fin 4096) (seq : BitVec 64) (s : State) : Out :=
  .next (match begin? s ring seq 0x08 with
  | (s1, none) => s1
  | (s1, some c) =>
    let old := hEntry s1 c.part (handleCmdIndex c)
    if old.valid then finish s1 ring seq ⟨stInUse, 0, 0⟩ else finish s1 ring seq ⟨stOk, old.gen * 2 ^ 20 + handleCmdIndex c, 0⟩)

/-- HANDLE_CLEAR: its outcome; the entry is cleared as the command completes, once every command that relocated the handle before has (R133). -/
def execHandleClear (ring : Fin 4096) (seq : BitVec 64) (s : State) : Out :=
  .next (match begin? s ring seq 0x09 with
  | (s1, none) => s1
  | (s1, some _) => finish s1 ring seq ⟨stOk, 0, 0⟩)

/-- Output bytes of a command: to host memory through the ring's function for a HOSTBUF, to device memory for a BUFFER. -/
def outWrite (s : State) (ring : Ring) (e : HEntry) (off : Nat) (bs : List Byte) : State :=
  if e.kind = kHostbuf then postWrite s ring.port ring.fn (e.base + off) bs else writeMem s (e.base + off) bs

/-- The bytes a command reads from a handle: the operand's for a HOSTBUF, device memory's for a BUFFER; an error gives the AUX of
MEMORY_ERROR (R248, R351). -/
def srcRead (s : State) (e : HEntry) (off len : Nat) (src : HostRead) : State × Except Nat (List Byte) :=
  if e.kind = kHostbuf then
    match src with
    | .ok d => (s, .ok (bytesAt d 0 len))
    | .err => (s, .error hostErrAux)
  else readMem s (e.base + off) len

/-- COPY: LENGTH bytes from SRC to DST (Table 8-4); a read error completes it with MEMORY_ERROR. -/
def execCopyCmd (ring : Fin 4096) (seq : BitVec 64) (src : HostRead) (s : State) : Out :=
  .next (match begin? s ring seq 0x40, ringOf s ring with
  | (s1, some c), some rg =>
    let e := c.entry.toNat
    match relocAt c 16, relocAt c 20 with
    | some a, some b =>
      (match srcRead s1 a (cf e 31 24) (cf e 47 40) src with
        | (s2, .ok bs) => finish (outWrite s2 rg b (cf e 39 32) bs) ring seq ⟨stOk, 0, 0⟩
        | (s2, .error aux) => finish s2 ring seq ⟨stMemoryError, aux, 0⟩)
    | _, _ => s1
  | (s1, _), _ => s1)

/-- A partition's handle table cleared to not VALID with GEN = 1 (R132). -/
def clearTable (s : State) (p : Nat) : State :=
  { s with trail.handles := s.trail.handles.filter (fun q => decide (q.1 / 2 ^ 20 ≠ p)), trail.clears := sdel s.trail.clears p }

/-- Every entry of a partition's handle table cleared as HANDLE_CLEAR clears it, each GEN advanced (R287). -/
def clearAllHandles (s : State) (p : Nat) : State :=
  let blank : HEntry := { gen := (sget 0 s.trail.clears p + 1) % 255 + 1 }
  { s with trail.clears := sput s.trail.clears p (sget 0 s.trail.clears p + 1),
           trail.handles := (s.trail.handles.map (fun q =>
             if q.1 / 2 ^ 20 = p then (q.1, { q.2 with valid := false, gen := nextGen q.2.gen }) else q)).filter (fun q => decide (q.1 / 2 ^ 20 ≠ p ∨ q.2 ≠ blank)) }

end Sys2Proof.Machine
end

