-- ==== Sys2Proof/Machine/Stands.lean ====
section
/-! DEFINITION. Stands, models and their commands (R143–R146, R148, R150, R151). -/
namespace Sys2Proof.Machine

/-- STAND_ALLOT of a partition (R143). -/
def standFirst (s : State) (p : Nat) : Nat := field (param s 0x2401 1 p) 16 0
def standCount (s : State) (p : Nat) : Nat := field (param s 0x2401 1 p) 49 32

/-- A stand; a FREE stand is not listed. -/
def standOf (s : State) (n : Nat) : Option Stand := sfind s.stands.stands n

/-- A stand changed, or made FREE. -/
def modStand (s : State) (n : Nat) (f : Stand → Stand) : State := { s with stands.stands := smod s.stands.stands n f }
def freeStand (s : State) (n : Nat) : State := { s with stands.stands := sdel s.stands.stands n }

/-- STATE of a model slot: 0 EMPTY, 1 LOADING, 2 RESIDENT (Table 9-3). -/
def slotState (s : State) (p m : Nat) : Nat := sget 0 s.stands.slots (16 * p + m)
def setSlot (s : State) (p m v : Nat) : State := { s with stands.slots := sset 0 s.stands.slots (16 * p + m) v }

/-- GRAPH handle of a model slot. -/
def slotGraph (s : State) (p m : Nat) : Nat := field (param s 0x2410 (m + 1) p) 31 0

/-- Stands of a partition that name a slot (Table 9-3). -/
def slotStands (s : State) (p m : Nat) : Nat :=
  (s.stands.stands.filter (fun q => decide (q.2.part = p) && decide (q.2.model = m))).length

/-- A stand is ready (R146). -/
def standReady (s : State) (x : Stand) : Bool :=
  decide (x.state = 1) && x.stepPending && !x.listed && decide (slotState s x.part x.model = 2)

/-- A stand command is refused with a reason (R144, Table 9-6). -/
def standState (s : State) (r : Nat) (seq : BitVec 64) (reason : Nat) : State := finish s r seq ⟨stStandState, reason, 0⟩

/-- The stand that a command's STAND field names, as a device stand number, when it is allotted (R143, R144). -/
def standNamed (s : State) (c : Cmd) : Option Nat :=
  match relocAt c 16 with
  | some e => if e.object < standCount s c.part then some (standFirst s c.part + e.object) else none
  | none => none

/-- The STAND_PARKs or STAND_CLOSEs of a stand that wait for it complete. -/
def completeWaiting (s : State) (n op : Nat) (res : CmdResult) : State :=
  s.trail.cmds.foldl (fun t c =>
    if !c.dup && c.begun && c.result.isNone && decide (opcodeOf c.entry.toNat = op) && decide (standNamed s c = some n)
    then finish t c.ring c.seq res else t) s

/-- A stand becomes FREE: its waiting close completes, and a waiting park ends with NOT_OPEN (R144, R320). -/
def closeStand (s : State) (n : Nat) : State :=
  completeWaiting (completeWaiting (freeStand s n) n 0x12 ⟨stStandState, 1, 0⟩) n 0x13 ⟨stOk, 0, 0⟩

/-- What follows once a stand has no step pending: the close or the park that waits takes effect (R144). -/
def settleStand (s : State) (n : Nat) : State :=
  match standOf s n with
  | none => s
  | some x =>
    if x.stepPending then s
    else if x.closeReq then closeStand s n
    else if x.parkReq then
      completeWaiting (modStand s n (fun y => { y with state := 2, parkReq := false })) n 0x12 ⟨stOk, 0, 0⟩
    else s

/-- A listed step is over: counted in STEPS, LAST_STEP set, and what waited for it takes effect (R144, Table 9-1). -/
def stepOver (s : State) (n : Nat) : State :=
  settleStand (modStand s n (fun y =>
    { y with stepPending := false, listed := false, steps := y.steps + 1, lastStep := (s.time.clock - y.listedAt) / 1000 })) n

/-- A listed step ends with an outcome. It is over when its record is written (Tables 9-1 and 9-2), or at once where a reset has taken its command. -/
def endStep (s : State) (n : Nat) (res : CmdResult) (rerun : Bool) : State :=
  match standOf s n with
  | none => s
  | some x =>
    if !x.listed then s
    else if (cmdOf s x.ring x.stepSeq).isNone then stepOver s n
    else finish (if rerun then modCmd s x.ring x.stepSeq (fun c => { c with rerun := true }) else s) x.ring x.stepSeq res

/-- The record of a listed step is written. -/
def settleStep (s : State) (c : Cmd) : State :=
  if c.dup || decide (opcodeOf c.entry.toNat ≠ 0x11) then s
  else match standNamed s c with
    | none => s
    | some n => match standOf s n with
      | none => s
      | some x => if x.listed && decide (x.ring = c.ring) && decide (x.stepSeq = c.seq) then stepOver s n else s

/-! ## Records of commands (R133, R138, R139) -/

/-- The record, the CSW and the completion event of a command whose outcome is known (R138, R139); Lookout counts its end (R321). A HANDLE_SET or
HANDLE_CLEAR changes its entry, and what run-ahead knew of it is redone (R137). -/
def completeOne (s0 : State) (r : Nat) (seq : BitVec 64) : State :=
  match ringOf s0 r, recordable s0 r seq with
  | some rg, some c =>
    match c.result with
    | none => s0
    | some res0 =>
      let (s, res) := applyHandle s0 c res0
      let s1 := writeRecord { s with trail.cmds := s.trail.cmds.erase c } r rg seq res
      let s2 := lkEnd s1 (opcodeOf c.entry.toNat) c.cls c.part c.arrival c.dup res.status res.aux c.overFabric (bitOf res.flags 1) c.switched
      let s3 := if c.dup then raise { s2 with trail.duplicates := s2.trail.duplicates + 1 } (0x200 + rg.source)
        else advanceCsw s2 r seq
      let s4 := settleRing (settleStep s3 c) r
      if isHandleCmd c then decideReady (dropShadows s4 r (handleCmdIndex c)) r else decideReady s4 r
  | _, _ => s0

/-- A HANDLE_CLEAR that has to wait for a command with its handle relocated (R133). -/
def clearWaits (s : State) (c : Cmd) : Bool :=
  isHandleCmd c && decide (opcodeOf c.entry.toNat = 0x09) && c.result.any (fun x => decide (x.status = stOk)) && !clearFree s c

/-- COMPLETION_WRITE (R133, R138, R139). -/
def execCompletionWrite (ring : Fin 4096) (seq : BitVec 64) (s : State) : Out :=
  .next (match recordable s ring seq with
  | some c => if clearWaits s c then s else completeOne s ring seq
  | none => s)

/-! ## Stand commands -/

/-- A pending step that is not listed ends without running. -/
def dropStep (s : State) (n : Nat) (res : CmdResult) : State :=
  match standOf s n with
  | none => s
  | some x =>
    if !x.stepPending then s
    else modStand (finish s x.ring x.stepSeq res) n (fun y => { y with stepPending := false, listed := false })

/-- STAND_OPEN (R144). -/
def execStandOpen (ring : Fin 4096) (seq : BitVec 64) (s : State) : Out :=
  .next (match begin? s ring seq 0x10 with
  | (s1, none) => s1
  | (s1, some c) =>
    match standNamed s1 c, relocAt c 20 with
    | none, _ => standState s1 ring seq 4
    | some n, some m =>
      if (standOf s1 n).isSome then standState s1 ring seq 3
      else if slotState s1 c.part m.object = 0 then standState s1 ring seq 5
      else
        let b := cf c.entry.toNat 35 32
        let x : Stand := { state := 1, part := c.part, model := m.object, stateBuf := cf c.entry.toNat 27 24,
                           budget := if b = 0 then param s1 0x2402 4 c.part else b }
        finish { s1 with stands.stands := sput s1.stands.stands n x } ring seq ⟨stOk, 0, 0⟩
    | some _, none => s1)

/-- STAND_STEP (R144): the pending step, with its absolute deadline. -/
def execStandStep (ring : Fin 4096) (seq : BitVec 64) (s : State) : Out :=
  .next (match begin? s ring seq 0x11 with
  | (s1, none) => s1
  | (s1, some c) =>
    match standNamed s1 c with
    | none => standState s1 ring seq 4
    | some n =>
      match standOf s1 n with
      | none => standState s1 ring seq 1
      | some x =>
        if x.state = 3 then standState s1 ring seq 1
        else if x.stepPending then standState s1 ring seq 2
        else
          let d := cf c.entry.toNat 55 52
          let due := c.fetchDev + 1000 * (if d = 0 then x.budget else d)
          modCmd (modStand s1 n (fun y =>
            { y with state := 1, stepPending := true, listed := false, ring := ring, stepSeq := seq, deadline := due, order := c.order,
                     readyAt := s1.time.clock })) ring seq (fun z => { z with begun := true }))

/-- STAND_PARK (R144). -/
def execStandPark (ring : Fin 4096) (seq : BitVec 64) (s : State) : Out :=
  .next (match begin? s ring seq 0x12 with
  | (s1, none) => s1
  | (s1, some c) =>
    match standNamed s1 c with
    | none => standState s1 ring seq 4
    | some n =>
      match standOf s1 n with
      | none => standState s1 ring seq 1
      | some x =>
        if x.state = 3 then standState s1 ring seq 1
        else settleStand (modCmd (modStand s1 n (fun y => { y with parkReq := true })) ring seq (fun z => { z with begun := true })) n)

/-- STAND_CLOSE (R144): an unlisted step completes with CLOSED; the stand is RETIRING until a listed step ends. A park that waits
ends with NOT_OPEN. -/
def execStandClose (ring : Fin 4096) (seq : BitVec 64) (s : State) : Out :=
  .next (match begin? s ring seq 0x13 with
  | (s1, none) => s1
  | (s1, some c) =>
    match standNamed s1 c with
    | none => standState s1 ring seq 4
    | some n =>
      match standOf s1 n with
      | none => standState s1 ring seq 1
      | some x =>
        if x.state = 3 then standState s1 ring seq 1
        else
          let s2 := modCmd (modStand s1 n (fun y => { y with closeReq := true, parkReq := false, state := 3 })) ring seq (fun z => { z with begun := true })
          let s3 := completeWaiting s2 n 0x12 ⟨stStandState, 1, 0⟩
          let s4 := if x.stepPending && !x.listed then dropStep s3 n ⟨stStandState, 7, 0⟩ else s3
          settleStand s4 n)

/-- A switch of a partition that names a slot and has not completed (R151). -/
def switchNames (s : State) (p m : Nat) : Bool :=
  s.stands.switches.any (fun w => decide (w.part = p) && (decide (w.new = m) || decide (w.old = some m)))

/-- MODEL_SWITCH (R151). -/
def execModelSwitch (ring : Fin 4096) (seq : BitVec 64) (s : State) : Out :=
  .next (match begin? s ring seq 0x14 with
  | (s1, none) => s1
  | (s1, some c) =>
    match relocAt c 16, relocAt c 20 with
    | some nw, some w =>
      let len := cf c.entry.toNat 39 32
      let old := (relocAt c 40).map (·.object)
      let p := c.part
      let busy := (if len = 0 then decide (slotState s1 p nw.object ≠ 2) else decide (slotState s1 p nw.object ≠ 0)) ||
        decide (old = some nw.object) ||
        (old.isSome && s1.stands.switches.any (fun x => decide (x.part = p) && decide (x.old = old) && x.loading))
      if busy then standState s1 ring seq 6
      else if len = 0 ∧ old = none then finish s1 ring seq ⟨stOk, 0, 0⟩
      else
        let x : Switch := { part := p, ring, seq, new := nw.object, old, loading := decide (len ≠ 0), dst := nw.base,
                            src := w.base + cf c.entry.toNat 31 24, len, hostSrc := decide (w.kind = kHostbuf) }
        let s2 := modCmd { s1 with stands.switches := s1.stands.switches ++ [x] } ring seq (fun z => { z with begun := true })
        if len = 0 then s2 else setSlot s2 p nw.object 1
    | _, _ => s1)

/-- Weights laid out in the tile order of a graph (R151); the order is open. -/
def tiled (graph : Nat) (bs : List Byte) : List Byte :=
  (List.range bs.length).map (fun i => lget 0 bs (Config.tileOrder graph bs.length i % bs.length))

/-- MODEL_LOAD_DONE: the weights of a slot in LOAD have streamed; a preload completes (R151). A read error leaves the slot EMPTY. -/
def execModelLoadDone (part : Fin 72) (slot : Fin 16) (src : HostRead) (s : State) : Out :=
  .next (match s.stands.switches.find? (fun w => decide (w.part = part.val) && decide (w.new = slot.val) && w.loading) with
  | none => s
  | some w =>
    let drop (t : State) : State := { t with stands.switches := t.stands.switches.erase w }
    let rd : State × Except Nat (List Byte) := if w.hostSrc then (match src with
        | .ok d => (s, .ok (bytesAt d 0 w.len))
        | .err => (s, .error hostErrAux)) else readMem s w.src w.len
    match rd with
    | (s1, .error aux) => finish (setSlot (drop s1) part slot 0) w.ring w.seq ⟨stMemoryError, aux, 0⟩
    | (s1, .ok bs) =>
      let s2 := setSlot (writeMem s1 w.dst (tiled (slotGraph s part slot) bs)) part slot 2
      if w.old.isNone then finish (drop s2) w.ring w.seq ⟨stOk, 0, 0⟩
      else { s2 with stands.switches := s2.stands.switches.map (fun x => if x = w then { x with loading := false } else x) })

/-- A model flip at a boundary (R151): the stands of the old slot name the new one, the old slot is EMPTY, the switch completes. -/
def flipModels (s : State) (p : Nat) : State :=
  s.stands.switches.foldl (fun t w =>
    match w.old with
    | some o =>
      if w.part = p ∧ !w.loading then
        let t1 := { t with stands.stands := t.stands.stands.map (fun q => if q.2.part = p ∧ q.2.model = o then (q.1, { q.2 with model := w.new }) else q),
                           stands.switches := t.stands.switches.erase w, stands.flipped := insertNat t.stands.flipped p }
        finish (setSlot t1 p o 0) w.ring w.seq ⟨stOk, 0, 0⟩
      else t
    | none => t) s

/-- A switch of the partition is in LOAD (R323). -/
def inLoad (s : State) (p : Nat) : Bool := s.stands.switches.any (fun w => decide (w.part = p) && w.loading)

end Sys2Proof.Machine
end

