-- ==== Sys2Proof/Machine/Rootwork.lean ====
section
/-!
DEFINITION. Rootwork: descriptors, admission, firing, dispatch, tokens, shadow release and undo, completion, deadlock and abort
(R152–R165, R181–R186, R301, R304–R306).
-/
namespace Sys2Proof.Machine

/-! ## Instances, nodes, queues -/

/-- An instance, its nodes and queues. -/
def instOf (s : State) (i : Nat) : Option Inst := sfind s.root.insts i
def modInst (s : State) (i : Nat) (f : Inst → Inst) : State := { s with root.insts := smod s.root.insts i f }
def nodeOf (x : Inst) (n : Nat) : Option Node := x.nodes[n]?
def queueOf (x : Inst) (q : Nat) : Option Queue := x.queues[q]?
def setNode (x : Inst) (n : Nat) (f : Node → Node) : Inst := { x with nodes := x.nodes.modify n f }
def setQueue (x : Inst) (q : Nat) (f : Queue → Queue) : Inst := { x with queues := x.queues.modify q f }
def modNode (s : State) (i n : Nat) (f : Node → Node) : State := modInst s i (fun x => setNode x n f)
def modFiring (s : State) (i n k : Nat) (f : Firing → Firing) : State :=
  modNode s i n (fun x => { x with firings := x.firings.map (fun y => if y.num = k then f y else y) })
def firingOf (s : State) (i n k : Nat) : Option Firing :=
  (instOf s i).bind (fun x => (nodeOf x n).bind (fun y => y.firings.find? (fun z => decide (z.num = k))))
def modTask (s : State) (i n k t : Nat) (f : Task → Task) : State :=
  modFiring s i n k (fun y => { y with tasks := y.tasks.modify t f })
def taskOf (s : State) (i n k t : Nat) : Option Task := (firingOf s i n k).bind (fun y => y.tasks[t]?)

/-- RW_STATS, SPEC_STATS and FB_STATS counters raised. -/
def rwStat (s : State) (p k : Nat) : State := { s with root.stats := sset 0 s.root.stats (4 * p + k) ((sget 0 s.root.stats (4 * p + k) + 1) % 2 ^ 32) }
def specStat (s : State) (p k n : Nat) : State := { s with gr.spec := sset 0 s.gr.spec (4 * p + k) ((sget 0 s.gr.spec (4 * p + k) + n) % 2 ^ 64) }
def fbStat (s : State) (p k n : Nat) : State := { s with fb.stats := sset 0 s.fb.stats (8 * p + k) ((sget 0 s.fb.stats (8 * p + k) + n) % 2 ^ 64) }

/-! ## Descriptors (R152, R153) -/

/-- Node `n` and queue `q` of a descriptor. -/
def nodeAt (d : List Byte) (off : Nat) : NodeEnt :=
  { kind := leAt d off 1, nin := leAt d (off + 1) 1, nout := leAt d (off + 2) 1, provOk := bitOf (leAt d (off + 3) 1) 0,
    checked := bitOf (leAt d (off + 3) 1) 1, remote := bitOf (leAt d (off + 3) 1) 2, width := leAt d (off + 4) 2,
    dieMask := leAt d (off + 6) 1 % 64, entry := leAt d (off + 8) 2, firings := leAt d (off + 10) 2,
    inQ := (List.range 8).map (fun k => leAt d (off + 12 + 2 * k) 2), outQ := (List.range 8).map (fun k => leAt d (off + 28 + 2 * k) 2),
    operand := leAt d (off + 44) 4, opOff := leAt d (off + 48) 8, opLen := leAt d (off + 56) 4 }

/-- Input and output queues a node uses; a remote OUTPUT has none of the latter (R153). -/
def inQs (e : NodeEnt) : List Nat := e.inQ.take e.nin
def outQs (e : NodeEnt) : List Nat := if e.kind = 6 then [] else e.outQ.take e.nout

/-- The operand kinds a node accepts (R153). -/
def operandKinds (kind : Nat) : List Nat := if kind = 2 then [kTable] else if kind = 1 then [kBuffer, kModel] else [kBuffer]

/-- The right that a node's work needs of its operand (R134, R153): a THICKET node reads its table, a CANOPY node reduces into its buffer. -/
def operandReads (kind : Nat) : Bool := decide (kind = 2)
def operandWrites (kind : Nat) : Bool := decide (kind = 3)

/-- The rules of a node entry, as (byte offset, broken) (Table 10-2, R153); `init` tells that initial tokens are read from its operand. -/
def nodeRules (s : State) (p nq off : Nat) (init : Bool) (e : NodeEnt) : List (Nat × Bool) :=
  let widthOk := if e.kind = 1 then decide (1 ≤ e.width ∧ e.width ≤ 4096) else if e.kind = 2 then decide (1 ≤ e.width ∧ e.width ≤ 16) else decide (e.width = 1)
  let ninOk := if e.kind = 5 then decide (e.nin = 0) else if e.kind = 6 then (if e.remote then decide (e.nin = 1) else decide (1 ≤ e.nin ∧ e.nin ≤ 8)) else decide (e.nin ≤ 8)
  let noutOk := if e.kind = 5 then decide (1 ≤ e.nout ∧ e.nout ≤ 8) else if e.kind = 6 then (if e.remote then decide (e.nout = 2) else decide (e.nout = 0)) else decide (e.nout ≤ 8)
  let opOk := match relocate s p e.operand (operandKinds e.kind) (operandReads e.kind || init) (operandWrites e.kind) e.opOff e.opLen with
    | .ok _ => true
    | .error _ => false
  [(off, !(decide (1 ≤ e.kind ∧ e.kind ≤ 6))), (off + 1, !ninOk), (off + 2, !noutOk), (off + 3, e.remote && decide (e.kind ≠ 6)), (off + 4, !widthOk),
   (off + 8, decide (e.kind = 1) && decide (16383 < e.entry)), (off + 10, decide (e.firings = 0))] ++
  ((inQs e).zipIdx.map (fun q => (off + 12 + 2 * q.2, decide (nq ≤ q.1)))) ++ ((outQs e).zipIdx.map (fun q => (off + 28 + 2 * q.2, decide (nq ≤ q.1)))) ++
  [(off + 44, decide (e.operand ≠ 0) && !opOk)]

/-- The rules of a queue entry: ranges, and its one place at its producer and at its consumer (Table 10-3, R153). -/
def queueRules (nodes : List NodeEnt) (q off depth init pr co : Nat) : List (Nat × Bool) :=
  let uses (f : NodeEnt → List Nat) (n : Nat) : Nat := ((nodes[n]?).map (fun e => ((f e).filter (· = q)).length)).getD 0
  [(off, !(decide (1 ≤ depth ∧ depth ≤ 256))), (off + 2, decide (depth < init)), (off + 4, decide (uses outQs pr ≠ 1)), (off + 6, decide (uses inQs co ≠ 1))]

/-- NODE_COUNT, QUEUE_COUNT, NODE_OFF and QUEUE_OFF of a descriptor header (Table 10-1). -/
def hdrNodes (d : List Byte) : Nat := leAt d 4 2
def hdrQueues (d : List Byte) : Nat := leAt d 6 2
def hdrNodeOff (d : List Byte) : Nat := leAt d 8 4
def hdrQueueOff (d : List Byte) : Nat := leAt d 12 4

/-- The first failing field of a descriptor header in a handle of a length (R153). -/
def headerFault (len : Nat) (d : List Byte) : Option Nat :=
  ([(0, decide (leAt d 0 4 ≠ 0x48545752) || decide (len < 64)), (4, !(decide (1 ≤ hdrNodes d ∧ hdrNodes d ≤ 4096))), (6, decide (8192 < hdrQueues d)),
    (8, decide (hdrNodeOff d % 64 ≠ 0) || decide (len < hdrNodeOff d + 64 * hdrNodes d)),
    (12, decide (hdrQueueOff d % 8 ≠ 0) || decide (len < hdrQueueOff d + 8 * hdrQueues d))].find? (·.2)).map (·.1)

/-- The first failing field of the node table `nb` and the queue table `qb` of a descriptor with header `d`, in ascending byte order (R153), or its
nodes and queues. -/
def parseGraph (s : State) (p : Nat) (d nb qb : List Byte) : Except Nat (List NodeEnt × List (Nat × Nat × Nat × Nat)) :=
  let nodes := (List.range (hdrNodes d)).map (fun n => nodeAt nb (64 * n))
  let queues := (List.range (hdrQueues d)).map (fun q => (leAt qb (8 * q) 2, leAt qb (8 * q + 2) 2, leAt qb (8 * q + 4) 2, leAt qb (8 * q + 6) 2))
  let rules := nodes.zipIdx.flatMap (fun e =>
      nodeRules s p (hdrQueues d) (hdrNodeOff d + 64 * e.2) (queues.any (fun q => decide (q.2.2.1 = e.2) && decide (q.2.1 ≠ 0))) e.1) ++
    queues.zipIdx.flatMap (fun q => queueRules nodes q.2 (hdrQueueOff d + 8 * q.2) q.1.1 q.1.2.1 q.1.2.2.1 q.1.2.2.2)
  match rules.foldl (fun a r => if r.2 then (match a with
      | none => some r.1
      | some b => some (Nat.min b r.1)) else a) none with
  | some o => .error o
  | none => .ok (nodes, queues)

/-- A graph descriptor read through its handle: nodes and queues, or a failure as status and AUX. -/
def readGraph (s : State) (p : Nat) (h : HEntry) : State × Except CmdResult (List NodeEnt × List (Nat × Nat × Nat × Nat)) :=
  match readMem s h.base (Nat.min h.length 64) with
  | (s1, .error aux) => (s1, .error ⟨stMemoryError, aux, 0⟩)
  | (s1, .ok d) => match headerFault h.length d with
    | some o => (s1, .error ⟨stBadField, 0x80000000 + o, 0⟩)
    | none => match readMem s1 (h.base + hdrNodeOff d) (64 * hdrNodes d) with
      | (s2, .error aux) => (s2, .error ⟨stMemoryError, aux, 0⟩)
      | (s2, .ok nb) => match readMem s2 (h.base + hdrQueueOff d) (8 * hdrQueues d) with
        | (s3, .error aux) => (s3, .error ⟨stMemoryError, aux, 0⟩)
        | (s3, .ok qb) => match parseGraph s3 p d nb qb with
          | .error o => (s3, .error ⟨stBadField, 0x80000000 + o, 0⟩)
          | .ok g => (s3, .ok g)

/-! ## States and counters (R155, R161) -/

/-- Every task of a firing has retired. -/
def allRetired (f : Firing) : Bool := f.tasks.all (fun t => decide (t.place = .retired))

/-- A firing of the node has tasks that have not retired (RUNNING). -/
def nodeRunning (n : Node) : Bool := n.firings.any (fun f => !f.emitted)

/-- The node is DONE: it has fired FIRINGS times. -/
def nodeDone (n : Node) : Bool := decide (n.ent.firings ≤ n.fired)

/-- A token is confirmed, or retracted. -/
def isConfirmed (t : Token) : Bool := decide (t.st = .confirmed)
def isRetracted (t : Token) : Bool := match t.st with
  | .retracted _ => true
  | _ => false

/-- The oldest token of each input queue, when every queue holds one. -/
def headTokens (x : Inst) (e : NodeEnt) : Option (List Token) := (inQs e).mapM (fun q => (queueOf x q).bind (·.tokens.head?))

/-- Every output queue has a free slot (R158). -/
def outputsFree (x : Inst) (e : NodeEnt) : Bool := (outQs e).all (fun q => (queueOf x q).any (fun y => decide (y.occupied < y.depth)))

/-- Tokens that may be taken by one grove only: HELD ones, and all provisional ones under PROV_FWD = 0 (R182, R302). -/
def tied (s : State) (p : Nat) (l : List Token) : List Token :=
  l.filter (fun t => !isConfirmed t && (t.held || decide (param s 0x6001 1 p = 0)))

/-- The one grove that may take the tied tokens, when it serves the partition on a die of the node. -/
def tieGrove (s : State) (x : Inst) (e : NodeEnt) (l : List Token) : Option Nat :=
  match tied s x.part l with
  | [] => none
  | t :: ts => match t.grove with
    | some g => if ts.all (fun u => decide (u.grove = some g)) && serves s x.part g && bitOf e.dieMask (g / 72) then some g else none
    | none => none

/-- The tokens at the heads of a node's inputs may be taken (R160, R182, R219): all confirmed, or a CORE, CANOPY, COPY or local OUTPUT
node with PROV_OK and no retracted token; tied tokens only by a CORE node on their grove. -/
def mayTake (s : State) (x : Inst) (e : NodeEnt) (l : List Token) : Bool :=
  l.all isConfirmed ||
  (e.provOk && decide (e.kind ≠ 2) && l.all (fun t => !isRetracted t) &&
   ((tied s x.part l).isEmpty || (decide (e.kind = 1) && (tieGrove s x e l).isSome)))

/-- The oldest token staged for an INPUT node of an instance, unless it is retracted: its corrected token takes its place first
(R159, R282). -/
def stagedFor (s : State) (x : Inst) (n : Nat) : Option StagedTok :=
  match s.root.staging.find? (fun t => decide (t.part = x.part) && decide (t.key = x.key) && decide (t.node = n)) with
  | some t => (match t.st with
    | .retracted _ => none
    | _ => some t)
  | none => none

/-- A provisional token may leave the device: the node fires on provisional tokens, PROV_FWD is 2, the token is not HELD and its ticket is
this device's, and the store has room (R160, R182, R302, R303). -/
def provMayLeave (s : State) (x : Inst) (e : NodeEnt) (t : Token) : Bool :=
  match t.st with
  | .prov k => e.provOk && decide (param s 0x6001 1 x.part = 2) && !t.held && t.src.isNone && decide (s.fb.store.length < 16384) &&
      decide (((s.fb.store.filter (fun e => decide (e.ticket = k))).map (fun e => e.dests.length)).sum < 8)
  | _ => false

/-- The inputs of a node allow a firing, whatever its outputs (R155, R156, R160): an INPUT node takes a provisional token only with PROV_OK, a
remote OUTPUT node one that may leave the device. -/
def inputsAllow (s : State) (x : Inst) (n : Nat) (e : NodeEnt) : Bool :=
  if e.kind = 5 then (stagedFor s x n).any (fun t => e.provOk || decide (t.st = .confirmed))
  else match headTokens x e with
    | some l => if e.kind = 6 ∧ e.remote then l.all (fun t => isConfirmed t || provMayLeave s x e t) else mayTake s x e l
    | none => false

/-- A firing of the node is permitted (R155, R156, R158). -/
def canFire (s : State) (x : Inst) (n : Nat) (y : Node) : Bool :=
  decide (y.started < y.ent.firings) && !nodeRunning y && inputsAllow s x n y.ent && outputsFree x y.ent

/-- The five counters of R161. -/
def cntReady (s : State) (x : Inst) : Nat :=
  (x.nodes.zipIdx.filter (fun q => canFire s x q.2 q.1)).length +
  ((x.nodes.flatMap (·.firings)).flatMap (·.tasks)).countP (fun t => match t.place with
    | .ready _ => true
    | .queued _ => true
    | _ => false)
def cntRunning (x : Inst) : Nat :=
  ((x.nodes.flatMap (·.firings)).flatMap (·.tasks)).countP (fun t => match t.place with
    | .core _ => true
    | .engine _ => true
    | .slice _ => true
    | _ => false)
def cntFlight (s : State) (i : Nat) (x : Inst) : Nat :=
  (x.queues.map (fun q => q.flight.length + q.tokens.countP (fun t => !isConfirmed t))).sum +
  ((x.nodes.flatMap (·.firings)).flatMap (·.taken)).countP (fun t => !isConfirmed t) + x.remote +
  s.root.staging.countP (fun t => stagedIn x t && decide (t.st ≠ .confirmed)) + s.fb.store.countP (awaitsTicket s i)
where
  /-- A token received for an INPUT node of the instance that waits in the staging (R159). -/
  stagedIn (x : Inst) (t : StagedTok) : Bool :=
    decide (t.part = x.part) && decide (t.key = x.key) && (nodeOf x t.node).any (fun y => decide (y.ent.kind = 5))
  /-- A token that the instance sent provisional, acknowledged and not confirmed yet (R160). -/
  awaitsTicket (s : State) (i : Nat) (e : ProvEntry) : Bool :=
    decide (e.ins = some i) && (decide (e.resolved = 0) || decide (e.resolved = 2)) &&
    !s.fab.out.any (fun o => decide (o.ticket = e.ticket) && (match o.owner with
      | .token j _ => decide (j = i)
      | _ => false))
def cntExternal (s : State) (x : Inst) : Nat :=
  (x.nodes.zipIdx.map (fun n => if n.1.ent.kind = 5 then
    n.1.ent.firings - (n.1.fired + s.root.staging.countP (fun t => decide (t.part = x.part) && decide (t.key = x.key) && decide (t.node = n.2))) else 0)).sum
def cntWaiting (s : State) (x : Inst) : Nat :=
  (x.nodes.zipIdx.filter (fun q => !nodeDone q.1 && !nodeRunning q.1 && !canFire s x q.2 q.1)).length

/-! ## Placement and dispatch (R157, R304) -/

/-- The task queue of a grove. -/
def gQueue (s : State) (g : Nat) : List QTask := sget [] s.root.queues g
def setGQueue (s : State) (g : Nat) (l : List QTask) : State := { s with root.queues := if l.isEmpty then sdel s.root.queues g else sput s.root.queues g l }

/-- Tasks queued on the groves of a die that serve a partition; none where no grove does. -/
def dieLoad (s : State) (p d : Nat) (excl : List Nat) : Option Nat :=
  match (servingOn s p d).filter (fun g => !excl.contains g) with
  | [] => none
  | l => some ((l.map (fun g => (gQueue s g).length)).sum)

/-- The die of a list with the least load, the lowest first. -/
def leastDie (s : State) (p : Nat) (excl : List Nat) (dies : List Nat) : Option Nat :=
  (dies.foldl (fun (a : Option (Nat × Nat)) d => match dieLoad s p d excl with
    | none => a
    | some l => (match a with
      | none => some (d, l)
      | some (e, m) => if l < m then some (d, l) else some (e, m))) none).map (·.1)

/-- The die on which a task is placed (R157, R304): that of the grove it is tied to; for a re-run first the die of its last run; groves
that failed the firing only when nothing else remains. -/
def placeDie (s : State) (p mask : Nat) (excl : List Nat) (pinned : Option Nat) : Nat :=
  let dies := (List.range 6).filter (fun d => bitOf mask d)
  match pinned with
  | some g => g / 72
  | none =>
    let first := match excl with
      | [] => none
      | g :: _ => leastDie s p excl (dies.filter (· = g / 72))
    match first with
    | some d => d
    | none => match leastDie s p excl dies with
      | some d => d
      | none => (leastDie s p [] dies).getD (dies.headD 0)

/-- Every task of a firing goes to a die's ready list. -/
def placeTasks (s : State) (i n : Nat) (f : Firing) : State :=
  match instOf s i with
  | none => s
  | some x => match nodeOf x n with
    | none => s
    | some y =>
      let d := placeDie s x.part y.ent.dieMask f.failed f.pinned
      let sh := decide (y.ent.kind = 1) && (y.ent.checked || f.taken.any (fun t => !isConfirmed t))
      modFiring s i n f.num (fun z =>
        { z with returned := false, emitted := false, badInput := false, tasks := List.replicate y.ent.width { place := .ready d, shadowed := sh } })

/-- A task on a ready list, with what orders it (R157). -/
structure Cand where
  deadline : Nat
  order : Nat
  behind : Nat
  node : Nat
  task : Nat
  ins : Nat
  firing : Nat
  deriving DecidableEq, Repr

/-- The dispatch order of R157: deadline, admission, re-run firings of the instance first, node, task. -/
def candLt (a b : Cand) : Bool :=
  decide (a.deadline < b.deadline) || (decide (a.deadline = b.deadline) && (decide (a.order < b.order) || (decide (a.order = b.order) &&
  (decide (a.behind < b.behind) || (decide (a.behind = b.behind) && (decide (a.node < b.node) || (decide (a.node = b.node) && decide (a.task < b.task))))))))

/-- A list of tasks in dispatch order: insertion. -/
def candInsert (c : Cand) : List Cand → List Cand
  | [] => [c]
  | d :: l => if candLt c d then c :: d :: l else d :: candInsert c l

/-- The tasks on a die's ready list, in dispatch order. -/
def readyList (s : State) (d : Nat) : List Cand :=
  (s.root.insts.flatMap (fun q => q.2.nodes.zipIdx.flatMap (fun n => n.1.firings.flatMap (fun f => f.tasks.zipIdx.filterMap (fun t =>
    if t.1.place = .ready d then some ⟨q.2.deadline, q.2.order, if f.ahead ∨ t.1.ahead then 0 else 1, n.2, t.2, q.1, f.num⟩ else none))))).foldl
    (fun l c => candInsert c l) []

/-- A grove's sequencer waits for, or performs, a patch switch (R179). -/
def switchingUnit (s : State) (kind u : Nat) : Bool := (lget [] s.gr.micro.switching kind).contains u

/-- A grove is one of the four of its die that are switching now: the lowest of those still to switch (R179). -/
def switchingNow (s : State) (g : Nat) : Bool :=
  (((lget [] s.gr.micro.switching 0).filter (fun x => decide (x / 72 = g / 72))).take 4).contains g

/-- The grove that takes a task: among those that serve the partition on the die, the emptiest queue below 256, the lowest grove first
(R157); a grove that failed the firing only when no other is left anywhere in DIE_MASK. -/
def pickGrove (s : State) (p d mask : Nat) (f : Firing) : Option Nat :=
  let ok (g : Nat) : Bool := decide ((gQueue s g).length < 256) && !switchingNow s g && f.pinned.all (· = g)
  let all := (servingOn s p d).filter ok
  let other := (List.range 6).any (fun e => bitOf mask e && (servingOn s p e).any (fun g => !f.failed.contains g))
  let l := if other then all.filter (fun g => !f.failed.contains g) else all
  l.foldl (fun a g => match a with
    | none => some g
    | some h => if (gQueue s g).length < (gQueue s h).length then some g else some h) none

/-- A core of a grove that runs no task, the lowest first. -/
def idleCore (s : State) (g : Nat) : Option Nat :=
  (firstBelow (fun c => (sfind s.gr.cores (64 * g + c)).isNone) 64).map (64 * g + ·)

/-- The registers at a task's start (R170). -/
def startRegs (i n k t : Nat) (x : Inst) (f : Firing) : Core :=
  let v := (List.range 8).map (fun q => BitVec.ofNat 256 ((lget 0 (f.taken.map (fun (u : Token) => u.data)) q).toNat))
  { ins := i, node := n, firing := k, task := t, upc := f.entry,
    s := [0, BitVec.ofNat 32 t, BitVec.ofNat 32 k, BitVec.ofNat 32 i] ++ List.replicate 28 0,
    a := [BitVec.ofNat 48 x.argAddr, 0, 0, 0], v := v ++ List.replicate 24 0 }

/-- Idle cores of a grove take tasks from its queue in order (R157); the number bounds the tasks. -/
def takeTasks (g : Nat) : Nat → State → State
  | 0, s => s
  | b + 1, s =>
    if !serving s (unitGrove g) || switchingNow s g then s
    else match gQueue s g, idleCore s g with
    | q :: rest, some c =>
      (match instOf s q.ins, firingOf s q.ins q.node q.firing with
        | some x, some f =>
          let s1 := setGQueue { s with gr.cores := sput s.gr.cores c (startRegs q.ins q.node q.firing q.task x f) } g rest
          let s2 := modTask s1 q.ins q.node q.firing q.task (fun t => { t with place := .core c, grove := g })
          let w := (s.time.clock - q.since) / 1000
          let qw := s2.root.queueWait
          let more (m : Sparse Nat) (j v : Nat) : Sparse Nat := sput m j (satAdd (2 ^ 64 - 1) (sget 0 m j) v)
          let s3 := { s2 with root.queueWait := more (more qw (2 * x.part) w) (2 * x.part + 1) 1 }
          let sh := ((f.tasks[q.task]?).map (·.shadowed)).getD false
          takeTasks g b (if sh then countG (specStat s3 x.part 0 1) g 0x0D 1 else s3)
        | _, _ => takeTasks g b (setGQueue s g rest))
    | _, _ => s

/-- The die on which a task is placed again when its own has no grove left for it (R157, R304): first one with a grove that has not failed the firing. -/
def movesTo (s : State) (p d mask : Nat) (excl : List Nat) (pinned : Option Nat) : Option Nat :=
  let dies := (List.range 6).filter (fun e => bitOf mask e)
  if pinned.isSome || (dieLoad s p d excl).isSome then none
  else match leastDie s p excl dies with
  | some e => some e
  | none => if (dieLoad s p d []).isSome then none else leastDie s p [] dies

/-- One task of a die's ready list moved on, when something can take it; one whose die has no grove left for it is placed again (R157, R304). -/
def dispatchOne (s : State) (d : Nat) (c : Cand) : State :=
  match instOf s c.ins, firingOf s c.ins c.node c.firing with
  | some x, some f => (match nodeOf x c.node with
    | none => s
    | some y =>
      match movesTo s x.part d y.ent.dieMask (if y.ent.kind = 1 then f.failed else []) f.pinned with
      | some e => modTask s c.ins c.node c.firing c.task (fun t => { t with place := .ready e })
      | none =>
      if y.ent.kind = 1 then
        (match pickGrove s x.part d y.ent.dieMask f with
          | some g => countD (modTask (setGQueue s g (gQueue s g ++ [⟨c.ins, c.node, c.firing, c.task, s.time.clock⟩])) c.ins c.node c.firing c.task
              (fun t => { t with place := .queued g, grove := g })) d 0x4B 1
          | none => s)
      else if (servingOn s x.part d).isEmpty then s
      else countD (modTask s c.ins c.node c.firing c.task (fun t => { t with place := if y.ent.kind = 2 then .engine d else .slice d })) d 0x4B 1)
  | _, _ => s

/-- TASK_DISPATCH (R157): the tasks of a die's ready list go to grove queues, engines or the slice; cores take from their queues. -/
def execTaskDispatch (die : Fin 6) (s : State) : Out :=
  let s1 := (readyList s die).foldl (fun t c => dispatchOne t die c) s
  .next ((List.range 72).foldl (fun t g => takeTasks (72 * die + g) (gQueue t (72 * die + g)).length t) s1)

/-! ## Firing (R155, R156, R158) -/

/-- The heads of a node's input queues taken; a slot reserved on each output queue. -/
def takeAndReserve (x : Inst) (e : NodeEnt) : Inst :=
  let x1 := (inQs e).foldl (fun x q => setQueue x q (fun y => { y with tokens := y.tokens.drop 1 })) x
  (outQs e).foldl (fun x q => setQueue x q (fun y => { y with occupied := y.occupied + 1 })) x1

/-- Slots of a node's inputs freed. -/
def freeSlots (x : Inst) (e : NodeEnt) : Inst := (inQs e).foldl (fun x q => setQueue x q (fun y => { y with occupied := y.occupied - 1 })) x

/-- A refusal (R158): the node stands on the list of its first full output queue. -/
def refuse (s : State) (i n : Nat) (x : Inst) (y : Node) : State :=
  match (outQs y.ent).find? (fun q => (queueOf x q).any (fun z => decide (z.depth ≤ z.occupied))) with
  | none => s
  | some q =>
    if y.refusedOn.isSome then s
    else countD (rwStat (modInst s i (fun z => { setNode z n (fun w => { w with refusedOn := some q }) with refusals := z.refusals + 1 })) x.part 3)
      (i % 6) 0x4C 1

/-- Staging has room again: the sources that found it full are told (R279). -/
def openStaging (s : State) : State :=
  s.fab.refusedTokens.foldl (fun s d => sendAnswer s d 0 stOk []) { s with fab.refusedTokens := [] }

/-- A token written to each output queue of a node; it is in flight until it lands (R157). -/
def pushTokens (x : Inst) (e : NodeEnt) (mk : Nat → Token) : Inst :=
  (outQs e).zipIdx.foldl (fun x q => setQueue x q.1 (fun y => { y with flight := y.flight ++ [mk q.2] })) x

/-- A node fires (R155, R156). -/
def fireNode (s : State) (i n : Nat) (x : Inst) (y : Node) : State :=
  if y.ent.kind = 5 then
    match stagedFor s x n with
    | none => s
    | some t =>
      let mk (k : Nat) : Token := { data := t.data, node := n, firing := y.started, out := k, st := t.st, src := some t.src }
      let x1 := pushTokens (takeAndReserve x y.ent) y.ent mk
      let x2 := setNode x1 n (fun z => { z with started := z.started + 1, fired := z.fired + 1, refusedOn := none, since := s.time.clock })
      openStaging { modInst s i (fun _ => x2) with root.staging := s.root.staging.erase t }
  else
    let l := (headTokens x y.ent).getD []
    let x1 := takeAndReserve x y.ent
    if y.ent.kind = 6 then
      -- a sink that takes unconfirmed tokens keeps its firing until they are confirmed (R160)
      let kept : List Firing := if l.all isConfirmed then [] else [{ num := y.started, taken := l, emitted := true, freed := true }]
      modInst s i (fun _ => setNode (freeSlots x1 y.ent) n (fun z =>
        { z with started := z.started + 1, fired := z.fired + 1, firings := z.firings ++ kept, since := s.time.clock }))
    else
      let f : Firing := { num := y.started, taken := l, entry := y.ent.entry, pinned := tieGrove s x y.ent l }
      let s1 := modInst s i (fun _ => setNode x1 n (fun z => { z with started := z.started + 1, firings := z.firings ++ [f], refusedOn := none }))
      placeTasks s1 i n f

/-- NODE_FIRE: a permitted firing takes place; a node whose inputs are there and whose outputs are full is refused. Remote OUTPUT nodes
send by REMOTE_OUTPUT_SEND. -/
def execNodeFire (ins : Fin 16384) (node : Fin 4096) (s : State) : Out :=
  .next (match instOf s ins with
  | none => s
  | some x => match nodeOf x node with
    | none => s
    | some y =>
      if y.ent.kind = 6 ∧ y.ent.remote then s
      else if canFire s x node y then fireNode s ins node x y
      else if decide (y.started < y.ent.firings) && !nodeRunning y && !outputsFree x y.ent &&
        inputsAllow s x node y.ent
      then refuse s ins node x y else s)

/-- REFUSAL_REEVALUATE: the refused producer of a queue that has a free slot leaves its list (R158); where another of its output queues is full
now, it is refused on that one. -/
def execRefusalReevaluate (ins : Fin 16384) (q : Fin 8192) (s : State) : Out :=
  .next (match instOf s ins with
  | none => s
  | some x =>
    if !(queueOf x q).any (fun z => decide (z.occupied < z.depth)) then s
    else x.nodes.zipIdx.foldl (fun s y =>
      if y.1.refusedOn ≠ some q.val then s
      else
        let left := { y.1 with refusedOn := none }
        let s1 := modNode s ins y.2 (fun _ => left)
        match instOf s1 ins with
        | some x1 => if outputsFree x1 left.ent then s1 else refuse s1 ins y.2 x1 left
        | none => s1) s)

/-- TOKEN_LAND: the first token on its way to a queue lands (R157). -/
def execTokenLand (ins : Fin 16384) (q : Fin 8192) (s : State) : Out :=
  .next (modInst s ins (fun x => setQueue x q (fun y => match y.flight with
    | t :: rest => { y with flight := rest, tokens := y.tokens ++ [t] }
    | [] => y)))

/-! ## Tickets, emission, confirmation and retraction (R181–R184, R301) -/

/-- A new ticket: never 0, never one that is live (R301); none at the limit. -/
def newTicket (s : State) (p i n : Nat) : State × Option Nat :=
  if 1048576 ≤ s.fb.tickets.length then (s, none)
  else
    let live (k : Nat) : Bool := s.fb.tickets.any (fun t => decide (t.num = k))
    let start := s.fb.ticketNext
    let pick := (firstBelow (fun k => let v := (start + k) % 2 ^ 24; decide (v ≠ 0) && !live v) (s.fb.tickets.length + 2)).map (fun k => (start + k) % 2 ^ 24)
    match pick with
    | none => (s, none)
    | some v => ({ s with fb.ticketNext := (v + 1) % 2 ^ 24, fb.tickets := { num := v, part := p, ins := i, node := n } :: s.fb.tickets }, some v)

/-- A ticket resolved, a retraction counted: off-device destinations are told by TICKET_RESOLVE; one with none is no longer live (R301,
R303). -/
def resolveTicket (s0 : State) (k how : Nat) : State :=
  let s := match s0.fb.tickets.find? (fun t => decide (t.num = k) && decide (t.resolved = 0)) with
    | some t => if how = 2 then fbStat s0 t.part 5 1 else s0
    | none => s0
  if s.fb.store.any (fun e => decide (e.ticket = k)) then
    { s with fb.tickets := s.fb.tickets.map (fun t => if t.num = k then { t with resolved := how } else t),
             fb.store := s.fb.store.map (fun e => if e.ticket = k then { e with resolved := how } else e) }
  else { s with fb.tickets := s.fb.tickets.filter (fun t => decide (t.num ≠ k)) }

/-- A change of every copy of the tokens of a firing: in queues, on their way, and taken by firings. -/
def mapTokens (x : Inst) (n k : Nat) (f : Token → Token) : Inst :=
  let g (t : Token) : Token := if t.node = n ∧ t.firing = k then f t else t
  { x with queues := x.queues.map (fun q => { q with tokens := q.tokens.map g, flight := q.flight.map g }),
           nodes := x.nodes.map (fun y => { y with firings := y.firings.map (fun z => { z with taken := z.taken.map g }) }) }

/-- The token of an output stands somewhere, retracted. -/
def standsRetracted (x : Inst) (n k out : Nat) : Bool :=
  let h (t : Token) : Bool := decide (t.node = n) && decide (t.firing = k) && decide (t.out = out) && isRetracted t
  x.queues.any (fun q => q.tokens.any h || q.flight.any h) || x.nodes.any (fun y => y.firings.any (fun z => z.taken.any h))

/-- A sink's firing ends once every token it took is confirmed; one that was undone fires again when its tokens stand (R156, R160). -/
def settleSink (y : Node) : Node :=
  if y.ent.kind ≠ 6 then y
  else
    let again (f : Firing) : Bool := f.returned && f.taken.all (fun t => !isRetracted t)
    let fs := y.firings.map (fun f => if again f then { f with returned := false, badInput := false } else f)
    { y with fired := y.fired + y.firings.countP again,
             firings := fs.filter (fun f => f.returned || f.undoDue.isSome || !f.taken.all isConfirmed) }

/-- Undone firings whose inputs all stand again are placed; sinks settle (R160, R184). -/
def replaceReturned (s : State) (i : Nat) : State :=
  match instOf s i with
  | none => s
  | some x =>
    let s1 := x.nodes.zipIdx.foldl (fun s y => y.1.firings.foldl (fun s f =>
      if y.1.ent.kind ≠ 6 && f.returned && f.taken.all (fun t => !isRetracted t) then placeTasks s i y.2 f else s) s) s
    modInst s1 i (fun x => { x with nodes := x.nodes.map settleSink })

/-- Every task of a firing is released or was never shadowed. -/
def firingSafe (f : Firing) : Bool := f.tasks.all (fun t => !t.shadowed || t.released)

/-- Off-device tokens of a firing's output whose ticket was retracted and whose correction is still owed (R282, R303). -/
def owedFor (s : State) (i n k o : Nat) : List ProvEntry :=
  s.fb.store.filter (fun e => decide (e.ins = some i) && decide (e.node = n) && decide (e.firing = k) && decide (e.out = o) && decide (e.resolved = 2))

/-- A correction sent to a destination: a TOKEN with CORRECTION, PROV = 0 and the original ticket (R282). -/
def sendCorrection (s : State) (e : ProvEntry) (d : Nat) : State :=
  issueOp (fbStat s e.part 7 1) d 0x03 e.part (e.slot + 0x10000) e.ticket false (leBytes 4 e.key ++ leBytes 16 e.token.toNat) (.correction e.ticket e.out)

/-- The corrections of a re-run firing's confirmed tokens go to every destination (R303); they count as in flight (R160). -/
def sendCorrections (s : State) (i n k : Nat) (data : Nat → BitVec 128) : State :=
  (List.range 8).foldl (fun s o => (owedFor s i n k o).foldl (fun s e =>
    let e1 := { e with token := data o }
    let s1 := { s with fb.store := s.fb.store.map (fun z => if z = e then { e1 with resolved := 3 } else z) }
    e.dests.foldl (fun s d => if d.state = 1 then s else modInst (sendCorrection s e1 d.dest) i (fun x => { x with remote := x.remote + 1 })) s1) s) s

/-- The tokens of a finished firing emitted (R155, R170, R181): provisional with one ticket while a task is shadowed and unreleased,
held back at the ticket limit; corrections take the place of retracted tokens, and one
that an OUTPUT node has consumed is not emitted again. The slots of its inputs are freed once. -/
def emit (s : State) (i n k : Nat) (data : Nat → BitVec 128) : State :=
  match instOf s i, firingOf s i n k with
  | some x, some f => (match nodeOf x n with
    | none => s
    | some y =>
      let safe := firingSafe f
      let (s1, tk) := if safe then (s, none) else newTicket s x.part i n
      if !safe && tk.isNone then s
      else
        let st : TokSt := match tk with
          | some v => .prov v
          | none => .confirmed
        let groves := (f.tasks.map (·.grove)).eraseDups
        let gr := match groves with
          | [g] => some g
          | _ => none
        let held := !safe && f.tasks.any (fun t => !t.redo.isEmpty)
        let mk (o : Nat) : Token := { data := data o, node := n, firing := k, out := o, st, held, grove := gr }
        let x1 := (outQs y.ent).zipIdx.foldl (fun x q =>
          if standsRetracted x n k q.2 then mapTokens x n k (fun t => if t.out = q.2 ∧ isRetracted t then mk q.2 else t)
          else if f.freed then x
          else setQueue x q.1 (fun z => { z with flight := z.flight ++ [mk q.2] })) x
        let x2 := if f.freed then x1 else freeSlots x1 y.ent
        let x3 := setNode x2 n (fun z => { z with fired := z.fired + 1, since := s.time.clock, firings := z.firings.map (fun w =>
          if w.num = k then { w with emitted := true, freed := true, ticket := tk } else w) })
        let x4 := if safe then setNode x3 n (fun z => { z with firings := z.firings.filter (fun w => decide (w.num ≠ k)) }) else x3
        let s2 := replaceReturned (modInst s1 i (fun _ => x4)) i
        if safe then sendCorrections s2 i n k data else s2)
  | _, _ => s

/-- Token data of a CORE firing: lanes 3:0 of v(24 + k) of task 0 (R170). -/
def coreData (f : Firing) (o : Nat) : BitVec 128 := lget 0 ((f.tasks.head?.map (·.outs)).getD []) o

/-- A firing all of whose tasks are released: its tokens are confirmed, or emitted now, and it is over (R183). -/
def confirmFiring (s : State) (i n k : Nat) : State :=
  match firingOf s i n k with
  | none => s
  | some f =>
    if !firingSafe f || !allRetired f then s
    else if !f.emitted then emit s i n k (coreData f)
    else
      let s1 := replaceReturned (modInst s i (fun x => setNode (mapTokens x n k (fun t => { t with st := .confirmed, held := false })) n
        (fun z => { z with firings := z.firings.filter (fun w => decide (w.num ≠ k)) }))) i
      sendCorrections (match f.ticket with
        | some v => resolveTicket s1 v 1
        | none => s1) i n k (coreData f)

/-- The tokens of a firing retracted: those that wait keep their place; firings that took them are to be undone (R160, R184). -/
def retractTokens (s : State) (i n k : Nat) (ticket : Nat) : State :=
  modInst s i (fun x =>
    let x1 := mapTokens x n k (fun t => { t with st := .retracted ticket })
    { x1 with nodes := x1.nodes.map (fun y => { y with firings := y.firings.map (fun z =>
        if z.taken.any isRetracted && !z.returned && z.undoDue.isNone then { z with undoDue := some 0, badInput := true }
        else if z.taken.any isRetracted then { z with badInput := true } else z) }) })

/-- A task's core and queue places given up. -/
def stopTask (s : State) (i n k t : Nat) : State :=
  { s with gr.cores := s.gr.cores.filter (fun q => !(decide (q.2.ins = i) && decide (q.2.node = n) && decide (q.2.firing = k) && decide (q.2.task = t))),
           root.queues := (s.root.queues.map (fun q => (q.1, q.2.filter (fun z => !(decide (z.ins = i) && decide (z.node = n) && decide (z.firing = k) && decide (z.task = t)))))).filter
             (fun q => !q.2.isEmpty) }

/-! ## Shadowed effects (R168, R181, R184) -/

/-- A firing took, itself or through firings not over yet, a token of firing `k` of node `n`; the number bounds the steps. -/
def dependsOn (x : Inst) (n k : Nat) : Nat → Firing → Bool
  | 0, _ => false
  | b + 1, f => f.taken.any (fun t => (decide (t.node = n) && decide (t.firing = k)) ||
      ((nodeOf x t.node).bind (fun y => y.firings.find? (fun g => decide (g.num = t.firing)))).any (dependsOn x n k b))

/-- Firings of an instance that are not over. -/
def liveFirings (x : Inst) : Nat := (x.nodes.map (·.firings.length)).sum

/-- A task where it stands. -/
structure TaskAt where
  ins : Nat
  node : Nat
  firing : Nat
  num : Nat
  val : Task
  deriving DecidableEq, Repr

/-- A shadowed task that is not released: its effects are held back (R181). -/
def inShadow (t : Task) : Bool := t.shadowed && !t.released

/-- The tasks of an instance whose effects are held in the shadow. -/
def shadowOf (i : Nat) (x : Inst) : List TaskAt :=
  x.nodes.zipIdx.flatMap (fun y => y.1.firings.flatMap (fun f => f.tasks.zipIdx.filterMap (fun t =>
    if inShadow t.1 then some ⟨i, y.2, f.num, t.2, t.1⟩ else none)))

/-- The tasks of a grove whose effects are held in the shadow. -/
def shadowOn (s : State) (g : Nat) : List TaskAt :=
  (s.root.insts.flatMap (fun q => shadowOf q.1 q.2)).filter (fun z => decide (z.val.grove = g))

/-- A list in ascending order of its keys: insertion. -/
def seqInsert {α : Type} (c : Nat × α) : List (Nat × α) → List (Nat × α)
  | [] => [c]
  | d :: l => if c.1 < d.1 then c :: d :: l else d :: seqInsert c l
def bySeq {α : Type} (l : List (Nat × α)) : List (Nat × α) := l.foldr seqInsert []

/-- One undo entry of a grove written back (R184). Where a later shadowed task has stored to the line, the bytes go into its own undo entry and
the line keeps that task's store; where tasks that may run at the same time stored to it, its content is undefined (R168). -/
def undoEntry (s : State) (g : Nat) (e : UndoEnt) : State :=
  let s1 := if e.mixed then { s with free := s.free + 1 } else s
  let bs := if e.mixed then (List.range 64).map (fun j => BitVec.ofNat 8 (Config.openByte s.free (2097152 * g + e.line + j))) else e.old
  let later := (shadowOn s1 g).flatMap (fun z => z.val.undo.filterMap (fun u => if u.line = e.line ∧ e.seq < u.seq then some (u.seq, z) else none))
  let write (s : State) : State := modGrove s g (fun x => storeWrite x e.line bs)
  match bySeq later with
  | [] => write s1
  | (q, z) :: _ =>
    let s2 := modTask s1 z.ins z.node z.firing z.num (fun t => { t with undo := t.undo.map (fun u => if u.seq = q then { u with old := bs } else u) })
    if e.mixed then write s2 else s2

/-- The undo entries of tasks written back, newest first (R184); the tasks themselves hold them no longer. -/
def undoTasks (s : State) (l : List TaskAt) : State :=
  let s1 := l.foldl (fun s z => modTask s z.ins z.node z.firing z.num (fun t => { t with undo := [], redo := [] })) s
  ((bySeq (l.flatMap (fun z => z.val.undo.map (fun u => (u.seq, z.val.grove, u))))).reverse).foldl (fun s u => undoEntry s u.2.1 u.2.2) s1

/-- A redo entry drained to the cache, a byte mask as pieces of contiguous bytes (R183). -/
def drainRedo (s : State) (g p : Nat) (r : Redo) : State :=
  match r with
  | .store a bs => (groveWrite s g p a bs).1
  | .atom code a v => (performAtom s code a v 0).1

/-- The redo entries of tasks of a partition drained in the order in which they were made (R183). -/
def drainTasks (s : State) (p : Nat) (l : List Task) : State :=
  (bySeq (l.flatMap (fun t => t.redo.map (fun r => (r.1, t.grove, r.2))))).foldl (fun s r => drainRedo s r.2.1 p r.2.2) s

end Sys2Proof.Machine
end

