-- ==== Sys2Proof/Machine/Instances.lean ====
section
/-!
DEFINITION. Instances from admission to their end: release and undo of shadowed tasks, checks and re-runs, exceptions, completion,
deadlock and abort (R154, R155, R162–R164, R183, R184, R186, R208, R299, R304–R306).
-/
namespace Sys2Proof.Machine

/-- Every token a firing took is confirmed. -/
def inputsConfirmed (f : Firing) : Bool := f.taken.all isConfirmed

/-! ## Ends of instances -/

/-- The list of a partition ends: every step with an outcome, LAST_LIST (R147, R150). -/
def endList (s : State) (p : Nat) (res : CmdResult) (rerun : Bool) : State :=
  match sfind s.stands.lists p with
  | none => s
  | some l =>
    let s1 := l.stands.foldl (fun s n => endStep s n res rerun) s
    { s1 with stands.lists := sdel s1.stands.lists p, stands.due := insertNat s1.stands.due p,
              thk.prefetch := s1.thk.prefetch.filter (fun q => !(decide (q.2.part = p) && q.2.listed)),
              stands.lastList := sput s1.stands.lastList p (l.stands.length, (s.time.clock - l.startedAt) / 1000) }

/-- The command or the steps that an instance runs for complete (R138, R155). AUX of a GRAPH_RUN is the instance number unless the
status lays AUX out itself. -/
def endOwner (s : State) (i : Nat) (x : Inst) (status aux : Nat) (auxLaid : Bool) : State :=
  match x.owner with
  | .run r seq =>
    let s1 := if x.rerun then modCmd s r seq (fun c => { c with rerun := true }) else s
    finish s1 r seq ⟨status, if auxLaid then aux else i, 0⟩
  | .list p => endList s p ⟨status, if auxLaid then aux else 0, 0⟩ x.rerun

/-! ## Statistics of quantisation layers (R206, R208) -/

/-- QSTATS of a layer changed. -/
def modQ (s : State) (p l : Nat) (f : QStat → QStat) : State :=
  { s with gr.qstat := sset {} s.gr.qstat (64 * p + l) (f (sget {} s.gr.qstat (64 * p + l))) }

/-- A trip, a re-run or an exhausted re-run of a layer counted. -/
def countQ (s : State) (p l kind : Nat) : State :=
  modQ s p l (fun q => match kind with
    | 0 => { q with trips := (q.trips + 1) % 2 ^ 64, tripNow := true }
    | 1 => { q with reruns := (q.reruns + 1) % 2 ^ 64 }
    | _ => { q with exhausted := (q.exhausted + 1) % 2 ^ 64 })

/-- The larger of two peaks, as fractions of the largest finite values of their formats (R206). -/
def peakMax (a b : Peak) : Peak :=
  if fltV (fmul (fdec fp32 a.bits) (outMax b.ofmt)) (fmul (fdec fp32 b.bits) (outMax a.ofmt)) then b else a

/-- A drain counted for PEAK of a layer. -/
def countPeak (s : State) (p l : Nat) (k : Peak) : State := modQ s p l (fun q => { q with peak := some (q.peak.elim k (fun o => peakMax o k)) })

/-- What a shadowed task held back for QSTATS, counted at its release (R10, R206): its trips, and its peaks. -/
def releaseStats (s : State) (p : Nat) (t : Task) : State :=
  t.peaks.foldl (fun s q => countPeak s p q.1 q.2) (t.tripped.foldl (fun s l => countQ s p l 0) s)

/-- An instance freed: cores and queues emptied, its tickets retracted, the instance gone. -/
def freeInst (s : State) (i : Nat) : State :=
  let s1 := (s.fb.tickets.filter (fun t => decide (t.ins = i) && decide (t.resolved = 0))).foldl (fun s t => resolveTicket s t.num 2) s
  { s1 with gr.cores := s1.gr.cores.filter (fun q => decide (q.2.ins ≠ i)),
            root.queues := (s1.root.queues.map (fun q => (q.1, q.2.filter (fun z => decide (z.ins ≠ i))))).filter (fun q => !q.2.isEmpty),
            root.insts := sdel s1.root.insts i, root.waitsets := sdel s1.root.waitsets i,
            fb.store := s1.fb.store.map (fun e => if e.ins = some i then { e with ins := none } else e),
            fab.out := s1.fab.out.map (fun o => match o.owner with
              | .token j _ => if j = i then { o with owner := .other } else o
              | .copy j _ _ _ _ => if j = i then { o with owner := .other } else o
              | _ => o) }

/-- Why an instance freezes: R186 stops the tasks that still run at a word boundary and releases their older effects. -/
inductive Freeze where
  /-- No rule of R186: a deadlock, an abort, a reset, a failed operation. -/
  | plain
  /-- As R186 does. -/
  | fault
  /-- As R186 does, for an exception of this task. -/
  | task (node firing num : Nat)
  /-- As R186 does, and nothing of this firing leaves the shadow (R305). -/
  | exhausted (node firing : Nat)
  deriving DecidableEq, Repr

/-- A freeze follows R186, and concerns a firing. -/
def Freeze.stops (w : Freeze) : Bool := w ≠ .plain
def Freeze.holds (w : Freeze) (n k : Nat) : Bool :=
  match w with
  | .exhausted m j => decide (m = n) && decide (j = k)
  | _ => false
def Freeze.names (w : Freeze) (z : TaskAt) : Bool := w = .task z.node z.firing z.num

/-- A shadowed task of an instance that freezes is released (R183, R186): its inputs are confirmed, no undo is due, and its check has passed, its
node has none, or R186 stops it while it runs. -/
def freezeReleases (x : Inst) (w : Freeze) (z : TaskAt) : Bool :=
  w.names z ||
  ((nodeOf x z.node).any (fun y => (y.firings.find? (fun f => decide (f.num = z.firing))).any (fun f =>
    inputsConfirmed f && f.undoDue.isNone && !f.returned && !w.holds z.node z.firing &&
    (!y.ent.checked || decide (z.val.checked = some true) || (w.stops && (match z.val.place with
      | .core _ => true
      | _ => false))))))

/-- The shadowed effects of an instance that freezes: those of tasks that are released drain, all others are undone, newest first (R183, R184,
R186). -/
def settleShadow (s : State) (i : Nat) (x : Inst) (w : Freeze) : State :=
  let l := shadowOf i x
  let go := (l.filter (freezeReleases x w)).map (·.val)
  let s1 := go.foldl (fun s t => releaseStats s x.part t) (drainTasks s x.part go)
  let kept := l.filter (freezeReleases x w)
  let s2 := kept.foldl (fun s z => modTask s z.ins z.node z.firing z.num (fun t => { t with undo := [] })) s1
  undoTasks s2 (l.filter (fun z => !freezeReleases x w z))

/-- An instance frozen and freed, its command or steps completed with a status (R162, R164, R186). -/
def freezeInst (s : State) (i status aux : Nat) (auxLaid : Bool) (w : Freeze) : State :=
  match instOf s i with
  | none => s
  | some x => endOwner (freeInst (settleShadow s i x w) i) i x status aux auxLaid

/-- AUX of a UNIT_FAULT (Table 11-9). -/
def faultAux (cause g upc : Nat) : Nat := (cause <<< 24) + (g <<< 14) + upc % 16384

/-- A program exception of a task (R186): held while an input is unconfirmed; otherwise the instance freezes with UNIT_FAULT. -/
def taskFault (s : State) (i n k t g cause upc : Nat) : State :=
  match instOf s i, firingOf s i n k with
  | some x, some f =>
    if !inputsConfirmed f then modTask s i n k t (fun z => { z with heldFault := some (cause, upc) })
    else
      let s1 := { s with gr.microFaults := sset 0 s.gr.microFaults x.part ((sget 0 s.gr.microFaults x.part + 1) % 2 ^ 32) }
      freezeInst s1 i stUnitFault (faultAux cause g upc) true (.task n k t)
  | _, _ => s

/-! ## Release and undo -/

/-- A task's grove is being cleared: its shadowed tasks are to be undone (Table 19-4). -/
def clearing (s : State) (t : Task) : Bool := t.shadowed && decide ((unitSum s (unitGrove t.grove)).state = 1)

/-- A shadowed task may be released (R183): inputs confirmed, check passed, no undo due. -/
def releasable (y : Node) (f : Firing) (t : Task) : Bool :=
  t.shadowed && !t.released && inputsConfirmed f && f.undoDue.isNone && !f.returned && t.heldFault.isNone &&
  (!y.ent.checked || decide (t.checked = some true))

/-- What a firing held back for QSTATS, counted: its inputs are confirmed (R10, R208). -/
def flushQ (s : State) (p i n k : Nat) : State :=
  match firingOf s i n k with
  | none => s
  | some f => modFiring (f.qPend.foldl (fun s q => countQ s p q.1 q.2) s) i n k (fun z => { z with qPend := [] })

/-- A task released: its redo entries drain, its undo entries go (R183); its trips and peaks count. -/
def releaseTask (s : State) (i n k t : Nat) (x : Inst) (z : Task) : State :=
  let s1 := flushQ (releaseStats (specStat (drainTasks s x.part [z]) x.part 1 1) x.part z) x.part i n k
  confirmFiring (modTask s1 i n k t (fun w => { w with released := true, undo := [], redo := [] })) i n k

/-- SHADOW_RELEASE: the oldest firing of the node whose task of that number may be released; a held exception of confirmed inputs is
raised instead (R183, R186). -/
def execShadowRelease (ins : Fin 16384) (node task : Fin 4096) (s : State) : Out :=
  .next (match instOf s ins with
  | none => s
  | some x => match nodeOf x node with
    | none => s
    | some y =>
      match y.firings.find? (fun f => (f.tasks[task.val]?).any (fun t => !clearing s t && releasable y f t || (t.heldFault.isSome && inputsConfirmed f && !f.returned))) with
      | none => s
      | some f => match f.tasks[task.val]? with
        | none => s
        | some t => match t.heldFault with
          | some (cause, upc) => taskFault s ins node f.num task t.grove cause upc
          | none => releaseTask s ins node f.num task x t)

/-- A firing undone (R184): stores written back, redo discarded, tokens retracted, the firing returned and placed again once its
inputs stand: after a failed check or a trip ahead of every other task of its instance (R208, R304). -/
def undoFiring (s : State) (i n : Nat) (x : Inst) (f : Firing) : State :=
  let s1 := undoTasks s ((shadowOf i x).filter (fun z => decide (z.node = n) && decide (z.firing = f.num)))
  let s2 := f.tasks.zipIdx.foldl (fun s t => stopTask s i n f.num t.2) s1
  let s3 := f.tasks.foldl (fun s t => match t.place with
    | .ready _ => s
    | .queued _ => s
    | _ => countG (specStat s x.part 2 1) t.grove 0x0E 1) s2
  let s4 := match f.ticket with
    | some v => retractTokens (resolveTicket s3 v 2) i n f.num v
    | none => s3
  let s5 := modNode s4 i n (fun y => { y with fired := if f.emitted then y.fired - 1 else y.fired, firings := y.firings.map (fun z =>
    if z.num = f.num then
      { z with undoDue := none, returned := true, ahead := f.undoDue.any (fun r => decide (r ≠ 0)), ticket := none, tasks := [], spent := [],
               qPend := if z.taken.any isRetracted then [] else z.qPend } else z) })
  replaceReturned s5 i

/-! ## Checks and re-runs -/

/-- MODE, TRIP, E5M2_SAT and the wider entries of a layer of the instance's table (Table 13-5). -/
def layerMode (v : Nat) : Nat := field v 7 0
def layerSat (v : Nat) : Bool := bitOf v 8
def layerTrip (v : Nat) : Nat := field v 31 16
def layerW1 (v : Nat) : Nat := field v 95 80
def layerW2 (v : Nat) : Nat := field v 111 96

/-- The layer table of a partition (R205): layer 0 is fixed. -/
def layerTable (s : State) (p : Nat) : List Nat := 0 :: (List.range 63).map (fun l => param s 0x3410 (l + 2) p)
def checkTable (s : State) (p : Nat) : List Nat := (List.range 64).map (fun l => param s 0x6002 (l + 1) p)

/-- The RERUN layers on which tasks of a firing have tripped and that still have an answer due, one entry for each task. -/
def rerunTrips (x : Inst) (f : Firing) : List Nat :=
  (f.tasks.flatMap (·.tripped)).filter (fun l => decide (layerMode (lget 0 x.layers l) = 2) && !f.spent.contains l)

/-- Those layers, ascending. -/
def rerunTripped (x : Inst) (f : Firing) : List Nat := (rerunTrips x f).foldl insertNat []

/-- The next wider entry of a tripped layer after the widest format that words naming it had in this run; 0: none (R208). -/
def widerEntry (x : Inst) (f : Firing) (l : Nat) : Nat :=
  let v := lget 0 x.layers l
  match (f.tasks.map (fun t => sget 0 t.rerunFmt l)).foldl Nat.max 0 with
  | 0 => layerW1 v
  | 4 => 0
  | _ => layerW2 v

/-- Counts of QSTATS that a firing makes: at once, or once its inputs are confirmed (R10). -/
def firingQ (s : State) (p i n : Nat) (f : Firing) (l : List (Nat × Nat)) : State :=
  if inputsConfirmed f then l.foldl (fun s q => countQ s p q.1 q.2) s
  else modFiring s i n f.num (fun z => { z with qPend := z.qPend ++ l })

/-- The answer to the trips of a firing (R208): layers without a wider entry count as exhausted; with one, the re-run is at that of the lowest
layer that has one (several layers: DESIGN CHOICE, log entry 99). -/
def answerTrips (s : State) (i n : Nat) (x : Inst) (f : Firing) : State :=
  let ls := rerunTripped x f
  let gone := ls.filter (fun l => widerEntry x f l = 0)
  let wide := ls.filter (fun l => widerEntry x f l ≠ 0)
  match wide with
  | [] => modFiring (firingQ s x.part i n f (gone.map (·, 2))) i n f.num (fun z => { z with spent := z.spent ++ gone })
  | l :: _ =>
    let s1 := firingQ s x.part i n f ((rerunTrips x f).map (·, 0) ++ gone.map (·, 2) ++ wide.map (·, 1))
    modFiring (modInst s1 i (fun z => { z with rerun := true })) i n f.num (fun z =>
      { z with undoDue := if z.undoDue.isNone then some 2 else some 3, entry := widerEntry x f l, widened := z.widened + 1 })

/-- SHADOW_UNDO: the node's oldest firing whose undo is due (R184); one whose check failed and that has tripped too goes to its wider entry
(R304, chapter 13 crossings). -/
def execShadowUndo (ins : Fin 16384) (node : Fin 4096) (s : State) : Out :=
  .next (match instOf s ins with
  | none => s
  | some x => match nodeOf x node with
    | none => s
    | some y => match y.firings.find? (fun f => f.undoDue.isSome) with
      | none => s
      | some f =>
        if f.undoDue = some 1 ∧ !(rerunTripped x f).isEmpty then
          let s1 := answerTrips s ins node x f
          undoFiring s1 ins node x ((firingOf s1 ins node f.num).getD f)
        else undoFiring s ins node x f)

/-- RERUN_TRIGGER (R208): a tripped firing whose tasks have all reached END is to be undone for a run at the layer's next wider entry; with
none left the results stand. -/
def execRerunTrigger (ins : Fin 16384) (node : Fin 4096) (s : State) : Out :=
  .next (match instOf s ins with
  | none => s
  | some x => match nodeOf x node with
    | none => s
    | some y =>
      match y.firings.find? (fun f => !f.returned && f.undoDue.isNone && !f.tasks.isEmpty && allRetired f && !(rerunTripped x f).isEmpty) with
      | none => s
      | some f => answerTrips s ins node x f)

/-- The check of a task may be delivered (R208, R299): the task has retired, and if it executed a RERUN-layer word so has its firing,
with no trip left to answer. -/
def checkDue (x : Inst) (f : Firing) (t : Task) : Bool :=
  decide (t.place = .retired) && t.checked.isNone && !f.returned && (f.undoDue.isNone || decide (f.undoDue = some 2)) &&
  (!t.rerunWord || (allRetired f && ((rerunTripped x f).isEmpty || decide (f.undoDue = some 2))))

/-- A run of a firing has passed: every other grove that failed it gets a strike (R306). -/
def chargeFailures (s : State) (p : Nat) (f : Firing) : State :=
  let pass := f.tasks.map (·.grove)
  ((f.failed.eraseDups).filter (fun g => !pass.contains g)).foldl (fun s g => strike (fbStat s p 2 1) (unitGrove g) 0x01) s

/-- CHECK_RESULT: the checker's result for a retired task of a CHECKED node (R299, R304–R306). -/
def execCheckResult (ins : Fin 16384) (node task : Fin 4096) (s : State) : Out :=
  .next (match instOf s ins with
  | none => s
  | some x => match nodeOf x node with
    | none => s
    | some y =>
      if !y.ent.checked then s
      else match y.firings.find? (fun f => (f.tasks[task.val]?).any (fun t => !clearing s t && checkDue x f t)) with
      | none => s
      | some f => match f.tasks[task.val]? with
        | none => s
        | some t =>
          let s1 := fbStat s x.part 0 1
          if t.sound then
            let s2 := modTask s1 ins node f.num task (fun z => { z with checked := some true })
            let passed := f.undoDue.isNone && f.tasks.zipIdx.all (fun z => z.2 = task.val || z.1.checked = some true)
            if passed then chargeFailures s2 x.part f else s2
          else
            let s2 := countG (raise (fbStat s1 x.part 1 1) 0x020) t.grove 0x10 1
            let s3 := modTask s2 ins node f.num task (fun z => { z with checked := some false })
            -- a failure with a retracted input is neither attributed nor counted
            let n := if f.badInput then f.failures else f.failures + 1
            let s4 := modFiring s3 ins node f.num (fun z =>
              { z with undoDue := if z.undoDue.isNone then some 1 else some 3, failures := n, failed := if z.badInput then z.failed else t.grove :: z.failed })
            if 3 ≤ n then
              let s5 := record (raise (fbStat s4 x.part 3 1) 0x021) 0x0006 0 0xFF 0xFF (x.part + (ins.val <<< 16) + (node.val <<< 48))
              freezeInst s5 ins stUnitFault (faultAux 0x40 t.grove 0) true (.exhausted node f.num)
            else s4)

/-! ## Completion, deadlock, abort -/

/-- INSTANCE_COMPLETE: every node is DONE and every result confirmed (R9, R155). -/
def execInstanceComplete (ins : Fin 16384) (s : State) : Out :=
  .next (match instOf s ins with
  | none => s
  | some x =>
    if x.nodes.all (fun y => nodeDone y && y.firings.isEmpty) && decide (x.remote = 0) then endOwner (freeInst s ins) ins x stOk 0 false
    else s)

/-- One wait-set entry (Table 10-4). -/
def waitEntry (x : Inst) (n : Nat) (y : Node) : List Byte :=
  let e := (inQs y.ent).find? (fun q => (queueOf x q).any (·.tokens.isEmpty))
  let o := (outQs y.ent).find? (fun q => (queueOf x q).any (fun z => decide (z.depth ≤ z.occupied)))
  let (why, q) := match e, o with
    | some q, _ => (1, q)
    | none, some q => (2, q)
    | none, none => (1, 0)
  leBytes 2 n ++ leBytes 1 why ++ leBytes 1 0 ++ leBytes 2 q ++ leBytes 2 (((queueOf x q).map (·.tokens.length)).getD 0) ++
  leBytes 2 y.fired ++ leBytes 2 y.ent.firings ++ leBytes 4 0

/-- The wait set in a buffer of a length (Table 10-4). -/
def waitSet (s : State) (i len : Nat) (x : Inst) : List Byte :=
  let es := (x.nodes.zipIdx.filter (fun q => !nodeDone q.1 && !nodeRunning q.1 && !canFire s x q.2 q.1)).map (fun q => waitEntry x q.2 q.1)
  let fit := (len - 32) / 16
  let w := es.take fit
  leBytes 2 i ++ leBytes 2 x.tag ++ leBytes 2 es.length ++ leBytes 2 w.length ++ leBytes 1 (if fit < es.length then 1 else 0) ++ leBytes 7 0 ++
  leBytes 8 s.time.dev ++ leBytes 8 0 ++ w.flatten

/-- The port and function through which an instance writes host memory: its ring's, or the partition's. -/
def hostWay (s : State) (x : Inst) : Nat × Nat :=
  match x.owner with
  | .run r _ => ((ringOf s r).map (fun g => (g.port, g.fn))).getD (0, 0)
  | .list p => (field (partMap s p) 8 8, field (partMap s p) 7 0)

/-- The wait set written to the buffer of WAITSET or DEADLOCK_BUF, or counted as lost (R162). -/
def writeWaitSet (s : State) (i : Nat) (x : Inst) : State :=
  let h := match x.owner with
    | .run _ _ => sget 0 s.root.waitsets i
    | .list p => param s 0x2601 2 p
  match relocate s x.part h [kBuffer, kHostbuf] false true 0 32 with
  | .error _ => rwStat s x.part 2
  | .ok e =>
    let bs := waitSet s i e.length x
    if e.kind = kHostbuf then postWrite s (hostWay s x).1 (hostWay s x).2 e.base bs else writeMem s e.base bs

/-- The condition of R162. -/
def deadlocked (s : State) (i : Nat) (x : Inst) : Bool :=
  decide (cntReady s x = 0) && decide (cntRunning x = 0) && decide (cntFlight s i x = 0) && decide (cntExternal s x = 0) && decide (0 < cntWaiting s x)

/-- DEADLOCK (R162, R163). -/
def execDeadlock (ins : Fin 16384) (s : State) : Out :=
  .next (match instOf s ins with
  | none => s
  | some x => if deadlocked s ins x then freezeInst (partError (rwStat (writeWaitSet s ins x) x.part 1) x.part) ins stDeadlock 0 false .plain else s)

/-- The admitted instance of a GRAPH_RUN (R164). -/
def instanceOfRun (s : State) (r : Nat) (seq : BitVec 64) : Option Nat :=
  (s.root.insts.find? (fun q => decide (q.2.owner = .run r seq))).map (·.1)

/-- Every instance and request of a partition ended by a reset (R120, R122). -/
def abortPartition (s : State) (p : Nat) : State :=
  let is := (s.root.insts.filter (fun q => decide (q.2.part = p))).map (·.1)
  let s1 := is.foldl (fun s i => freezeInst s i stAborted 0 false .plain) s
  let rs := s1.root.requests.filter (fun r => decide (r.part = p))
  rs.foldl (fun s r => match r.owner with
    | .run q seq => finish s q seq ⟨stAborted, 0, 0⟩
    | .list p => endList s p ⟨stAborted, 0, 0⟩ false) { s1 with root.requests := s1.root.requests.filter (fun r => decide (r.part ≠ p)) }

/-! ## Admission -/

/-- GRAPH_RUN: the command's ARGS are named or read and an instance is requested (R154). -/
def execGraphRun (ring : Fin 4096) (seq : BitVec 64) (args : HostRead) (s : State) : Out :=
  .next (match begin? s ring seq 0x20 with
  | (s1, none) => s1
  | (s1, some c) => match relocAt c 16 with
    | none => s1
    | some g =>
      let e := c.entry.toNat
      let base : Request := { part := c.part, owner := .run ring seq, graph := g, waitset := cf e 39 36,
                              deadline := c.fetchDev + 1000 * param s1 0x2402 4 c.part, order := c.order }
      let ask (q : Request) : State := modCmd { s1 with root.requests := s1.root.requests ++ [q] } ring seq (fun z => { z with begun := true })
      match relocAt c 20 with
      | none => ask base
      | some a =>
        if a.kind = kHostbuf then (match args with
          | .ok d => ask { base with args := bytesAt d 0 (cf e 35 32) }
          | .err => finish s1 ring seq ⟨stMemoryError, hostErrAux, 0⟩)
        else ask { base with argSrc := some (a.base + cf e 31 24, cf e 35 32) })

/-- The number of a free instance for a request (R154): one is kept for each partition's list, the others serve GRAPH_RUN. -/
def freeInstance (s : State) (r : Request) : Option Nat :=
  match r.owner with
  | .run _ _ => firstBelow (fun i => (instOf s i).isNone) 16312
  | .list p => if (instOf s (16312 + p)).isNone then some (16312 + p) else none

/-- A request that fails at admission. -/
def failRequest (s : State) (r : Request) (res : CmdResult) : State :=
  match r.owner with
  | .run q seq => finish s q seq res
  | .list p => endList s p res false

/-- The operand of a node as relocated at admission (R153). -/
def operandOf (s : State) (p : Nat) (e : NodeEnt) : Option HEntry :=
  if e.operand = 0 then none else match relocate s p e.operand (operandKinds e.kind) false false e.opOff e.opLen with
    | .ok h => some h
    | .error _ => none

/-- The 16 bytes that an initial token of a queue carries: offset 0 of its producer's operand, all zero without one (Table 10-3). -/
def initToken (s : State) (p : Nat) (nodes : List NodeEnt) (pr : Nat) : BitVec 128 :=
  match (nodes[pr]?).bind (operandOf s p) with
  | some h => BitVec.ofNat 128 (leNat (memRead s.mem.bytes h.base 16))
  | none => 0

/-- The initial tokens of a descriptor's queues are read: the state after, or the AUX of the first MEMORY_ERROR (R248). -/
def readInits (s : State) (p : Nat) (g : List NodeEnt × List (Nat × Nat × Nat × Nat)) : State × Except Nat Unit :=
  g.2.foldl (fun a q => match a, (g.1[q.2.2.1]?).bind (operandOf s p) with
    | (t, .ok _), some h => if q.2.1 = 0 then a else (match readMem t h.base 16 with
      | (u, .ok _) => (u, .ok ())
      | (u, .error aux) => (u, .error aux))
    | _, _ => a) (s, .ok ())

/-- An instance built from a checked descriptor (R154). -/
def buildInst (s : State) (i : Nat) (r : Request) (args : List Byte) (g : List NodeEnt × List (Nat × Nat × Nat × Nat)) : Inst :=
  let nodes : List Node := g.1.map (fun e =>
    { ent := e, operand := operandOf s r.part e, since := s.time.clock, desc := match operandOf s r.part e with
        | some t => if t.kind = kTable then tableDesc s r.part t.object else 0
        | none => 0 })
  let queues : List Queue := g.2.map (fun q =>
    let tok : Token := { data := initToken s r.part g.1 q.2.2.1, node := q.2.2.1, firing := 2 ^ 32, out := 0 }
    { depth := q.1, producer := q.2.2.1, consumer := q.2.2.2, occupied := q.2.1, tokens := List.replicate q.2.1 tok })
  let fresh := r.layers.isEmpty
  { part := r.part, owner := r.owner, tag := r.graph.object % 65536, key := match r.owner with
      | .run _ _ => leAt args 0 4
      | .list _ => r.key,
    deadline := r.deadline, order := s.root.admitted, args := bytesAt args 0 4096, argAddr := Config.argBlock i, nodes, queues,
    layers := if fresh then layerTable s r.part else r.layers, checks := if fresh then checkTable s r.part else r.checks }

/-- A request admitted as an instance, or ended by what its admission finds (R153, R154). -/
def admitInst (s : State) (r : Request) (i : Nat) : State :=
  let s0 := { s with root.requests := s.root.requests.erase r }
  let got : State × Except Nat (List Byte) := match r.argSrc with
    | some (a, n) => readMem s0 a n
    | none => (s0, .ok r.args)
  match got with
  | (s1, .error aux) => failRequest s1 r ⟨stMemoryError, aux, 0⟩
  | (s1, .ok args) => match readGraph s1 r.part r.graph with
    | (s2, .error res) => failRequest s2 r res
    | (s2, .ok g) => match readInits s2 r.part g with
      | (s3, .error aux) => failRequest s3 r ⟨stMemoryError, aux, 0⟩
      | (s3, .ok _) =>
        { s3 with root.insts := sput s3.root.insts i (buildInst s3 i r args g), root.admitted := s3.root.admitted + 1,
                  root.waitsets := if r.waitset = 0 then s3.root.waitsets else sput s3.root.waitsets i r.waitset }

/-- The request earliest in fetch order of those that find an instance free; lists, which have their own, come first (R154). -/
def nextRequest (s : State) : Option Request :=
  s.root.requests.foldl (fun a r => if (freeInstance s r).isNone then a else match a with
    | none => some r
    | some q => if r.order < q.order then some r else a) none

/-- INSTANCE_ADMIT: the first request in fetch order that finds an instance free (R154). -/
def execInstanceAdmit (s : State) : Out :=
  .next (match nextRequest s with
  | none => s
  | some r => match freeInstance s r with
    | some i => admitInst s r i
    | none => s)

end Sys2Proof.Machine
end

