-- ==== Sys2Proof/Machine/Words.lean ====
section
/-!
DEFINITION. The grove microword (R172, Tables 11-3, 11-4, 12-2, 13-3), its fields, and the registers of a core (R166, R191).
-/
namespace Sys2Proof.Machine

/-- A grove microword, field by field. The default values are those of a word that does nothing and goes on at uPC + 1. -/
structure GWord where
  cond : Nat := 0
  next : Nat := 0
  target : Nat := 0
  sop : Nat := 0
  sd : Nat := 0
  sa : Nat := 0
  sb : Nat := 0
  vop : Nat := 0
  v : VSlot := ⟨0, 0, 0, 0, false, 0, 0⟩
  mop : Nat := 0
  x : XSlot := ⟨0, 0, 0, 0, 0, 0, 0, 0⟩
  mem : Nat := 0
  m : MemSlot := ⟨0, 0, 0⟩
  strides : Nat := 0
  rep : Nat := 0
  imm : Nat := 0
  deriving DecidableEq, Repr

/-- The fields of a 256-bit word (Table 11-3). Bits the tables reserve are ignored (R3). -/
def gword (b : BitVec 256) : GWord :=
  let w := b.toNat
  let sc := field w 223 192
  let ve := field w 191 160
  let ma := field w 159 128
  let me := field w 127 96
  { cond := field w 255 250, next := field w 249 246, target := field w 245 232,
    sop := field sc 31 26, sd := field sc 25 21, sa := field sc 20 16, sb := field sc 15 11,
    vop := field ve 31 26,
    v := ⟨Fin.ofNat 32 (field ve 25 21), Fin.ofNat 32 (field ve 20 16), Fin.ofNat 32 (field ve 15 11), Fin.ofNat 8 (field ve 10 8), bitOf ve 7,
          Fin.ofNat 8 (field ve 6 4), Fin.ofNat 16 (field ve 3 0)⟩,
    mop := field ma 31 28,
    x := ⟨Fin.ofNat 8 (field ma 27 25), Fin.ofNat 8 (field ma 24 22), Fin.ofNat 8 (field ma 21 19), Fin.ofNat 8 (field ma 18 16),
          Fin.ofNat 4 (field ma 15 14), Fin.ofNat 8 (field ma 13 11), Fin.ofNat 64 (field ma 10 5), Fin.ofNat 32 (field ma 4 0)⟩,
    mem := field me 31 28, m := ⟨Fin.ofNat 4 (field me 27 26), Fin.ofNat 32 (field me 25 21), BitVec.ofNat 21 (field me 20 0)⟩,
    strides := field w 95 64, rep := field w 63 48, imm := field w 47 0 }

/-! ## Registers of a core -/

/-- A scalar register: s0 reads 0 and ignores writes (R166). -/
def getS (c : Core) (n : Nat) : BitVec 32 := if n = 0 then 0 else lget 0 c.s n
def setS (c : Core) (n : Nat) (v : BitVec 32) : Core := if n = 0 then c else { c with s := lset c.s n v }

/-- An address register. -/
def getA (c : Core) (n : Nat) : BitVec 48 := lget 0 c.a n
def setA (c : Core) (n : Nat) (v : BitVec 48) : Core := { c with a := lset c.a n v }

/-- A vector register. -/
def getV (c : Core) (n : Nat) : BitVec 256 := lget 0 c.v n
def setV (c : Core) (n : Nat) (v : BitVec 256) : Core := { c with v := lset c.v n v }

/-- A mask register: k0 reads all ones and ignores writes (R191). -/
def getK (c : Core) (n : Nat) : BitVec 32 := if n = 0 then BitVec.allOnes 32 else lget 0 c.k n
def setK (c : Core) (n : Nat) (v : BitVec 32) : Core := if n = 0 then c else { c with k := lset c.k n v }

/-- The address registers after an iteration (R171): each moves by its signed stride of 32 B units. -/
def stride (w : GWord) (c : Core) : Core :=
  { c with a := c.a.zipIdx.map (fun q =>
      q.1 + BitVec.ofInt 48 (32 * signedOf 8 (field w.strides (8 * q.2 + 7) (8 * q.2)))) }

/-- The core with number `c` changed, if it runs a task. -/
def modCore (s : State) (c : Nat) (f : Core → Core) : State := { s with gr.cores := smod s.gr.cores c f }

/-! ## Registers that a word writes (R191) -/

/-- A register of a core that a slot writes. -/
inductive Dst where
  | s (n : Nat) | a (n : Nat) | v (n : Nat) | k (n : Nat) | lc
  deriving DecidableEq, Repr

/-- What the SCALAR slot writes. -/
def scalarDst (w : GWord) : List Dst :=
  if [1, 2, 3, 4, 5, 6, 7, 9].contains w.sop then [.s w.sd]
  else if w.sop = 10 ∨ w.sop = 11 then [.a (w.sd % 4)]
  else if w.sop = 12 then [.lc] else []

/-- What the VECTOR slot writes (Table 12-3). -/
def vectorDst (w : GWord) : List Dst :=
  match w.vop with
  | 0 => []
  | 12 => [.k (w.v.vd.val % 8)]
  | 15 => [.s w.v.vd]
  | 19 => [.s w.v.vd]
  | 22 => [.v w.v.vd, .v w.v.vb]
  | 24 => [.k (w.v.vd.val % 8)]
  | 25 => [.k (w.v.vd.val % 8)]
  | 26 => [.s w.v.vd]
  | _ => [.v w.v.vd]

/-- What the MATRIX slot writes. -/
def matrixDst (w : GWord) : List Dst := if w.mop = 3 then [.v w.x.vd] else []

/-- Operation code and FETCH of an ATOM (R238). -/
def atomCode (w : GWord) : Nat := field w.imm 46 40
def atomFetch (w : GWord) : Bool := bitOf w.imm 47

/-- What the MEM slot writes. -/
def memDst (w : GWord) : List Dst := if w.mem = 1 ∨ w.mem = 3 ∨ (w.mem = 6 ∧ atomFetch w) then [.v w.m.vreg] else []

/-- Two slots write the same register. -/
def twoWriters (w : GWord) : Bool :=
  let meets (a b : List Dst) : Bool := a.any (b.contains ·)
  let s := scalarDst w
  let v := vectorDst w
  let x := matrixDst w
  let m := memDst w
  meets s v || meets s x || meets s m || meets v x || meets v m || meets x m

end Sys2Proof.Machine
end

