-- ==== Sys2Proof/Machine/GroveMem.lean ====
section
/-!
DEFINITION. The MEM slot of a grove word: scratch, device memory through the cache, atomics, and the shadow that holds back what a
shadowed task writes (R173, R181–R185, R238).
-/
namespace Sys2Proof.Machine

/-- How the MEM slot of an iteration ends besides going on: a wait, an exception, or a MEMORY_ERROR. -/
inductive MemEnd where
  | wait
  | fault (cause : Nat)
  | poison (aux : Nat)
  deriving DecidableEq, Repr

/-- The device or scratch address of a word's MEM slot. -/
def memAddr (w : GWord) (k : Core) : Nat := (getA k w.m.areg + BitVec.ofNat 48 (32 * w.m.offset.toNat)).toNat

/-- The task of a core, the instance and the firing. -/
def taskCtx (s : State) (k : Core) : Option (Inst × Firing × Task) :=
  match instOf s k.ins, firingOf s k.ins k.node k.firing with
  | some i, some f => (f.tasks[k.task]?).map (fun t => (i, f, t))
  | _, _ => none

/-- Lines that a task holds in the shadow: the undo entries and the lines of its redo entries. -/
def shadowHeld (t : Task) : List Nat :=
  let redo := t.redo.filterMap (fun r => match r.2 with
    | .store a _ => some (2 ^ 48 + a / 64)
    | .atom _ _ _ => none)
  (t.undo.map (fun (u : UndoEnt) => u.line / 64) ++ redo).eraseDups

/-- A store of a shadowed task that would take one line more than its core's share (R185): none when it fits. -/
def shareEnd (s : State) (k : Core) (i : Inst) (f : Firing) (t : Task) (line : Nat) : Option MemEnd :=
  let held := shadowHeld t
  if held.contains line ∨ held.length < shadowLines (splitOf s i.part) then none
  else
    let chk := ((nodeOf i k.node).map (·.ent.checked)).getD false
    if inputsConfirmed f && chk then some (.fault 0x07) else some .wait

/-- The bytes that tasks of a grove hold back in redo entries, laid in the order of their stores over bytes read from memory (Table 11-8). -/
def overlay (s : State) (g a : Nat) (bs : List Byte) : List Byte :=
  (bySeq ((shadowOn s g).flatMap (fun z => z.val.redo))).foldl (fun bs r => match r.2 with
    | .store b ds => ds.zipIdx.foldl (fun bs d => if a ≤ b + d.2 ∧ b + d.2 < a + bs.length then lset bs (b + d.2 - a) d.1 else bs) bs
    | .atom _ _ _ => bs) bs

/-- A device read of 32 bytes by a grove: the argument block of its instance, or memory through the cache under the redo entries. -/
def deviceRead (s : State) (g a : Nat) (i : Inst) : State × Except MemEnd Nat × Bool :=
  if deviceOk s i.part a 32 then
    (if a % 32 ≠ 0 then (s, .error (.fault 0x05), false)
     else match groveRead s g i.part a 32 with
      | (s1, .ok bs, hit) => (s1, .ok (leNat (overlay s1 g a bs)), hit)
      | (s1, .error aux, _) => (s1, .error (.poison aux), false))
  else if i.argAddr ≤ a ∧ a + 32 ≤ i.argAddr + 4096 then
    (if a % 32 ≠ 0 then (s, .error (.fault 0x05), false) else (s, .ok (leAt i.args (a - i.argAddr) 32), false))
  else (s, .error (.fault 0x04), false)

/-- A store to scratch (ST): in place, with an undo entry once for each line while shadowed. -/
def scratchStore (s : State) (g a : Nat) (k : Core) (i : Inst) (f : Firing) (t : Task) (v : BitVec 256) : State × Except MemEnd Nat :=
  if scratchBytes (splitOf s i.part) ≤ a then (s, .error (.fault 0x03))
  else if a % 32 ≠ 0 then (s, .error (.fault 0x05))
  else
    let line := a / 64
    let others := (shadowOn s g).filter (rival i f line)
    let mark (s : State) : State := others.foldl (fun s z => modTask s z.ins z.node z.firing z.num (fun w => { w with undo := w.undo.map (fun u =>
      if u.line = 64 * line then { u with mixed := true } else u) })) s
    let noted (c : Core) : Core := if sameTask k c then { c with lines := if c.lines.contains line then c.lines else line :: c.lines } else c
    let put (s : State) : State := modGrove { mark s with gr.cores := (mark s).gr.cores.map (fun q => (q.1, noted q.2)) } g
      (fun x => storeWrite x a (leBytes 32 v.toNat))
    if !inShadow t || (t.undo.any (fun u => decide (u.line = 64 * line))) then (put s, .ok 0)
    else match shareEnd s k i f t line with
      | some e => (s, .error e)
      | none =>
        let mixed := !others.isEmpty || s.gr.cores.any (fun q => decide (q.1 / 64 = g) && !sameTask k q.2 && q.2.lines.contains line)
        let ent : UndoEnt := ⟨64 * line, scratchRead g (groveOf s g) (64 * line) 64, s.gr.shadowSeq, mixed⟩
        (put { modTask s k.ins k.node k.firing k.task (fun z => { z with undo := ent :: z.undo }) with gr.shadowSeq := s.gr.shadowSeq + 1 }, .ok 0)
where
  /-- Two cores run the same task. -/
  sameTask (k c : Core) : Bool := decide (c.ins = k.ins) && decide (c.node = k.node) && decide (c.firing = k.firing) && decide (c.task = k.task)
  /-- A shadowed task that has stored to the line and that may run at the same time as the storing one: no token orders the two (R168). -/
  rival (i : Inst) (f : Firing) (line : Nat) (z : TaskAt) : Bool :=
    !(decide (z.ins = k.ins) && decide (z.node = k.node) && decide (z.firing = k.firing) && decide (z.num = k.task)) &&
    z.val.undo.any (fun u => decide (u.line = 64 * line)) && !(decide (z.ins = k.ins) && dependsOn i z.node z.firing (liveFirings i + 1) f)

/-- A redo entry of a core's task. -/
def holdBack (s : State) (k : Core) (r : Redo) : State :=
  { modTask s k.ins k.node k.firing k.task (fun z => { z with redo := (s.gr.shadowSeq, r) :: z.redo }) with gr.shadowSeq := s.gr.shadowSeq + 1 }

/-- A store to device memory (DST): through the cache, or held back while shadowed. -/
def deviceStore (s : State) (g a : Nat) (k : Core) (i : Inst) (f : Firing) (t : Task) (v : BitVec 256) : State × Except MemEnd Nat × Bool :=
  if !deviceOk s i.part a 32 then (s, .error (.fault 0x04), false)
  else if a % 32 ≠ 0 then (s, .error (.fault 0x05), false)
  else
    let bs := leBytes 32 v.toNat
    if !inShadow t then
      let r := groveWrite s g i.part a bs
      (r.1, .ok 0, r.2)
    else match shareEnd s k i f t (2 ^ 48 + a / 64) with
      | some e => (s, .error e, false)
      | none => (holdBack s k (.store a bs), .ok 0, false)

/-- An atomic or reduction (ATOM, R238): at the home; without a return value held back while shadowed; with one it waits. -/
def atomOp (s : State) (g a : Nat) (w : GWord) (k : Core) (i : Inst) (t : Task) : State × Except MemEnd Nat :=
  let code := atomCode w
  let n := (atomSize code).getD 4
  if !deviceOk s i.part a n then (s, .error (.fault 0x04))
  else if a % n ≠ 0 then (s, .error (.fault 0x05))
  else
    let r := (getV k w.m.vreg).toNat
    let b := 8 * n
    let swapCas := decide (code = 0x0F ∨ code = 0x10)
    let operand := if swapCas then field r (2 * b - 1) b else r % 2 ^ b
    let compare := r % 2 ^ b
    if inShadow t then
      if atomFetch w then (s, .error .wait)
      else (countG (holdBack s k (.atom code a operand)) g 0x0C 1, .ok 0)
    else match performAtom s code a operand compare with
      | (s1, .ok old) => (countG s1 g 0x0C 1, .ok old)
      | (s1, .error aux) => (countG s1 g 0x0C 1, .error (.poison aux))

/-- The MEM slot of one iteration: the state after it, the bits that a load, a stream or a fetching atomic brings, and whether the grove
cache held the line. -/
def memIter (s : State) (c : Nat) (w : GWord) (k : Core) : State × Except MemEnd Nat × Bool :=
  match taskCtx s k with
  | none => (s, .ok 0, false)
  | some (i, f, t) =>
    let g := c / 64
    let a := memAddr w k
    let v := getV k w.m.vreg
    match w.mem with
    | 1 =>
      if scratchBytes (splitOf s i.part) ≤ a then (s, .error (.fault 0x03), false)
      else if a % 32 ≠ 0 then (s, .error (.fault 0x05), false)
      else (s, .ok (leNat (scratchRead g (groveOf s g) a 32)), false)
    | 2 => let r := scratchStore s g a k i f t v
      (r.1, r.2, false)
    | 3 => deviceRead s g a i
    | 4 => deviceStore s g a k i f t v
    | 5 => streamRead s g a i
    | 6 => let r := atomOp s g a w k i t
      (r.1, r.2, false)
    | _ => (s, .ok 0, false)
where
  /-- MLD streams as DLD loads. -/
  streamRead (s : State) (g a : Nat) (i : Inst) : State × Except MemEnd Nat × Bool := deviceRead s g a i

/-- What the MEM slot writes into a register. -/
def memRegs (w : GWord) (data : Nat) (d : Core) : Core :=
  if w.mem = 1 ∨ w.mem = 3 ∨ (w.mem = 6 ∧ atomFetch w) then setV d w.m.vreg (BitVec.ofNat 256 data) else d

/-- The rules of the MEM slot that raise ILLEGAL_WORD (Table 11-4, R238). -/
def memBad (w : GWord) : Bool :=
  decide (6 < w.mem) || (decide (w.mem = 6) && ((atomSize (atomCode w)).isNone || !fetchOk (atomCode w) (atomFetch w)))

end Sys2Proof.Machine
end

