-- ==== Sys2Proof/Machine/Matrix.lean ====
section
/-!
DEFINITION. The MATRIX slot of a grove word: panels, streamed multiplication, group scales, drains, the saturation monitor and the
plausibility checker's tests (R197–R206, R209, R298).
-/
namespace Sys2Proof.Machine

/-- k-step and element width of a streamed format: 0 INT4, 1 INT8, 2 E4M3, 3 E5M2, 4 BF16 (Table 13-1). -/
def kStep (f : Nat) : Nat := lget 4 [8, 4, 4, 4, 2] f
def mWidth (f : Nat) : Nat := lget 8 [4, 8, 8, 8, 16] f
def mIsInt (f : Nat) : Bool := decide (f ≤ 1)
def mFmt (f : Nat) : FFmt := if f = 2 then e4m3 else if f = 3 then e5m2 else bf16

/-- MACs of a data iteration (Table 13-1). -/
def macsOf (f : Nat) : Nat := lget 32 [64, 32, 32, 32, 16] f

/-- Group size of a GROUP code. -/
def groupSize (g : Nat) : Nat := lget 0 [0, 32, 64, 128] g

/-- Element `i` of packed bits of a format, as a value and as an integer. -/
def mBits (f bits i : Nat) : Nat := field bits (mWidth f * i + mWidth f - 1) (mWidth f * i)
def mInt (f bits i : Nat) : Int := signedOf (mWidth f) (mBits f bits i)
def mVal (f bits i : Nat) : FVal := if mIsInt f then ofInt (mInt f bits i) else fdec (mFmt f) (mBits f bits i)

/-- The panel row of a core, and its length in elements of a format. -/
def panelOf (m : Matrix) (row : Nat) : Option Panel := sfind m.panels row
def rowLen (f : Nat) (p : Panel) : Nat := 8 * p.bytes.length / mWidth f

/-! ## Rules (Table 13-3) -/

/-- The rules of the MATRIX slot that raise ILLEGAL_WORD (R201), whatever MOP is, with the core as it stands at issue. -/
def matrixBad (w : GWord) (k : Core) : Bool :=
  let x := w.x
  let fmts := decide (4 < x.sfmt.val) || decide (4 < x.pfmt.val) ||
    !(decide (x.sfmt = x.pfmt) || ((x.sfmt.val = 2 || x.sfmt.val = 3) && (x.pfmt.val = 2 || x.pfmt.val = 3)))
  let common := decide (4 < w.mop) || fmts || (decide (x.sfmt.val = 4) && decide (x.group.val ≠ 0)) || decide (5 < x.ofmt.val)
  common || (match w.mop with
  | 0 => w.mem = 5
  | 1 => decide (w.mem ≠ 5) || decide (63 < w.rep)
  | 2 => decide (w.mem ≠ 5) || (match panelOf k.mat x.row with
    | none => true
    | some p => decide (p.bytes = []) || (decide (x.group.val ≠ 0) && decide (rowLen x.pfmt p % groupSize x.group ≠ 0)))
  | _ => decide (w.mem = 5) || decide (w.rep ≠ 0))

/-! ## Scales (R205) -/

/-- The effective scale of a layer of an instance's table: E = OSCALE × 2^ADJ; an OSCALE of 0 is 1.0. -/
def effScale (x : Inst) (l : Nat) : FVal :=
  let v := lget 0 x.layers l
  if l = 0 then .fin false 1 0
  else
    let o := field v 63 32
    let base := if o = 0 then FVal.fin false 1 0 else fdec fp32 o
    fmul base (.fin false 1 (signedOf 8 (field v 71 64)))

/-! ## Iterations -/

/-- A PANEL iteration: the row is emptied at iteration 0 and takes 32 bytes. -/
def panelIter (x : XSlot) (first : Bool) (data : Nat) (m : Matrix) : Matrix :=
  let old := match panelOf m x.row with
    | some p => if first then [] else p.bytes
    | none => []
  { m with panels := sput m.panels x.row ⟨x.pfmt, old ++ leBytes 32 data, x.layer⟩ }

/-- An INT32 accumulator with an integer added, held in range: the value and whether it saturated. -/
def satAdd32 (a i : Int) : Int × Bool :=
  let s := a + i
  if s < -2147483648 then (-2147483648, true) else if 2147483647 < s then (2147483647, true) else (s, false)

/-- What an iteration gathers: the block, and its saturation events. -/
structure MacOut where
  mat : Matrix
  sat : Nat := 0

/-- The k-pointer of a row after a data iteration. -/
def advanceKp (x : XSlot) (len : Nat) (m : Matrix) : Matrix :=
  let kp := sget 0 m.kp x.row + kStep x.sfmt
  { m with kp := sset 0 m.kp x.row (if len ≤ kp then 0 else kp), sliceDone := m.sliceDone.filter (· ≠ x.row.val) }

/-- Accumulator and partial-sum keys. -/
def accKey (row cb n : Nat) : Nat := 64 * row + 8 * cb + n
def partKey (row n : Nat) : Nat := 8 * row + n

/-- The exact sum of a column's products in one iteration. -/
def columnSum (sf pf pbits kp wbits n : Nat) : FVal :=
  (List.range (kStep sf)).foldl (fun a k => fadd a (fmul (mVal pf pbits (kp + k)) (mVal sf wbits (kStep sf * n + k)))) (.fin false 0 0)

/-- One column of an ungrouped data iteration (R202): the accumulator and its saturation events. -/
def macColumn (sf pf pbits kp wbits n : Nat) (a : BitVec 32) : BitVec 32 × Nat :=
  if mIsInt sf then
    let r := (List.range (kStep sf)).foldl (fun (z : Int × Nat) k =>
      let t := satAdd32 z.1 (mInt pf pbits (kp + k) * mInt sf wbits (kStep sf * n + k))
      (t.1, z.2 + (if t.2 then 1 else 0))) (a.toInt, 0)
    (BitVec.ofInt 32 r.1, r.2)
  else if sf = 4 then
    ((List.range (kStep sf)).foldl (fun z k => bits32 (fadd (val32 z) (fmul (mVal pf pbits (kp + k)) (mVal sf wbits (kStep sf * n + k))))) a, 0)
  else (bits32 (fadd (val32 a) (columnSum sf pf pbits kp wbits n)), 0)

/-- One column of a grouped data iteration (R203): the partial sum. -/
def partColumn (sf pf pbits kp wbits n : Nat) (p : BitVec 32) : BitVec 32 :=
  if mIsInt sf then (macColumn sf pf pbits kp wbits n p).1
  else bits32 (fadd (val32 p) (columnSum sf pf pbits kp wbits n))

/-- The checker's references after a data iteration (R298): for each panel element, Q takes p × Σ w and M takes |p| × Σ |w|; with
groups each column keeps its own until the flush. -/
def checkIter (sf pf pbits kp wbits : Nat) (row cb : Nat) (grouped : Bool) (m : Matrix) : Matrix :=
  (List.range (kStep sf)).foldl (fun m k =>
    let p := mVal pf pbits (kp + k)
    let ws := (List.range 8).map (fun n => mVal sf wbits (kStep sf * n + k))
    if grouped then
      ws.zipIdx.foldl (fun m w =>
        let key := partKey row w.2
        { m with qPart := sset 0 m.qPart key (bits32 (fadd (val32 (sget 0 m.qPart key)) (fmul p w.1))),
                 mPart := sset 0 m.mPart key (bits32 (fadd (val32 (sget 0 m.mPart key)) (fmul (fabsV p) (fabsV w.1)))) }) m
    else
      let key := 8 * row + cb
      let sw := ws.foldl fadd (.fin false 0 0)
      let sa := ws.foldl (fun a w => fadd a (fabsV w)) (.fin false 0 0)
      { m with q := sset 0 m.q key (bits32 (fadd (val32 (sget 0 m.q key)) (fmul p sw))),
               m := sset 0 m.m key (bits32 (fadd (val32 (sget 0 m.m key)) (fmul (fabsV p) sa))) }) m

/-- The scale of column `n` in the group of a parity. -/
def groupScale (m : Matrix) (row half n : Nat) : FVal := fdec bf16 (field (sget 0 m.slice row).toNat (16 * (8 * half + n) + 15) (16 * (8 * half + n)))

/-- The partial sums of a row flushed into a block with the scales of its group (R203), and the checker's with them. -/
def flushRow (sf row cb half : Nat) (m : Matrix) : Matrix :=
  let qk := 8 * row + cb
  let m1 := (List.range 8).foldl (fun m n =>
    let p := sget 0 m.part (partKey row n)
    let pv := if mIsInt sf then ofInt p.toInt else val32 p
    let sc := groupScale m row half n
    let a := sget 0 m.acc (accKey row cb n)
    { m with acc := sset 0 m.acc (accKey row cb n) (bits32 (fadd (val32 a) (fmul pv sc))),
             q := sset 0 m.q qk (bits32 (fadd (val32 (sget 0 m.q qk)) (fmul (val32 (sget 0 m.qPart (partKey row n))) sc))),
             m := sset 0 m.m qk (bits32 (fadd (val32 (sget 0 m.m qk)) (fmul (val32 (sget 0 m.mPart (partKey row n))) (fabsV sc)))) }) m
  (List.range 8).foldl (fun m n =>
    { m with part := sdel m.part (partKey row n), qPart := sdel m.qPart (partKey row n), mPart := sdel m.mPart (partKey row n) })
    { m1 with pend := sdel m1.pend row }

/-- The next iteration of an MMA reads a scale slice (R204). -/
def isScaleIter (x : XSlot) (m : Matrix) : Bool :=
  let g := groupSize x.group
  decide (g ≠ 0) && decide (sget 0 m.kp x.row % (2 * g) = 0) && !m.sliceDone.contains x.row.val

/-- A panel read as another format than it was loaded in, or past its end: the spec states no result. -/
def mmaOpen (x : XSlot) (m : Matrix) : Bool :=
  match panelOf m x.row with
  | none => false
  | some p => !isScaleIter x m && (decide (p.fmt ≠ x.pfmt.val) || decide (rowLen x.pfmt p ≤ sget 0 m.kp x.row))

/-- An MMA iteration (R197, R202–R204). `fr` fills the columns when the spec states no result. -/
def mmaIter (x : XSlot) (data fr : Nat) (m : Matrix) : MacOut :=
  match panelOf m x.row with
  | none => ⟨m, 0⟩
  | some p =>
    if isScaleIter x m then
      ⟨{ m with slice := sset 0 m.slice x.row (BitVec.ofNat 256 data), sliceDone := insertNat m.sliceDone x.row }, 0⟩
    else
      let g := groupSize x.group
      let kp := sget 0 m.kp x.row
      let pbits := leNat p.bytes
      let len := rowLen x.pfmt p
      let opened := mmaOpen x m
      let new (n : Nat) (v : BitVec 32) : BitVec 32 := if opened then BitVec.ofNat 32 (fr >>> (32 * n)) else v
      if g = 0 then
        let r := (List.range 8).foldl (fun (z : Matrix × Nat) n =>
          let key := accKey x.row x.cb n
          let c := macColumn x.sfmt x.pfmt pbits kp data n (sget 0 z.1.acc key)
          ({ z.1 with acc := sset 0 z.1.acc key (new n c.1) }, z.2 + c.2)) (m, 0)
        ⟨advanceKp x len (checkIter x.sfmt x.pfmt pbits kp data x.row x.cb false r.1), r.2⟩
      else
        let half := (kp / g) % 2
        let m1 := (List.range 8).foldl (fun (m : Matrix) n =>
          let key := partKey x.row n
          { m with part := sset 0 m.part key (new n (partColumn x.sfmt x.pfmt pbits kp data n (sget 0 m.part key))) }) m
        let m2 := checkIter x.sfmt x.pfmt pbits kp data x.row x.cb true { m1 with pend := sput m1.pend x.row half }
        let m3 := if (kp + kStep x.sfmt) % g = 0 then flushRow x.sfmt x.row x.cb half m2 else m2
        ⟨advanceKp x len m3, 0⟩

/-- ZERO (R201): the block, its references, the partial sum of the row and KP. -/
def zeroIter (x : XSlot) (m : Matrix) : Matrix :=
  let m1 := (List.range 8).foldl (fun (m : Matrix) n =>
    { m with acc := sdel m.acc (accKey x.row x.cb n), part := sdel m.part (partKey x.row n),
             qPart := sdel m.qPart (partKey x.row n), mPart := sdel m.mPart (partKey x.row n) }) m
  { m1 with q := sdel m1.q (8 * x.row + x.cb), m := sdel m1.m (8 * x.row + x.cb), kp := sdel m1.kp x.row, pend := sdel m1.pend x.row,
            sliceDone := m1.sliceDone.filter (· ≠ x.row.val) }

/-- What a DRAIN computes: the block after the flush, the accumulators, y, y ÷ E, and the bits and events of the conversion (R199). -/
structure Drained where
  mat : Matrix
  acc : List FVal
  y : List FVal
  ratio : List FVal
  bits : List Nat
  sat : Nat

/-- DRAIN (R201). -/
def drainBlock (x : XSlot) (i : Inst) (m : Matrix) : Drained :=
  let m1 := match sfind m.pend x.row with
    | some half => flushRow x.sfmt x.row x.cb half m
    | none => m
  let acc := (List.range 8).map (fun n =>
    let a := sget 0 m1.acc (accKey x.row x.cb n)
    if mIsInt x.sfmt && decide (x.group.val = 0) then ofInt a.toInt else val32 a)
  let r := match panelOf m1 x.row with
    | some p => effScale i p.layer
    | none => .fin false 1 0
  let e := effScale i x.layer
  let y := acc.map (fun a => frnd fp32 (fmul a r))
  let ratio := y.map (fun v => frnd fp32 (fdiv v e))
  let c := ratio.map (convOut x.ofmt (layerSat (lget 0 i.layers x.layer)))
  ⟨m1, acc, y, ratio, c.map (·.1), c.countP (·.2)⟩

/-- A value's magnitude is below or equal to a bound. -/
def magLe (a b : FVal) : Bool := !isNan a && !fltV b (fabsV a)

/-- The checker's tests of a drain (R298, Table 19-2): every enabled test passes. -/
def checkDrain (x : XSlot) (i : Inst) (d : Drained) : Bool :=
  let c := lget 0 i.checks x.layer
  let q := val32 (sget 0 d.mat.q (8 * x.row + x.cb))
  let m := val32 (sget 0 d.mat.m (8 * x.row + x.cb))
  let s := d.acc.foldl (fun a v => frnd fp32 (fadd a v)) (.fin false 0 0)
  let tol := fmul m (.fin false 1 (-(Int.ofNat (field c 15 8))))
  let floor := fdec fp32 (field c 95 64)
  let bound := if fltV tol floor then floor else tol
  (!bitOf c 0 || d.y.all isFin) &&
  (!bitOf c 1 || d.ratio.all (fun v => magLe v (fdec fp32 (field c 63 32)))) &&
  (!bitOf c 2 || (!isNan s && !isNan q && !isNan m && magLe (fadd s (fneg q)) bound))

/-! ## The saturation monitor (R206) -/

/-- Saturation events of a task on a layer: counted, and the trip when the count reaches TRIP; a shadowed task's trip counts at its release
(R10). -/
def satEvents (s : State) (c l n : Nat) : State :=
  match sfind s.gr.cores c with
  | none => s
  | some k =>
    if n = 0 then s
    else match instOf s k.ins, taskOf s k.ins k.node k.firing k.task with
    | some i, some t =>
      let old := sget 0 k.sat l
      let now := old + n
      let trip := layerTrip (lget 0 i.layers l)
      let s1 := countG (modCore s c (fun z => { z with sat := sset 0 z.sat l now })) (c / 64) 0x0F n
      if trip ≠ 0 ∧ trip ≤ now ∧ !t.tripped.contains l then
        let s2 := modTask s1 k.ins k.node k.firing k.task (fun z => { z with tripped := insertNat z.tripped l })
        if inShadow t then s2 else countQ s2 i.part l 0
      else s1
    | _, _ => s

/-- The largest |y ÷ E| of a drain; a NaN is none (R206). -/
def drainPeak (x : XSlot) (d : Drained) : Peak :=
  (d.ratio.filter (fun v => !isNan v)).foldl (fun (p : Peak) v => peakMax p ⟨(bits32 (fabsV v)).toNat, x.ofmt⟩) ⟨0, x.ofmt⟩

/-- What a DRAIN leaves outside its core: the checker's verdict on a CHECKED task, PEAK of a step list, events. -/
def drainEffects (s : State) (c : Nat) (k : Core) (x : XSlot) (i : Inst) (d : Drained) : State :=
  let checked := ((nodeOf i k.node).map (·.ent.checked)).getD false
  let s1 := if checked && !checkDrain x i d then modTask s k.ins k.node k.firing k.task (fun t => { t with sound := false }) else s
  let s2 := match i.owner with
    | .list p =>
      let pk := drainPeak x d
      if (taskOf s k.ins k.node k.firing k.task).any inShadow then
        modTask s1 k.ins k.node k.firing k.task (fun t => { t with peaks := sput t.peaks x.layer ((sfind t.peaks x.layer.val).elim pk (fun o => peakMax o pk)) })
      else countPeak s1 p x.layer pk
    | .run _ _ => s1
  satEvents s2 c x.layer d.sat

/-- The word names a RERUN layer. -/
def namesRerun (w : GWord) (i : Inst) : Bool := decide (w.mop ≠ 0) && decide (layerMode (lget 0 i.layers w.x.layer) = 2)

/-- The MATRIX slot of one iteration: registers go into `d`, effects into the state. -/
def matrixIter (s : State) (c : Nat) (w : GWord) (first : Bool) (data fr : Nat) (k d : Core) : State × Core × Nat :=
  let x := w.x
  match instOf s k.ins with
  | none => (s, d, 0)
  | some i => match w.mop with
    | 1 => (s, { d with mat := panelIter x first data k.mat }, 0)
    | 2 =>
      let r := mmaIter x data fr k.mat
      let s1 := countG s (c / 64) 0x04 1
      let s2 := if isScaleIter x k.mat then s1 else countFixed s1 (c / 64) 3 (macsOf x.sfmt)
      (s2, { d with mat := r.mat }, r.sat)
    | 3 =>
      let r := drainBlock x i k.mat
      (s, setV { d with mat := r.mat } x.vd (packDrain x r.bits), 0)
    | 4 => (s, { d with mat := zeroIter x k.mat }, 0)
    | _ => (s, d, 0)
where
  /-- The eight results packed as Table 12-1; the bits beyond them are 0. -/
  packDrain (x : XSlot) (l : List Nat) : BitVec 256 :=
    BitVec.ofNat 256 (l.foldr (fun v a => (a <<< outWidth x.ofmt) + v % 2 ^ outWidth x.ofmt) 0)

end Sys2Proof.Machine
end

