-- ==== Sys2Proof/Machine/Scalar.lean ====
section
/-! DEFINITION. The SCALAR slot of a grove word (Table 11-4). -/
namespace Sys2Proof.Machine

/-- A shift by the register width or more: the spec states no result. -/
def scalarOpen (w : GWord) (k : Core) : Bool := (w.sop = 6 || w.sop = 7) && decide (32 ≤ (getS k w.sb).toNat)

/-- The registers that the SCALAR slot leaves: sources are read from `k`, results go into `d`; `fr` is the value of an open shift. -/
def scalarRegs (w : GWord) (fr : Nat) (k d : Core) : Core :=
  let x := getS k w.sa
  let y := getS k w.sb
  match w.sop with
  | 1 => setS d w.sd (x + y)
  | 2 => setS d w.sd (x - y)
  | 3 => setS d w.sd (x &&& y)
  | 4 => setS d w.sd (x ||| y)
  | 5 => setS d w.sd (x ^^^ y)
  | 6 => setS d w.sd (if y.toNat < 32 then x <<< y.toNat else BitVec.ofNat 32 fr)
  | 7 => setS d w.sd (if y.toNat < 32 then x >>> y.toNat else BitVec.ofNat 32 fr)
  | 8 => { d with z := decide (x = y), n := (x - y).msb }
  | 9 => setS d w.sd (BitVec.ofNat 32 w.imm)
  | 10 => setA d (w.sd % 4) (BitVec.ofNat 48 w.imm)
  | 11 => setA d (w.sd % 4) (getA k (w.sd % 4) + x.setWidth 48)
  | 12 => { d with lc := BitVec.ofNat 16 w.imm }
  | _ => d

/-- What the SCALAR slot does outside the core's registers: grove flags and barriers. -/
def scalarGrove (s : State) (c : Nat) (k : Core) (w : GWord) : State :=
  match w.sop with
  | 13 => modGrove s (c / 64) (fun g => { g with flags := g.flags ||| BitVec.ofNat 16 (1 <<< (w.imm % 16)) })
  | 14 => modGrove s (c / 64) (fun g => { g with flags := g.flags &&& ~~~ (BitVec.ofNat 16 (1 <<< (w.imm % 16))) })
  | 15 => modTask s k.ins k.node k.firing k.task (fun t => { t with arrived := insertNat t.arrived (w.imm % 8) })
  | _ => s

end Sys2Proof.Machine
end

