-- ==== Sys2Proof/Machine/Vector.lean ====
section
/-! DEFINITION. The VECTOR slot of a grove word: formats, masks, operations, scans (R187–R195). -/
namespace Sys2Proof.Machine

/-- Element width, and elements in a register, of a format (Table 12-1). -/
def vWidth (fmt : Nat) : Nat := if fmt = 5 then 8 else if fmt = 3 ∨ fmt = 4 then 16 else 32
def vCount (fmt : Nat) : Nat := 256 / vWidth fmt

/-- FP formats, and the binary format of one. -/
def vIsFp (fmt : Nat) : Bool := fmt = 0 || fmt = 3 || fmt = 4
def vFmt (fmt : Nat) : FFmt := if fmt = 3 then bf16 else if fmt = 4 then fp16 else fp32

/-- The elements of a register, and a register of elements. -/
def elemsOf (w : Nat) (r : BitVec 256) : List Nat := (List.range (256 / w)).map (fun i => field r.toNat (w * i + w - 1) (w * i))
def packElems (w : Nat) (l : List Nat) : BitVec 256 := BitVec.ofNat 256 (l.foldr (fun x a => (a <<< w) + x % 2 ^ w) 0)

/-- Active elements of a mask. -/
def vActive (k : Core) (v : VSlot) (i : Nat) : Bool := (getK k v.ksel).getLsbD i

/-- Signed reading of an element (INT32, INT8), or unsigned (UINT32). -/
def vInt (fmt a : Nat) : Int := if fmt = 2 then Int.ofNat a else signedOf (vWidth fmt) a

/-- An element smaller than another, for integer formats. -/
def vLess (fmt a b : Nat) : Bool := decide (vInt fmt a < vInt fmt b)

/-- An FP operation on elements of a format, rounded once. -/
def vFp (fmt : Nat) (f : FVal → FVal → FVal) (a b : Nat) : Nat := fenc (vFmt fmt) (f (fdec (vFmt fmt) a) (fdec (vFmt fmt) b))

/-- The elementwise operations of two or three elements (Table 12-3, 1–11). -/
def vElem (vop fmt a b d : Nat) : Nat :=
  let w := vWidth fmt
  match vop with
  | 1 => if vIsFp fmt then vFp fmt fadd a b else (a + b) % 2 ^ w
  | 2 => if vIsFp fmt then vFp fmt (fun x y => fadd x (fneg y)) a b else (a + 2 ^ w - b) % 2 ^ w
  | 3 => if vIsFp fmt then vFp fmt fmul a b else (a * b) % 2 ^ w
  | 4 => if vIsFp fmt then fenc (vFmt fmt) (fadd (fmul (fdec (vFmt fmt) a) (fdec (vFmt fmt) b)) (fdec (vFmt fmt) d)) else (a * b + d) % 2 ^ w
  | 5 => if vIsFp fmt then vFp fmt fmin a b else if vLess fmt b a then b else a
  | 6 => if vIsFp fmt then vFp fmt fmax a b else if vLess fmt a b then b else a
  | 7 => a &&& b
  | 8 => a ||| b
  | 9 => a ^^^ b
  | 10 => (a <<< (b % w)) % 2 ^ w
  | _ => if fmt = 2 then a >>> (b % w) else wrapInt w (signedOf w a >>> (b % w))

/-- The predicates of VCMP. -/
def vPred (fmt mod a b : Nat) : Bool :=
  let x := fdec (vFmt fmt) a
  let y := fdec (vFmt fmt) b
  let lt := if vIsFp fmt then fltV x y else vLess fmt a b
  let gt := if vIsFp fmt then fltV y x else vLess fmt b a
  let eq := if vIsFp fmt then feqV x y else decide (a = b)
  match mod with
  | 0 => eq
  | 1 => !eq
  | 2 => lt
  | 3 => lt || eq
  | 4 => gt
  | 5 => gt || eq
  | _ => isNan x || isNan y

/-- Results under a mask (R191): an inactive element is kept or zeroed. -/
def vMerge (k : Core) (v : VSlot) (old new : List Nat) : List Nat :=
  new.zipIdx.map (fun q => if vActive k v q.2 then q.1 else if v.mz then 0 else lget 0 old q.2)

/-- A mask register written with the elements of a format. -/
def maskOf (n : Nat) (p : Nat → Bool) : BitVec 32 := BitVec.ofNat 32 ((List.range n).foldl (fun a i => a + bitAt (p i) i) 0)

/-! ## Conversion (R190) -/

/-- The pairs VCVT allows. -/
def cvtOk (fmt mod : Nat) : Bool :=
  let t := mod % 8
  (fmt = 0 && (t = 1 || t = 3 || t = 4) && decide (mod < 8)) || (fmt = 1 && decide (mod = 0)) || ((fmt = 3 || fmt = 4) && decide (t = 0))

/-- The elements VCVT produces and their width. -/
def cvt (fmt mod : Nat) (a b : BitVec 256) : Nat × List Nat :=
  let t := mod % 8
  if fmt = 0 ∧ t = 1 then (32, (elemsOf 32 a).map (fun x => wrapInt 32 (toIntSat (fdec fp32 x) (-2147483648) 2147483647).1))
  else if fmt = 0 then (16, (elemsOf 32 a ++ elemsOf 32 b).map (fun x => fenc (vFmt t) (fdec fp32 x)))
  else if fmt = 1 then (32, (elemsOf 32 a).map (fun x => fenc fp32 (ofInt (signedOf 32 x))))
  else (32, (((elemsOf 16 a).drop (if 8 ≤ mod then 8 else 0)).take 8).map (fun x => fenc fp32 (fdec (vFmt fmt) x)))

/-! ## Scans (R193–R195) -/

/-- The reduction of two elements: ADD, MIN, MAX, OR. -/
def scanOp (fmt mod a b : Nat) : Nat :=
  match mod % 4 with
  | 0 => vElem 1 fmt a b 0
  | 1 => vElem 5 fmt a b 0
  | 2 => vElem 6 fmt a b 0
  | _ => a ||| b

/-- The identity of a reduction. -/
def scanId (fmt mod : Nat) : Nat :=
  let w := vWidth fmt
  match mod % 4 with
  | 1 => if vIsFp fmt then (vFmt fmt).infBits false else if fmt = 2 then 2 ^ w - 1 else 2 ^ (w - 1) - 1
  | 2 => if vIsFp fmt then (vFmt fmt).infBits true else if fmt = 2 then 0 else 2 ^ (w - 1)
  | _ => 0

/-- An element as a result: a NaN is the canonical one (R188). -/
def vCanon (fmt x : Nat) : Nat := if vIsFp fmt then fenc (vFmt fmt) (fdec (vFmt fmt) x) else x

/-- A running reduction: outputs and the carry-out. An element is active or not, and a head or not. -/
def scanList (fmt mod : Nat) (excl : Bool) : Nat → List (Nat × Bool × Bool) → List Nat × Nat
  | c, [] => ([], c)
  | c, (x, act, head) :: l =>
    let inc := if !act then scanOp fmt mod c (scanId fmt mod) else if head then vCanon fmt x else scanOp fmt mod c x
    let out := if excl then (if head then scanId fmt mod else c) else inc
    let r := scanList fmt mod excl inc l
    (out :: r.1, r.2)

/-- VSCAN and VSEGSCAN of one iteration: register and CARRY. -/
def scanIter (k : Core) (v : VSlot) (seg first : Bool) : List Nat × Nat :=
  let fmt := v.fmt.val
  let mod := v.mod.val
  let c := if first && decide (mod < 8) then scanId fmt mod else k.carry % 2 ^ vWidth fmt
  let l := (elemsOf (vWidth fmt) (getV k v.va)).zipIdx.map (fun q =>
    (q.1, seg || vActive k v q.2, seg && vActive k v q.2))
  scanList fmt mod (bitOf mod 2) c l

/-! ## The slot -/

/-- The rules of the VECTOR slot that raise ILLEGAL_WORD (R189, R190, R193–R195). -/
def vectorBad (w : GWord) : Bool :=
  let fmt := w.v.fmt.val
  let mod := w.v.mod.val
  let red := (mod % 4 = 3 && vIsFp fmt)
  if w.vop = 0 then false
  else if 26 < w.vop ∨ 5 < fmt then true
  else match w.vop with
  | 3 => decide (2 < fmt)
  | 4 => decide (2 < fmt)
  | 7 => vIsFp fmt
  | 8 => vIsFp fmt
  | 9 => vIsFp fmt
  | 10 => vIsFp fmt
  | 11 => vIsFp fmt
  | 12 => decide (6 < mod) || (decide (mod = 6) && !vIsFp fmt)
  | 13 => !cvtOk fmt mod
  | 15 => decide (vCount fmt ≤ w.v.vb)
  | 20 => red
  | 21 => red || w.v.mz
  | 22 => red || bitOf mod 2 || decide (w.rep ≠ 0)
  | 23 => red
  | 24 => decide (3 < mod)
  | _ => false

/-- The registers that the VECTOR slot leaves; `first` tells iteration 0 of a word. VSCANX takes what was delivered. -/
def vectorRegs (w : GWord) (first : Bool) (fr : Nat) (k d : Core) : Core :=
  let v := w.v
  let fmt := v.fmt.val
  let wd := vWidth fmt
  let n := vCount fmt
  let a := elemsOf wd (getV k v.va)
  let b := elemsOf wd (getV k v.vb)
  let old := elemsOf wd (getV k v.vd)
  let put (l : List Nat) : Core := setV d v.vd (packElems wd (vMerge k v old l))
  let act := (List.range n).filter (vActive k v)
  match w.vop with
  | 0 => d
  | 12 => setK d (v.vd.val % 8) (maskOf n (fun i =>
      if vActive k v i then vPred fmt v.mod (lget 0 a i) (lget 0 b i) else !v.mz && (getK k (v.vd.val % 8)).getLsbD i))
  | 13 => let (ow, l) := cvt fmt v.mod (getV k v.va) (getV k v.vb)
    setV d v.vd (packElems ow (vMerge k v (elemsOf ow (getV k v.vd)) l))
  | 14 => put (List.replicate n ((getS k v.va).toNat % 2 ^ wd))
  | 15 => let x := lget 0 a v.vb
    setS d v.vd (BitVec.ofNat 32 (if fmt = 5 then wrapInt 32 (signedOf 8 x) else x))
  | 16 => put (b.map (fun i => lget 0 a (i % n)))
  | 17 => let l := act.map (lget 0 a)
    setV d v.vd (packElems wd ((List.range n).map (fun j => if j < l.length then lget 0 l j else if v.mz then 0 else lget 0 old j)))
  | 18 => put ((List.range n).map (fun i => lget 0 a ((act.filter (· < i)).length)))
  | 19 => setS d v.vd (BitVec.ofNat 32 act.length)
  | 20 => let r := scanIter k v false first
    { setV d v.vd (packElems wd (vMerge k v old r.1)) with carry := r.2 }
  | 21 => let r := scanIter k v true first
    { setV d v.vd (packElems wd r.1) with carry := r.2 }
  | 22 => match k.scanOut with
    | some (x, y) => if v.vd = v.vb then setV d v.vd (BitVec.ofNat 256 fr) else setV (setV d v.vd x) v.vb y
    | none => d
  | 23 => setV d v.vd (packElems wd [(act.map (lget 0 a)).foldl (scanOp fmt v.mod) (scanId fmt v.mod)])
  | 24 =>
    let x := getK k (v.va.val % 8)
    let y := getK k (v.vb.val % 8)
    let r := match v.mod.val with
      | 0 => x &&& y
      | 1 => x ||| y
      | 2 => x ^^^ y
      | _ => x &&& ~~~ y
    setK d (v.vd.val % 8) (BitVec.ofNat 32 (r.toNat % 2 ^ n))
  | 25 => setK d (v.vd.val % 8) (BitVec.ofNat 32 ((getS k v.va).toNat % 2 ^ n))
  | 26 => setS d v.vd (getK k (v.va.val % 8))
  | op => put ((List.range n).map (fun i => vElem op fmt (lget 0 a i) (lget 0 b i) (lget 0 old i)))

/-! ## VSCANX (R195) -/

/-- The contribution of a task to a VSCANX. -/
def scanShare (k : Core) (v : VSlot) : Nat :=
  if v.mod.val < 8 then k.carry % 2 ^ vWidth v.fmt else lget 0 (elemsOf (vWidth v.fmt) (getV k v.va)) 0

/-- The tasks of a firing placed on a grove, in task order. -/
def tasksOn (s : State) (k : Core) (g : Nat) : List (Task × Nat) :=
  match firingOf s k.ins k.node k.firing with
  | none => []
  | some f => f.tasks.zipIdx.filter (fun t => decide (t.1.grove = g) && (match t.1.place with
    | .ready _ => false
    | _ => true))

/-- What every participant of a VSCANX waits with, in task order, once all have issued. -/
def scanReady (s : State) (k : Core) (g : Nat) : Option (List (Nat × ScanWait)) :=
  (tasksOn s k g).mapM (fun t => match t.1.place with
    | .core c => (sfind s.gr.cores c).bind (fun x => x.scan.map (fun w => (c, w)))
    | _ => none)

/-- Every participant uses the same FMT and MOD. -/
def scanAgrees (l : List (Nat × ScanWait)) : Bool :=
  match l with
  | [] => true
  | p :: rest => rest.all (fun q => decide (q.2.fmt = p.2.fmt) && decide (q.2.mod = p.2.mod))

/-- The results delivered to the participants: a whole word takes them when it goes on, a slot alone at once. -/
def scanDeliver (s : State) (l : List (Nat × ScanWait)) : State :=
  match l with
  | [] => s
  | p :: _ =>
    let fmt := p.2.fmt
    let n := vCount fmt
    let all (x : Nat) : BitVec 256 := packElems (vWidth fmt) (List.replicate n x)
    let tot := l.foldl (fun a q => scanOp fmt p.2.mod a q.2.value) (scanId fmt p.2.mod)
    (l.foldl (fun (z : State × Nat) q =>
      let out := (all z.2, all tot)
      let s1 := modCore z.1 q.1 (fun c =>
        if q.2.word then { c with scan := none, scanOut := some out }
        else
          let c1 := { c with scan := none }
          if q.2.vd = q.2.vb then setV c1 q.2.vd (BitVec.ofNat 256 (Config.freeBits z.1.free)) else setV (setV c1 q.2.vd out.1) q.2.vb out.2)
      ({ s1 with free := s1.free + 1 }, scanOp fmt p.2.mod z.2 q.2.value)) (s, scanId fmt p.2.mod)).1

end Sys2Proof.Machine
end

