-- ==== Sys2Proof/Machine/Micro.lean ====
section
/-!
DEFINITION. Grove sequencers: fetching words through the match registers, waiting conditions, checks at issue, iterations, exceptions,
NEXT actions, the end of a task and the switch between patch sets (R170, R171, R174, R178, R179, R186, R341).
-/
namespace Sys2Proof.Machine

/-! ## Fetching (R178, R179) -/

/-- The patch set that a sequencer runs under: until it has switched, the one under which it ran before. -/
def patchOf (s : State) (kind u : Nat) : PatchSet :=
  match (lget [] s.gr.micro.former kind).find? (fun q => q.2.contains u) with
  | some q => q.1
  | none => lget {} s.gr.micro.patch kind

/-- A word of a control store. -/
def storeWord (s : State) (kind a : Nat) : BitVec 256 := sget 0 (lget [] s.gr.micro.stores kind) a

/-- The match register whose MATCH is an address, the lowest first. -/
def matchReg (p : PatchSet) (a : Nat) : Option Nat := (p.regs.find? (fun r => decide (r.2.1 = a))).map (fun r => r.2.2)

/-- What a sequencer fetches at a place: the word, and the place as it executes: in the patch RAM or in the store, and the address. -/
def fetchWord (s : State) (kind u : Nat) (inPatch : Bool) (upc : Nat) : BitVec 256 × Bool × Nat :=
  let p := patchOf s kind u
  if inPatch then (sget 0 p.words upc, true, upc)
  else match matchReg p upc with
    | some r => (sget 0 p.words r, true, r)
    | none => (storeWord s kind upc, false, upc)

/-- The word a core is at, and the core with uPC where that word lies. -/
def coreWord (s : State) (c : Nat) (k : Core) : GWord × Core :=
  let f := fetchWord s 0 (c / 64) k.inPatch k.upc
  (gword f.1, { k with inPatch := f.2.1, upc := f.2.2 })

/-! ## Paced sequencers (R172, R175, R178) -/

/-- Words of the control store of a kind (Table 11-2). -/
def storeWords (kind : Nat) : Nat := lget 0 [16384, 4096, 2048] kind

/-- A paced sequencer at a control-store address. -/
def pacedTo (q : Paced) (t : Nat) : Paced := { q with inPatch := false, upc := t }

/-- Where a paced sequencer goes with NEXT, its flag Z and TARGET; none for an encoding that Table 11-3 does not allow: NEXT 9 to 15, a
TARGET beyond the store, RETURN with an empty stack, CALL with 4 entries on it. END stops it. -/
def pacedNext (kind : Nat) (q : Paced) (z : Bool) (next target : Nat) : Option Paced :=
  let up := (q.upc + 1) % (if q.inPatch then 512 else storeWords kind)
  let seq : Paced := { q with upc := up, running := true }
  let jump : Paced := { pacedTo q target with running := true }
  if 8 < next ∨ (1 ≤ next ∧ next ≤ 5 ∧ storeWords kind ≤ target) then none
  else match next with
  | 0 => some seq
  | 1 => some jump
  | 2 => some (if z then jump else seq)
  | 3 => some (if z then seq else jump)
  | 4 => some (if q.lc - 1 ≠ 0 then { jump with lc := q.lc - 1 } else { seq with lc := q.lc - 1 })
  | 5 => if 4 ≤ q.stack.length then none else some { jump with stack := (q.inPatch, up) :: q.stack }
  | 6 => (match q.stack with
    | (p, a) :: rest => some { q with inPatch := p, upc := a, stack := rest, running := true }
    | [] => none)
  | 7 => some { seq with running := false }
  | _ => some { q with inPatch := true, upc := target % 512, running := true }

/-- A paced sequencer at the place of the word that it fetches. -/
def pacedFetch (s : State) (kind u : Nat) (q : Paced) : BitVec 256 × Paced :=
  let f := fetchWord s kind u q.inPatch q.upc
  (f.1, { q with inPatch := f.2.1, upc := f.2.2 })

/-! ## Conditions (Table 11-5) -/

/-- The condition of a word is true. Every access of the model completes within its iteration, so conditions 1 to 6 hold. -/
def condTrue (s : State) (c : Nat) (k : Core) (cond : Nat) : Bool :=
  let t := taskCtx s k
  if cond ≤ 6 then true
  else if cond = 7 then t.any (fun x => !x.2.2.tripped.isEmpty)
  else if cond ≤ 15 then (tasksOn s k (c / 64)).all (fun x => x.1.arrived.contains (cond - 8))
  else if cond ≤ 31 then (groveOf s (c / 64)).flags.getLsbD (cond - 16)
  else match cond with
    | 32 => k.z
    | 33 => !k.z
    | 34 => k.n
    | 35 => !k.n
    | 36 => decide (k.lc = 0)
    | 37 => t.any (fun x => inputsConfirmed x.2.1)
    | 38 => t.any (fun x => !inShadow x.2.2 || (x.2.2.undo.isEmpty && x.2.2.redo.isEmpty))
    | _ => false

/-! ## Checks at issue -/

/-- The cause of the exception that a word raises at issue, if any: ILLEGAL_WORD, RERUN_UNSHADOWED, CALL_DEPTH. -/
def issueFault (s : State) (k : Core) (w : GWord) : Option Nat :=
  if decide (38 < w.cond) || decide (8 < w.next) || decide (15 < w.sop) || memBad w || vectorBad w || matrixBad w k || twoWriters w ||
     (decide (w.next = 6) && k.stack.isEmpty) then some 0x01
  else if decide (w.next = 5) && decide (4 ≤ k.stack.length) then some 0x02
  else match taskCtx s k with
    | some (i, _, _) => if namesRerun w i && !((nodeOf i k.node).map (·.ent.checked)).getD false then some 0x08 else none
    | none => none

/-! ## Iterations -/

/-- A RERUN-layer word marks the task, with its format (R208). -/
def markRerun (s : State) (k : Core) (w : GWord) : State :=
  match instOf s k.ins with
  | none => s
  | some i => if namesRerun w i then
      modTask s k.ins k.node k.firing k.task (fun t =>
        { t with rerunWord := true, rerunFmt := sput t.rerunFmt w.x.layer (Nat.max (sget 0 t.rerunFmt w.x.layer) w.x.sfmt) })
    else s

/-- The 32 bytes of a Tracks sample (Table 21-4). LAT and WAIT are cycles, which the model leaves open. -/
def sampleOf (s : State) (c p : Nat) (k : Core) (w : GWord) (shadowed hit : Bool) (i fr : Nat) : Nat :=
  let dev := decide (3 ≤ w.mem)
  let slots := bitAt (decide (w.sop ≠ 0)) 0 + bitAt (decide (w.vop ≠ 0)) 1 + bitAt (decide (w.mop ≠ 0)) 2 + bitAt (decide (w.mem ≠ 0)) 3
  let flags := bitAt k.inPatch 0 + bitAt shadowed 1 + bitAt (decide (w.mem ≠ 0)) 2 + bitAt (dev && decide (w.mem ≠ 0)) 3 + bitAt hit 4
  leNat (leBytes 2 (c / 64 + ((c % 64) <<< 10)) ++ leBytes 1 p ++ leBytes 1 flags ++ leBytes 2 k.upc ++ leBytes 1 slots ++
    leBytes 1 (w.mem + (w.next <<< 4)) ++ leBytes 2 (Nat.min i 65535) ++ leBytes 2 (fr % 65536) ++ leBytes 4 (fr / 65536) ++
    leBytes 8 (if w.mem = 0 then 0 else memAddr w k) ++ leBytes 4 k.ins ++ leBytes 4 s.time.dev)

/-- An armed grove tags an eligible iteration (R341). -/
def tagIter (s : State) (c : Nat) (k : Core) (w : GWord) (hit : Bool) (i : Nat) : State :=
  let g := c / 64
  match instOf s k.ins, taskCtx s k with
  | some x, some (_, _, t) =>
    let cfg := tracksCfg s x.part
    let inRange := !bitOf cfg 65 || (decide (field cfg 45 32 ≤ k.upc) && decide (k.upc ≤ field cfg 61 48))
    if s.trk.armed.contains g && (!bitOf cfg 64 || decide (w.mem ≠ 0)) && inRange then
      { s with trk.armed := s.trk.armed.filter (· ≠ g),
               trk.tagged := sput s.trk.tagged g (x.part, sampleOf s c x.part k w (inShadow t) hit i (Config.freeBits s.free % 2 ^ 48)),
               free := s.free + 1 }
    else s
  | _, _ => s

/-- The spec states no result of an iteration: a wide shift, a VSCANX into one register, a panel read past its end. -/
def iterOpen (w : GWord) (k : Core) : Bool :=
  scalarOpen w k || (w.vop = 22 && w.v.vd = w.v.vb) || (w.mop = 2 && mmaOpen w.x k.mat)

/-- One iteration of a word on a core: every slot reads the core as it stands and leaves its results at the end (R171, R191). -/
def iterate (s : State) (c : Nat) (w : GWord) (i : Nat) : State × Option MemEnd :=
  match sfind s.gr.cores c with
  | none => (s, none)
  | some k => match memIter s c w k with
    | (s1, .error e, _) => (s1, some e)
    | (s1, .ok data, hit) =>
      let fr := Config.freeBits s1.free
      let s2 := if iterOpen w k then { s1 with free := s1.free + 1 } else s1
      let first := decide (i = 0)
      let dr := (instOf s2 k.ins).map (fun x => (x, drainBlock w.x x k.mat))
      let (s3, d1, sat) := matrixIter s2 c w first data fr k k
      let d2 := vectorRegs w first fr k d1
      let d3 := stride w (memRegs w data (scalarRegs w fr k d2))
      let s4 := modCore s3 c (fun z => { d3 with lines := z.lines, iter := i + 1, waiting := false, scanOut := none })
      let s5 := scalarGrove s4 c k w
      let s6 := match w.mop, dr with
        | 3, some (x, d) => drainEffects s5 c k w.x x d
        | _, _ => satEvents s5 c w.x.layer sat
      let s7 := countG (if w.vop = 0 then s6 else countG s6 (c / 64) 0x05 1) (c / 64) 0x03 1
      (tagIter s7 c k w hit i, none)

/-- An exception of a core's task, at the word the core is at (R186). -/
def coreFault (s : State) (c : Nat) (k : Core) (cause : Nat) : State := taskFault s k.ins k.node k.firing k.task (c / 64) cause k.upc

/-- How the run of a word's iterations ends. -/
inductive RunEnd where
  | finished | waits | stopped
  deriving DecidableEq, Repr

/-- A wait of a shadowed store or a fetching atomic begins; a wait for shadow room is counted once (R185). -/
def shadowWait (s : State) (c : Nat) (w : GWord) (k : Core) : State :=
  match instOf s k.ins, sfind s.gr.cores c with
  | some x, some k1 =>
    let s1 := modCore s c (fun z => { z with waiting := true })
    if k1.waiting ∨ w.mem = 6 then s1 else specStat s1 x.part 3 1
  | _, _ => s

/-- Iterations `i` onward of a word, `n` of them. -/
def runIters (c : Nat) (w : GWord) : Nat → State → State × RunEnd
  | 0, s => (s, .finished)
  | n + 1, s => match sfind s.gr.cores c with
    | none => (s, .stopped)
    | some k => match iterate s c w (w.rep - n) with
      | (s1, none) => runIters c w n s1
      | (s1, some .wait) => (shadowWait s1 c w k, .waits)
      | (s1, some (.fault cause)) => (coreFault s1 c k cause, .stopped)
      | (s1, some (.poison aux)) => (freezeInst s1 k.ins stMemoryError aux true .fault, .stopped)

/-! ## NEXT -/

/-- uPC after SEQ in the space it lies in. -/
def seqUpc (inPatch : Bool) (upc : Nat) : Nat := (upc + 1) % (if inPatch then 512 else 16384)

/-- A core at a control-store address. -/
def goStore (k : Core) (t : Nat) : Core := { k with inPatch := false, upc := t }

/-- A core after the NEXT action of a word that is not END (Table 11-3, R178). -/
def nextCore (next target : Nat) (k : Core) : Core :=
  let seq : Core := { k with upc := seqUpc k.inPatch k.upc }
  match next with
  | 0 => seq
  | 1 => goStore k target
  | 2 => if k.z then goStore k target else seq
  | 3 => if k.z then seq else goStore k target
  | 4 =>
    let lc := k.lc - 1
    if lc ≠ 0 then goStore { k with lc } target else { seq with lc }
  | 5 => goStore { k with stack := (k.inPatch, seqUpc k.inPatch k.upc) :: k.stack } target
  | 6 => match k.stack with
    | (p, a) :: rest => { k with stack := rest, inPatch := p, upc := a }
    | [] => k
  | _ => { k with inPatch := true, upc := target % 512 }

/-- A task ends (R170): its outputs are kept, its core is free; the last task of a firing emits the tokens. -/
def endOfTask (s : State) (c : Nat) (k : Core) : State :=
  let outs := (List.range 8).map (fun o => (getV k (24 + o)).setWidth 128)
  let s1 := modTask s k.ins k.node k.firing k.task (fun t => { t with place := .retired, outs })
  let s2 := countFixed { s1 with gr.cores := sdel s1.gr.cores c } (c / 64) 1 1
  match firingOf s2 k.ins k.node k.firing with
  | some f => if allRetired f && !f.emitted then emit s2 k.ins k.node k.firing (coreData f) else s2
  | none => s2

/-- The NEXT action taken after the last iteration; END retires the task. -/
def takeNext (s : State) (c next target : Nat) : State :=
  match sfind s.gr.cores c with
  | none => s
  | some k =>
    if next = 7 then endOfTask s c k
    else modCore s c (fun z => { nextCore next target z with iter := 0, scanOut := none })

/-! ## Issue -/

/-- A core may issue: it runs a task, the task holds no exception, and its grove has not been fenced by a hard cause. -/
def mayIssue (s : State) (c : Nat) (k : Core) : Bool :=
  !s.fb.hardClearing.contains (unitGrove (c / 64)) && (match taskCtx s k with
    | some (_, _, t) => t.heldFault.isNone
    | none => false)

/-- A VSCANX registers a core's contribution; the last participant to issue lets all go on, or stops all where they disagree (R195). -/
def scanIssue (s : State) (c : Nat) (k : Core) (v : VSlot) (word : Bool) : State :=
  if k.scan.isSome then s
  else
    let s1 := modCore s c (fun z => { z with scan := some ⟨v.fmt, v.mod, scanShare k v, v.vd, v.vb, word⟩ })
    match scanReady s1 k (c / 64) with
    | none => s1
    | some l =>
      if scanAgrees l then scanDeliver s1 l
      else
        -- every participant raises it; the first that freezes the instance ends them all, and each counts
        let sure := (taskCtx s1 k).any (fun z => inputsConfirmed z.2.1)
        let s2 := match instOf s1 k.ins with
          | some x => if sure then { s1 with gr.microFaults := sset 0 s1.gr.microFaults x.part ((sget 0 s1.gr.microFaults x.part + (l.length - 1)) % 2 ^ 32) } else s1
          | none => s1
        l.foldl (fun s q => match sfind s.gr.cores q.1 with
          | some z => coreFault s q.1 z 0x01
          | none => s) s2

/-- A word issues on a core, its iterations run and its NEXT action is taken (R171, R174). The core stands at the word's own place. -/
def issueWord (s : State) (c : Nat) (k : Core) (w : GWord) : State :=
  if 38 < w.cond then coreFault s c k 0x01
  else if k.iter = 0 ∧ k.scan.isNone ∧ k.scanOut.isNone ∧ !condTrue s c k w.cond then s
  else match issueFault s k w with
    | some cause => coreFault s c k cause
    | none =>
      let s1 := if w.vop = 22 ∧ k.scanOut.isNone then scanIssue s c k w.v true else s
      match sfind s1.gr.cores c with
      | none => s1
      | some k1 =>
        if w.vop = 22 ∧ k1.scanOut.isNone then s1
        else
          let fetched (t : State) : State := if k.inPatch then countG t (c / 64) 0x11 1 else t
          let s2 := if k.iter = 0 ∧ !k.waiting then fetched (countG (markRerun s1 k w) (c / 64) 0x02 1) else s1
          match runIters c w (w.rep + 1 - k1.iter) s2 with
          | (s3, .finished) => takeNext (countFixed s3 (c / 64) 2 1) c w.next w.target
          | (s3, _) => s3

/-- WORD_ISSUE: the next word of a core, where its condition holds (R171, R174). -/
def execWordIssue (core : Fin 27648) (s : State) : Out :=
  .next (match sfind s.gr.cores core with
  | none => s
  | some k0 =>
    if !mayIssue s core k0 then s
    else
      let (w, k) := coreWord s core k0
      issueWord (modCore s core (fun _ => k)) core k w)

/-- WAIT_STUCK: the word of a core has waited WAIT_LIMIT cycles and its condition, or a VSCANX's participants, are still not there
(R174, R195). A limit of 0 disables it. -/
def execWaitStuck (core : Fin 27648) (s : State) : Out :=
  .next (match sfind s.gr.cores core with
  | none => s
  | some k0 => match instOf s k0.ins with
    | none => s
    | some x =>
      let (w, k) := coreWord s core k0
      let waits := k.scan.isSome || (decide (k.iter = 0) && k.scanOut.isNone && decide (w.cond ≤ 38) && !condTrue s core k w.cond)
      if mayIssue s core k0 && waits && decide (param s 0x3002 1 x.part ≠ 0) then coreFault s core k 0x06 else s)

/-! ## NEXT actions, one row each -/

/-- The NEXT action of a core's present word taken by itself, with the checks it has at issue. -/
def nextRow (core next target : Nat) (s : State) : Out :=
  .next (match sfind s.gr.cores core with
  | none => s
  | some k =>
    if !mayIssue s core k then s
    else match issueFault s k { next, target } with
      | some cause => coreFault s core k cause
      | none => takeNext s core next target)

/-- JUMP (Table 11-3). -/
def execJump (core : Fin 27648) (target : BitVec 14) (s : State) : Out := nextRow core 1 target.toNat s
/-- BZ. -/
def execBz (core : Fin 27648) (target : BitVec 14) (s : State) : Out := nextRow core 2 target.toNat s
/-- BNZ. -/
def execBnz (core : Fin 27648) (target : BitVec 14) (s : State) : Out := nextRow core 3 target.toNat s
/-- LOOP. -/
def execLoopOp (core : Fin 27648) (target : BitVec 14) (s : State) : Out := nextRow core 4 target.toNat s
/-- CALL. -/
def execCallOp (core : Fin 27648) (target : BitVec 14) (s : State) : Out := nextRow core 5 target.toNat s
/-- RETURN. -/
def execReturnOp (core : Fin 27648) (s : State) : Out := nextRow core 6 0 s
/-- END (R170). -/
def execEndTask (core : Fin 27648) (s : State) : Out := nextRow core 7 0 s
/-- PJUMP (R178). -/
def execPjump (core : Fin 27648) (target : BitVec 14) (s : State) : Out := nextRow core 8 target.toNat s

/-! ## Slots, one row each -/

/-- One iteration of a word that has only these slots, on a core that runs a task; uPC stays where it is. -/
def slotRow (core : Nat) (w : GWord) (s : State) : Out :=
  .next (match sfind s.gr.cores core with
  | none => s
  | some k =>
    if !mayIssue s core k then s
    else match issueFault s k w with
      | some cause => coreFault s core k cause
      | none =>
        if w.vop = 22 then scanIssue s core k w.v false
        else
          let s1 := modCore (markRerun s k w) core (fun z => { z with iter := 0 })
          let s2 := (runIters core w 1 s1).1
          modCore s2 core (fun z => { z with iter := k.iter }))

/-- ADD (Table 11-4). -/
def execAdd (core : Fin 27648) (sd sa sb : Fin 32) (s : State) : Out := slotRow core { sop := 1, sd := sd, sa := sa, sb := sb } s
/-- SUB. -/
def execSub (core : Fin 27648) (sd sa sb : Fin 32) (s : State) : Out := slotRow core { sop := 2, sd := sd, sa := sa, sb := sb } s
/-- AND. -/
def execAndOp (core : Fin 27648) (sd sa sb : Fin 32) (s : State) : Out := slotRow core { sop := 3, sd := sd, sa := sa, sb := sb } s
/-- OR. -/
def execOrOp (core : Fin 27648) (sd sa sb : Fin 32) (s : State) : Out := slotRow core { sop := 4, sd := sd, sa := sa, sb := sb } s
/-- XOR. -/
def execXorOp (core : Fin 27648) (sd sa sb : Fin 32) (s : State) : Out := slotRow core { sop := 5, sd := sd, sa := sa, sb := sb } s
/-- SHL. -/
def execShl (core : Fin 27648) (sd sa sb : Fin 32) (s : State) : Out := slotRow core { sop := 6, sd := sd, sa := sa, sb := sb } s
/-- SHR. -/
def execShr (core : Fin 27648) (sd sa sb : Fin 32) (s : State) : Out := slotRow core { sop := 7, sd := sd, sa := sa, sb := sb } s
/-- CMP. -/
def execCmp (core : Fin 27648) (sa sb : Fin 32) (s : State) : Out := slotRow core { sop := 8, sa := sa, sb := sb } s
/-- LI. -/
def execLi (core : Fin 27648) (sd : Fin 32) (imm : BitVec 48) (s : State) : Out := slotRow core { sop := 9, sd := sd, imm := imm.toNat } s
/-- SETA. -/
def execSeta (core : Fin 27648) (sd : Fin 32) (imm : BitVec 48) (s : State) : Out := slotRow core { sop := 10, sd := sd, imm := imm.toNat } s
/-- ADDA. -/
def execAdda (core : Fin 27648) (sd sa : Fin 32) (s : State) : Out := slotRow core { sop := 11, sd := sd, sa := sa } s
/-- SETLC. -/
def execSetlc (core : Fin 27648) (imm : BitVec 48) (s : State) : Out := slotRow core { sop := 12, imm := imm.toNat } s
/-- SETF. -/
def execSetf (core : Fin 27648) (imm : BitVec 48) (s : State) : Out := slotRow core { sop := 13, imm := imm.toNat } s
/-- CLRF. -/
def execClrf (core : Fin 27648) (imm : BitVec 48) (s : State) : Out := slotRow core { sop := 14, imm := imm.toNat } s
/-- BARRIER. -/
def execBarrier (core : Fin 27648) (imm : BitVec 48) (s : State) : Out := slotRow core { sop := 15, imm := imm.toNat } s

/-- LD (Table 11-4). -/
def execLd (core : Fin 27648) (m : MemSlot) (s : State) : Out := slotRow core { mem := 1, m } s
/-- ST. -/
def execSt (core : Fin 27648) (m : MemSlot) (s : State) : Out := slotRow core { mem := 2, m } s
/-- DLD. -/
def execDld (core : Fin 27648) (m : MemSlot) (s : State) : Out := slotRow core { mem := 3, m } s
/-- DST. -/
def execDst (core : Fin 27648) (m : MemSlot) (s : State) : Out := slotRow core { mem := 4, m } s
/-- MLD, with the MATRIX operation that takes what it streams. -/
def execMld (core : Fin 27648) (m : MemSlot) (mop : Fin 16) (x : XSlot) (s : State) : Out := slotRow core { mem := 5, m, mop := mop, x } s
/-- ATOM (R238): the operation in IMM bits 47:40. -/
def execAtom (core : Fin 27648) (m : MemSlot) (imm : BitVec 48) (s : State) : Out := slotRow core { mem := 6, m, imm := imm.toNat } s

/-- PANEL, with the MLD it needs (R201). -/
def execPanel (core : Fin 27648) (x : XSlot) (m : MemSlot) (s : State) : Out := slotRow core { mop := 1, x, mem := 5, m } s
/-- MMA, with the MLD it needs (R197, R201). -/
def execMma (core : Fin 27648) (x : XSlot) (m : MemSlot) (s : State) : Out := slotRow core { mop := 2, x, mem := 5, m } s
/-- DRAIN (R201). -/
def execDrain (core : Fin 27648) (x : XSlot) (s : State) : Out := slotRow core { mop := 3, x } s
/-- ZERO (R201). -/
def execZeroBlock (core : Fin 27648) (x : XSlot) (s : State) : Out := slotRow core { mop := 4, x } s

/-- VADD (Table 12-3). -/
def execVadd (core : Fin 27648) (v : VSlot) (s : State) : Out := slotRow core { vop := 1, v } s
/-- VSUB (Table 12-3). -/
def execVsub (core : Fin 27648) (v : VSlot) (s : State) : Out := slotRow core { vop := 2, v } s
/-- VMUL (Table 12-3). -/
def execVmul (core : Fin 27648) (v : VSlot) (s : State) : Out := slotRow core { vop := 3, v } s
/-- VFMA (Table 12-3). -/
def execVfma (core : Fin 27648) (v : VSlot) (s : State) : Out := slotRow core { vop := 4, v } s
/-- VMIN (Table 12-3). -/
def execVmin (core : Fin 27648) (v : VSlot) (s : State) : Out := slotRow core { vop := 5, v } s
/-- VMAX (Table 12-3). -/
def execVmax (core : Fin 27648) (v : VSlot) (s : State) : Out := slotRow core { vop := 6, v } s
/-- VAND (Table 12-3). -/
def execVand (core : Fin 27648) (v : VSlot) (s : State) : Out := slotRow core { vop := 7, v } s
/-- VOR (Table 12-3). -/
def execVor (core : Fin 27648) (v : VSlot) (s : State) : Out := slotRow core { vop := 8, v } s
/-- VXOR (Table 12-3). -/
def execVxor (core : Fin 27648) (v : VSlot) (s : State) : Out := slotRow core { vop := 9, v } s
/-- VSHL (Table 12-3). -/
def execVshl (core : Fin 27648) (v : VSlot) (s : State) : Out := slotRow core { vop := 10, v } s
/-- VSHR (Table 12-3). -/
def execVshr (core : Fin 27648) (v : VSlot) (s : State) : Out := slotRow core { vop := 11, v } s
/-- VCMP (Table 12-3). -/
def execVcmp (core : Fin 27648) (v : VSlot) (s : State) : Out := slotRow core { vop := 12, v } s
/-- VCVT (Table 12-3). -/
def execVcvt (core : Fin 27648) (v : VSlot) (s : State) : Out := slotRow core { vop := 13, v } s
/-- VBCAST (Table 12-3). -/
def execVbcast (core : Fin 27648) (v : VSlot) (s : State) : Out := slotRow core { vop := 14, v } s
/-- VMOVS (Table 12-3). -/
def execVmovs (core : Fin 27648) (v : VSlot) (s : State) : Out := slotRow core { vop := 15, v } s
/-- VPERM (Table 12-3). -/
def execVperm (core : Fin 27648) (v : VSlot) (s : State) : Out := slotRow core { vop := 16, v } s
/-- VCOMPRESS (Table 12-3). -/
def execVcompress (core : Fin 27648) (v : VSlot) (s : State) : Out := slotRow core { vop := 17, v } s
/-- VEXPAND (Table 12-3). -/
def execVexpand (core : Fin 27648) (v : VSlot) (s : State) : Out := slotRow core { vop := 18, v } s
/-- VCPOP (Table 12-3). -/
def execVcpop (core : Fin 27648) (v : VSlot) (s : State) : Out := slotRow core { vop := 19, v } s
/-- VSCAN (Table 12-3). -/
def execVscan (core : Fin 27648) (v : VSlot) (s : State) : Out := slotRow core { vop := 20, v } s
/-- VSEGSCAN (Table 12-3). -/
def execVsegscan (core : Fin 27648) (v : VSlot) (s : State) : Out := slotRow core { vop := 21, v } s
/-- VSCANX (Table 12-3). -/
def execVscanx (core : Fin 27648) (v : VSlot) (s : State) : Out := slotRow core { vop := 22, v } s
/-- VREDUCE (Table 12-3). -/
def execVreduce (core : Fin 27648) (v : VSlot) (s : State) : Out := slotRow core { vop := 23, v } s
/-- VKOP (Table 12-3). -/
def execVkop (core : Fin 27648) (v : VSlot) (s : State) : Out := slotRow core { vop := 24, v } s
/-- VKMOV (Table 12-3). -/
def execVkmov (core : Fin 27648) (v : VSlot) (s : State) : Out := slotRow core { vop := 25, v } s
/-- VMOVK (Table 12-3). -/
def execVmovk (core : Fin 27648) (v : VSlot) (s : State) : Out := slotRow core { vop := 26, v } s

end Sys2Proof.Machine
end

