-- ==== Sys2Proof/Machine/Rows.lean ====
section
/-!
DEFINITION. Replacing rows while serving: staging, generations, commits, epochs and write-back, and the choice of the version that a
row read gets (R251–R261).
-/
namespace Sys2Proof.Machine

/-- LR_STATS of a partition raised: 0 commits, 1 STALE_IGNORED, 2 SUPERSEDED, 3 MEMORY_ERROR, 4 STAGING_WAITS, 5 INDEX_FAULT. -/
def lrStat (s : State) (p k : Nat) : State :=
  { s with rows.stats := sset 0 s.rows.stats (6 * p + k) ((sget 0 s.rows.stats (6 * p + k) + 1) % 2 ^ 64) }

/-! ## Versions of a row (R254, R255) -/

/-- The entry that serves reads of the row at an address: COMMITTED or WRITING, the newest generation. -/
def servingEntry (s : State) (a : Nat) : Option Staged :=
  (s.rows.staged.filter (fun e => decide (e.addr = a) && (decide (e.state = .committed) || decide (e.state = .writing)))).foldl (fun o e => match o with
    | none => some e
    | some f => if f.gen < e.gen then some e else some f) none

/-- The generation of the newest committed version of a row; a header that cannot be read counts as older than any. -/
def currentGen (s : State) (a : Nat) : State × Option Nat :=
  match servingEntry s a with
  | some e => (s, some e.gen)
  | none => match readMem s a 8 with
    | (s1, .ok bs) => (s1, some (leNat bs))
    | (s1, .error _) => (s1, none)

/-- A generation is newer than the current version's (R252). -/
def isNewer (g : Nat) (cur : Option Nat) : Bool :=
  match cur with
  | none => true
  | some c => decide (c < g)

/-- AUX of a MEMORY_ERROR in a staging entry: the home port of its faulty line, from Canopy SRAM (R248, R261). -/
def stagedAux (e : Staged) : Nat := memErrAux (e.addr / 64 + e.bad.getD 0) 1

/-- The version that a row read gets at the row's home die, and where it is served from (R255); poison gives the AUX of MEMORY_ERROR. -/
def chooseVersion (s : State) (a len : Nat) : State × Except Nat (List Byte) × RowSource :=
  match servingEntry s a with
  | some e => (s, if e.bad.isSome then .error (stagedAux e) else .ok e.bytes, .staged e.id)
  | none => match sfind s.thk.prefetch a with
    | some p => (s, (match p.poison with
        | some aux => .error aux
        | none => .ok p.bytes), .prefetch p.id)
    | none =>
      let e := RowSource.epoch (lget 0 s.rows.epoch (homeDie a))
      match sfind s.thk.hot a with
      | some h => (s, if h.poisoned then .error (memErrAux (a / 64) 1) else .ok h.bytes, e)
      | none => match readMem s a len with
        | (s1, r) => (s1, r, e)

/-! ## Staging space (R253) -/

/-- Row lines that an entry takes. -/
def stageLines (a len : Nat) : Nat := (a % 64 + len + 63) / 64

/-- Entries on a die that are not FREE, and the lines they take. -/
def dieEntries (s : State) (d : Nat) : List Staged := s.rows.staged.filter (fun e => decide (homeDie e.addr = d))
def dieLines (s : State) (d : Nat) : Nat := ((dieEntries s d).map (fun e => stageLines e.addr e.bytes.length)).sum

/-- LR_QUOTA of a partition. -/
def lrQuota (s : State) (p : Nat) : Nat := param s 0x4801 1 p

/-- An update can be staged now. -/
def stageFits (s : State) (w : StageWait) : Bool :=
  let d := homeDie w.addr
  decide ((dieEntries s d).length < 4096) && decide (dieLines s d + stageLines w.addr w.len ≤ 126976) &&
  decide (((dieEntries s d).filter (fun e => decide (e.part = w.part))).length < lrQuota s w.part)

/-- A waiting update put in fetch order. -/
def waitInsert (w : StageWait) : List StageWait → List StageWait
  | [] => [w]
  | x :: l => if w.order < x.order then w :: x :: l else x :: waitInsert w l

/-- An entry changed, or freed. -/
def modEntry (s : State) (id : Nat) (f : Staged → Staged) : State :=
  { s with rows.staged := s.rows.staged.map (fun e => if e.id = id then f e else e) }
def freeEntry (s : State) (id : Nat) : State := { s with rows.staged := s.rows.staged.filter (fun e => decide (e.id ≠ id)) }
def entryOf (s : State) (id : Nat) : Option Staged := s.rows.staged.find? (fun e => decide (e.id = id))

/-! ## ROW_UPDATE (R251, R252, R254) -/

/-- The row of an update: the source's with the command's GENERATION in its first 8 bytes. -/
def rowBytes (gen : Nat) (src : List Byte) : List Byte := leBytes 8 gen ++ src.drop 8

/-- An update ignored as not newer. -/
def staleIgnored (s : State) (p r : Nat) (seq : BitVec 64) : State := finish (lrStat s p 1) r seq ⟨stOk, 0, 4⟩

/-- An entry allocated and the source read into it: FILLING; a read error frees the entry and completes the command (R254, R261). -/
def stage (s0 : State) (w : StageWait) (src : HostRead) : State :=
  let s := { s0 with rows.waiting := s0.rows.waiting.filter (fun x => decide (x ≠ w)) }
  match cmdOf s w.ring w.seq with
  | none => s
  | some c => match relocAt c 32 with
    | none => s
    | some b => match srcRead s b (cf c.entry.toNat 43 36) w.len src with
      | (s1, .error aux) => finish (lrStat s1 w.part 3) w.ring w.seq ⟨stMemoryError, aux, 0⟩
      | (s1, .ok bs) =>
        let e : Staged := { id := s1.rows.nextId, part := w.part, slot := w.slot, row := w.row, addr := w.addr, gen := w.gen, bytes := rowBytes w.gen bs,
                            state := .filling, ring := w.ring, seq := w.seq }
        { s1 with rows.staged := s1.rows.staged ++ [e], rows.nextId := s1.rows.nextId + 1 }

/-- ROW_UPDATE: the row number and the generation at intake, then an entry and its fill; the update waits where there is no room for it, or
where earlier updates of its die wait (R253, R254). -/
def execRowUpdate (ring : Fin 4096) (seq : BitVec 64) (src : HostRead) (s : State) : Out :=
  .next (match begin? s ring seq 0x31 with
  | (s1, none) => s1
  | (s1, some c) => match relocAt c 16 with
    | some t =>
      let e := c.entry.toNat
      let td := descAt c 16
      let row := cf e 23 20
      let gen := cf e 31 24
      let a := t.base + row * tdStride td
      if tdRows td ≤ row then finish (lrStat s1 c.part 5) ring seq ⟨stIndexFault, 0, 0⟩
      else match currentGen s1 a with
        | (s2, cur) =>
          if !isNewer gen cur then staleIgnored s2 c.part ring seq
          else
            let w : StageWait := { ring, seq, part := c.part, slot := t.object, row, addr := a, gen, len := tdStride td, order := c.order }
            let s3 := modCmd s2 ring seq (fun z => { z with begun := true })
            if stageFits s3 w && !s3.rows.waiting.any (fun x => decide (homeDie x.addr = homeDie a)) then stage s3 w src
            else lrStat { s3 with rows.waiting := waitInsert w s3.rows.waiting } c.part 4
    | _ => s1)

/-- STAGING_ALLOCATE: the update of a die that has waited longest in fetch order takes its entry, once there is room for it (R253). -/
def execStagingAllocate (at_ : StageFill) (s : State) : Out :=
  .next (match s.rows.waiting.find? (fun w => decide (homeDie w.addr = at_.die.val)) with
  | some w => if stageFits s w then stage s w at_.src else s
  | none => s)

/-- Prefetch entries of a row discarded (R224): counted in PF_STATS. -/
def discardPrefetch (s : State) (a : Nat) : State :=
  match sfind s.thk.prefetch a with
  | none => s
  | some p => { s with thk.prefetch := sdel s.thk.prefetch a, thk.pfStats := sset 0 s.thk.pfStats (4 * p.part + 2) (sget 0 s.thk.pfStats (4 * p.part + 2) + 1) }

/-- The commit of a FILLING entry (Table 16-2, cycle 1). -/
def commitEntry (s : State) (e : Staged) : State :=
  let d := homeDie e.addr
  let old := s.rows.staged.filter (fun x => decide (x.addr = e.addr) && decide (x.state = .committed))
  let s1 := { s with rows.staged := s.rows.staged.map (fun x =>
    if x.id = e.id then { x with state := .committed, tag := lget 0 s.rows.epoch d }
    else if x.addr = e.addr ∧ x.state = .committed then { x with state := .superseded } else x) }
  let s2 := old.foldl (fun s x => lrStat s x.part 2) s1
  countD (lrStat (discardPrefetch s2 e.addr) e.part 0) d 0x49 1

/-- ROW_COMMIT: the filled entry of an update commits, or ends as stale or with a MEMORY_ERROR (R254, R261). -/
def execRowCommit (ring : Fin 4096) (seq : BitVec 64) (s : State) : Out :=
  .next (match s.rows.staged.find? (fun e => decide (e.ring = ring.val) && decide (e.seq = seq) && decide (e.state = .filling)) with
  | none => s
  | some e =>
    if e.bad.isSome then finish (lrStat (freeEntry s e.id) e.part 3) ring seq ⟨stMemoryError, stagedAux e, 0⟩
    else match currentGen s e.addr with
      | (s1, cur) =>
        if !isNewer e.gen cur then staleIgnored (freeEntry s1 e.id) e.part ring seq
        else finish (commitEntry s1 e) ring seq ⟨stOk, 0, 0⟩)

/-! ## Epochs and write-back (R256, R257) -/

/-- Reads registered in an epoch of a die. -/
def epochReaders (s : State) (d e : Nat) : Nat := sget 0 s.rows.readers (8 * d + e)

/-- EPOCH_ADVANCE: the current epoch moves on when an entry tagged with it awaits write-back and the next epoch is closed; when it is
not closed, the advance waits and is counted. -/
def execEpochAdvance (die : Fin 6) (s : State) : Out :=
  let e := lget 0 s.rows.epoch die
  let n := (e + 1) % 8
  .next (if !(dieEntries s die).any (fun x => decide (x.state = .committed) && decide (x.tag = e)) then s
  else if epochReaders s die n = 0 then { s with rows.epoch := lset s.rows.epoch die n }
  else countD { s with rows.stalls := s.rows.stalls + 1 } die 0x4A 1)

/-- Epoch T of a die and every epoch opened before it are closed. -/
def closedUpTo (s : State) (d t : Nat) : Bool :=
  let e := lget 0 s.rows.epoch d
  decide (t ≠ e) && (List.range ((t + 8 - e) % 8)).all (fun k => decide (epochReaders s d ((e + 1 + k) % 8) = 0))

/-- WRITE_BACK_START: a COMMITTED entry begins write-back once its epoch and every earlier one are closed, and no older write-back of
the row runs. -/
def execWriteBackStart (ent : Nat) (s : State) : Out :=
  .next (match entryOf s ent with
  | none => s
  | some e =>
    if e.state = .committed ∧ closedUpTo s (homeDie e.addr) e.tag ∧
      !s.rows.staged.any (fun x => decide (x.addr = e.addr) && decide (x.state = .writing))
    then modEntry s ent (fun x => { x with state := .writing }) else s)

/-- A row's bytes written home: the lines that it covers whole lose their poison, or all take the poison code when the entry is bad; the hot
copy follows (R248, R257, R261). -/
def writeRow (s : State) (e : Staged) : State :=
  let lines := linesOf e.addr e.bytes.length
  let s1 := writeMem s e.addr e.bytes
  let s2 := if e.bad.isSome then { s1 with mem.poison := lines.foldl (fun m l => sput m l 1) s1.mem.poison } else s1
  { s2 with thk.hot := smod s2.thk.hot e.addr (fun h => { h with bytes := e.bytes, poisoned := e.bad.isSome }) }

/-- WRITE_BACK_DONE: both writes are done; the entry is RELEASING. -/
def execWriteBackDone (ent : Nat) (s : State) : Out :=
  .next (match entryOf s ent with
  | none => s
  | some e => if e.state = .writing then modEntry (writeRow s e) ent (fun x => { x with state := .releasing }) else s)

/-- ENTRY_RELEASE: a RELEASING or SUPERSEDED entry without readers is freed. -/
def execEntryRelease (ent : Nat) (s : State) : Out :=
  .next (match entryOf s ent with
  | none => s
  | some e => if (e.state = .releasing ∨ e.state = .superseded) ∧ e.refs = 0 then freeEntry s ent else s)

/-! ## Resets (R260) -/

/-- FILLING entries and waiting updates of the partitions that a test selects discarded. -/
def discardFilling (s : State) (sel : Nat → Bool) : State :=
  { s with rows.staged := s.rows.staged.filter (fun e => !(sel e.part && decide (e.state = .filling))),
           rows.waiting := s.rows.waiting.filter (fun w => !sel w.part) }

/-- Every committed row written back in order of generation, as the flush of a warm reset does (Table 7-5); staging is empty after. -/
def flushStaging (s : State) : State :=
  let l := (discardFilling s (fun _ => true)).rows.staged
  let s1 := l.foldl (fun s e => if e.state = .committed ∨ e.state = .writing then (if (servingEntry s e.addr).any (fun x => decide (x.id = e.id)) then writeRow s e else s) else s) s
  { s1 with rows.staged := [], rows.waiting := [], rows.readers := [], rows.reads := [] }

/-- A committed row awaits write-back (R102). -/
def rowsPending (s : State) : Bool := s.rows.staged.any (fun e => decide (e.state = .committed) || decide (e.state = .writing))

end Sys2Proof.Machine
end

