-- ==== Sys2Proof/Machine/Lpddr.lean ====
section
/-!
DEFINITION. The LPDDR5X side of the memory ports, errors in LPDDR and in slice SRAM, scrub, CANOPY nodes, BAR2 and bank maps (R229,
R232, R241–R250, R313, R320).
-/
namespace Sys2Proof.Machine

/-! ## Ports -/

/-- Places of a slot: rank of a channel, bank, cell. -/
def rankKey (m : MSlot) : Nat := 2 * m.ch + m.rank
def bankKey (m : MSlot) : Nat := 16 * rankKey m + m.bank
def cellKey (m : MSlot) (row : Nat) : Nat := bankKey m * 2 ^ 24 + 64 * row + m.col.toNat

/-- Z after POLL: refresh, RFM and retune due and a request for self-refresh are known to the port; its queues are not, and their events are
open. -/
def pollMem (s : State) (x : MPort) (m : MSlot) (fr : Nat) : Bool :=
  match m.poll.toNat with
  | 0 => x.z
  | 3 => decide (Config.refreshInterval x.refreshRate ≤ s.time.clock - x.refreshedAt)
  | 4 => decide (x.rfmAt ≠ 0) && decide (x.rfmAt ≤ sget 0 x.activations (bankKey m))
  | 6 => decide (5 < sget 0 x.drift m.ch)
  | 7 => decide (s.power.lpddrSleep ≠ 0)
  | _ => bitOf fr 0

/-- The operands of a word: its own, or with QSEL 1 to 3 those at the head of a queue or of the refresh scheduler, which are open. -/
def operandsOf (m : MSlot) (fr : Nat) : MSlot :=
  if m.qsel = 0 then m
  else { m with rank := Fin.ofNat 2 (bitAt (bitOf fr 0) 0), bank := Fin.ofNat 16 (field fr 4 1), row := BitVec.ofNat 18 (field fr 22 5), col := BitVec.ofNat 6 (field fr 28 23) }

/-- A reserved MCMD, QSEL or POLL (Table 15-8). -/
def memBadWord (cmd : Nat) (m : MSlot) : Bool := decide (21 < cmd) || decide (3 < m.qsel.toNat) || decide (7 < m.poll.toNat)

/-- The row that a bank has open; the cell under a column; a cell that the sequencer has not written holds what the sequencer image's
own layout put there, which is open. -/
def openCell (x : MPort) (m : MSlot) (fr : Nat) : Line :=
  match sfind x.openRow (bankKey m) with
  | some r => (sfind x.cells (cellKey m r)).getD (BitVec.ofNat 512 fr)
  | none => BitVec.ofNat 512 fr

/-- A column written under a byte mask (1 keeps the byte); without an open row nothing is written. -/
def writeCell (x : MPort) (m : MSlot) (data : Line) (mask : Nat) (fr : Nat) : MPort :=
  match sfind x.openRow (bankKey m) with
  | none => x
  | some r =>
    let old := leBytes 64 (openCell x m fr).toNat
    let new := leBytes 64 data.toNat
    let l := (List.range 64).map (fun i => if bitOf mask i then lget 0 old i else lget 0 new i)
    { x with cells := sput x.cells (cellKey m r) (BitVec.ofNat 512 (leNat l)) }

/-- The line that a cell holds is chosen by the sequencer image and open: some line of the port (R231). -/
def cellLine (s : State) (port : Nat) : Nat :=
  let fr := Config.openByte port s.free
  let g := fr % Nat.max 1 (usable s / 12288)
  4 * (48 * g + (port + 48 - (g * 0x9E3779B1 % 2 ^ 32) % 48) % 48) + fr % 4

/-- What a command does to its port (Table 15-8), with the data and mask of a write; `fr` gives what no rule states: cells that the sequencer
has not written, the pattern of RDC, an empty FIFO. -/
def mcmd (cmd : Nat) (m : MSlot) (data : Line) (mask fr clock : Nat) (x : MPort) : MPort :=
  match cmd with
  | 1 => { x with openRow := sput x.openRow (bankKey m) m.row.toNat, activations := sset 0 x.activations (bankKey m) (sget 0 x.activations (bankKey m) + 1) }
  | 2 => { x with readData := openCell x m fr }
  | 3 => writeCell x m data 0 fr
  | 4 => writeCell x m data mask fr
  | 5 => { x with openRow := sdel x.openRow (bankKey m) }
  | 6 => { x with openRow := x.openRow.filter (fun q => decide (q.1 / 16 ≠ rankKey m)) }
  | 7 => { x with refreshed := x.refreshed + 1, refreshedAt := clock }
  | 8 => { x with refreshed := x.refreshed + 16, refreshedAt := clock }
  | 9 => { x with activations := sdel x.activations (bankKey m) }
  | 10 => { x with modeRegs := sset 0 x.modeRegs (256 * rankKey m + field m.imm.toNat 15 8) (field m.imm.toNat 7 0) }
  | 11 => { x with readData := BitVec.ofNat 512 (sget 0 x.modeRegs (256 * rankKey m + field m.imm.toNat 15 8)) }
  | 12 => { x with selfRefresh := insertNat x.selfRefresh (rankKey m), wckSynced := x.wckSynced.filter (· ≠ rankKey m) }
  | 13 => { x with selfRefresh := x.selfRefresh.filter (· ≠ rankKey m), wckSynced := insertNat x.wckSynced (rankKey m) }
  | 14 => { x with powerDown := insertNat x.powerDown (rankKey m) }
  | 15 => { x with powerDown := x.powerDown.filter (· ≠ rankKey m) }
  | 16 => { x with wckSynced := insertNat x.wckSynced (rankKey m) }
  | 17 => { x with zqLatched := true }
  | 18 => { x with readData := BitVec.ofNat 512 fr }
  | 19 => { x with fifo := x.fifo ++ [data] }
  | 20 => (match x.fifo with
    | d :: l => { x with readData := d, fifo := l }
    | [] => { x with readData := BitVec.ofNat 512 fr })
  | 21 => { x with lastMpc := m.imm.toNat }
  | _ => x

/-- What a command counts besides (Table 21-3): line reads, with their ECC check, and line writes. -/
def mcmdCounts (cmd port : Nat) (ecc : Ecc) (s : State) : State :=
  match cmd with
  | 2 => countE (countD (eccResult s port (cellLine s port) (if s.mem.eccOn then ecc else .clean)) (port / 8) 0x4D 1) 2 port 0 1
  | 3 | 4 => countE (countD s (port / 8) 0x4E 1) 2 port 1 1
  | _ => s

/-- A reserved encoding faults the port, which is fenced, and its program stops (R246, R307). -/
def portFault (s : State) (port : Nat) : State :=
  hardFault (modMPort s port (fun x => { x with seq.running := false })) (unitPort port) 0x20

/-- A word of a memory sequencer (R172, R175, R246): its command acts at cycle 0, POLL sets Z, NEXT is taken at its end. -/
def memWord (port cmd : Nat) (m0 : MSlot) (data : Line) (mask : Nat) (ecc : Ecc) (s : State) : State :=
  if memBadWord cmd m0 then portFault s port
  else
    let fr := Config.freeBits s.free
    let m := operandsOf m0 (fr / 2 ^ 520)
    let s1 := mcmdCounts cmd port ecc s
    let s2 := modMPort { s1 with free := s1.free + 1 } port (fun x =>
      let y := mcmd cmd m data mask fr s.time.clock x
      { y with z := pollMem s y m (fr / 2 ^ 512) })
    match pacedNext 2 (mport s2 port).seq (mport s2 port).z m.next m.target.toNat with
    | none => portFault s2 port
    | some q => modMPort s2 port (fun x => { x with seq := q })

/-- The engine fields and NEXT of a word of control store 2, with its MCMD. -/
def memFields (b : BitVec 256) : Nat × MSlot :=
  let w := b.toNat
  (field w 223 216,
   { ch := Fin.ofNat 4 (field w 215 214), rank := Fin.ofNat 2 (field w 213 213), bank := Fin.ofNat 16 (field w 211 208),
     row := BitVec.ofNat 18 (field w 207 190), col := BitVec.ofNat 6 (field w 189 184), qsel := BitVec.ofNat 8 (field w 183 176),
     poll := BitVec.ofNat 8 (field w 175 168), imm := BitVec.ofNat 64 (field w 63 0),
     len := Fin.ofNat 16 (field w 253 250), next := Fin.ofNat 16 (field w 249 246), target := BitVec.ofNat 14 (field w 245 232) })

/-- A running memory sequencer fetches a word and runs it; the data of its writes come from the write queue and are open. -/
def memStep (s : State) (port : Nat) : State :=
  if !(mport s port).seq.running then s
  else
    let (b, q) := pacedFetch s 2 port (mport s port).seq
    let (cmd, m) := memFields b
    let fr := Config.freeBits s.free
    memWord port cmd m (BitVec.ofNat 512 fr) (fr / 2 ^ 512 % 2 ^ 64) .clean { modMPort s port (fun x => { x with seq := q }) with free := s.free + 1 }

/-- A word with a command that takes no data. -/
def plainWord (port cmd : Nat) (m : MSlot) (s : State) : Out := .next (memWord port cmd m 0 0 .clean s)

/-- DESELECT: nothing happens on the channel. -/
def execDeselect (port : Fin 48) (m : MSlot) (s : State) : Out := plainWord port 0 m s
/-- ACT: the bank opens a row; activations are counted for refresh management (R244). -/
def execAct (port : Fin 48) (m : MSlot) (s : State) : Out := plainWord port 1 m s
/-- PRE: the bank closes. -/
def execPre (port : Fin 48) (m : MSlot) (s : State) : Out := plainWord port 5 m s
/-- PREA: every bank of the rank closes. -/
def execPrea (port : Fin 48) (m : MSlot) (s : State) : Out := plainWord port 6 m s
/-- REFPB: one bank is refreshed. -/
def execRefpb (port : Fin 48) (m : MSlot) (s : State) : Out := plainWord port 7 m s
/-- REFAB: every bank of the rank is refreshed. -/
def execRefab (port : Fin 48) (m : MSlot) (s : State) : Out := plainWord port 8 m s
/-- RFM: the bank's activations start again (R244). -/
def execRfm (port : Fin 48) (m : MSlot) (s : State) : Out := plainWord port 9 m s
/-- MRW: a mode register takes the data of IMM: address in bits 15:8, data in bits 7:0. -/
def execMrw (port : Fin 48) (m : MSlot) (s : State) : Out := plainWord port 10 m s
/-- MRR: a mode register is read. -/
def execMrr (port : Fin 48) (m : MSlot) (s : State) : Out := plainWord port 11 m s
/-- SRE: the rank enters self-refresh; WCK is lost (R245). -/
def execSre (port : Fin 48) (m : MSlot) (s : State) : Out := plainWord port 12 m s
/-- SRX: the rank leaves self-refresh and WCK is resynchronised (R245). -/
def execSrx (port : Fin 48) (m : MSlot) (s : State) : Out := plainWord port 13 m s
/-- PDE: the rank enters power-down. -/
def execPde (port : Fin 48) (m : MSlot) (s : State) : Out := plainWord port 14 m s
/-- PDX: the rank leaves power-down. -/
def execPdx (port : Fin 48) (m : MSlot) (s : State) : Out := plainWord port 15 m s
/-- CAS_WS: WCK2CK synchronisation of the rank. -/
def execCasWs (port : Fin 48) (m : MSlot) (s : State) : Out := plainWord port 16 m s
/-- ZQ latch. -/
def execZqLatch (port : Fin 48) (m : MSlot) (s : State) : Out := plainWord port 17 m s
/-- RDC: read DQ calibration brings a pattern of the package, which the spec does not state. -/
def execRdc (port : Fin 48) (m : MSlot) (s : State) : Out := plainWord port 18 m s
/-- RFF: the oldest line of the FIFO is read; an empty FIFO brings open data. -/
def execRff (port : Fin 48) (m : MSlot) (s : State) : Out := plainWord port 20 m s
/-- MPC: a multi-purpose command with its opcode in IMM. -/
def execMpc (port : Fin 48) (m : MSlot) (s : State) : Out := plainWord port 21 m s
/-- RD32: a column is read; its ECC check is counted, and an uncorrectable error poisons its line (R248). -/
def execRd32 (port : Fin 48) (m : MSlot) (ecc : Ecc) (s : State) : Out := .next (memWord port 2 m 0 0 ecc s)
/-- WFF: a line enters the package's FIFO. -/
def execWff (port : Fin 48) (m : MSlot) (data : BitVec 512) (s : State) : Out := .next (memWord port 19 m data 0 .clean s)
/-- WR32. -/
def execWr32 (port : Fin 48) (m : MSlot) (data : BitVec 512) (s : State) : Out := .next (memWord port 3 m data 0 .clean s)
/-- MWR32: a write that leaves the bytes of the mask. -/
def execMwr32 (port : Fin 48) (m : MSlot) (data : BitVec 512) (mask : BitVec 64) (s : State) : Out := .next (memWord port 4 m data mask.toNat .clean s)

/-! ## Errors (R248–R250) -/

/-- The outcome of a check that reads a line's cells: the one that is given, or else what the cells hold. -/
def checkOf (s : State) (line : Nat) (e : Ecc) : Ecc := if e = .clean then (sfind s.mem.latent line).getD .clean else e

/-- PATROL_SCRUB: a line of the port is read and, with INLINE_ECC in force, checked (R247, R249). -/
def execPatrolScrub (port : Fin 48) (line : BitVec 42) (ecc : Ecc) (s : State) : Out :=
  .next (if dparam s 0x4003 1 = 0 ∨ !s.mem.eccOn ∨ portOf (64 * line.toNat) ≠ port.val ∨ usable s ≤ 64 * line.toNat then s else eccResult s port line.toNat (checkOf s line.toNat ecc))

/-- REFRESH_RATE_READ: the packages' report sets the refresh interval and the RFM threshold (R244). -/
def execRefreshRateRead (port : Fin 48) (report : BitVec 8) (rfmAt : Nat) (s : State) : Out :=
  .next (modMPort s port (fun x => { x with refreshRate := report.toNat, rfmAt }))

/-- OSCILLATOR_CHECK of a channel: drift above 5 % of a unit interval is retuned; a retune that fails is a hard fault of the port (R244, Table 19-3). -/
def execOscillatorCheck (port : Fin 48) (ch : Fin 4) (driftPct : Nat) (retuneOk : Bool) (s : State) : Out :=
  let s1 := modMPort s port (fun x => { x with drift := sset 0 x.drift ch (if 5 < driftPct ∧ retuneOk then 0 else driftPct) })
  .next (if 5 < driftPct ∧ !retuneOk then hardFault s1 (unitPort port) 0x21 else s1)

/-- A bank's corrected errors within one hour: the 256th is a strike (Table 19-3). -/
def bankCorrected (s : State) (die bank : Nat) : State :=
  let k := 50 * die + bank
  let (h, n) := sget (0, 0) s.canopy.bankHour k
  let hour := s.time.dev / 3600000000000
  let n1 := if h = hour then n + 1 else 1
  let s1 := { s with canopy.bankHour := sput s.canopy.bankHour k (hour, n1 % 256), canopy.corrected := sset 0 s.canopy.corrected die (sget 0 s.canopy.corrected die + 1) }
  let s2 := countD s1 die 0x4F 1
  if n1 = 256 then strike s2 (unitBank die bank) 0x10 else s2

/-- An uncorrectable slice error: SLICE_STATUS, the slice event, and a strike for the bank (R250, Table 19-3). -/
def sliceUe (s : State) (die bank : Nat) : State :=
  strike (raise { s with canopy.uncorrected := sset 0 s.canopy.uncorrected die (sget 0 s.canopy.uncorrected die + 1) } (0x080 + die)) (unitBank die bank) 0x11

/-- What an uncorrectable error does where it lies (R250, R261, R320). -/
def sliceHit (s : State) (at_ : SliceLoc) : State :=
  match at_ with
  | .line a dirty =>
    let l := a.toNat / 64
    (match sfind s.canopy.lines l with
      | none => s
      | some c => if dirty && c.dirty then poisonLine s l 1 else { snoopInvalidate s l with canopy.lines := sdel (snoopInvalidate s l).canopy.lines l })
  | .stand n =>
    (match standOf s n with
      | none => s
      | some _ => closeStand (dropStep s n ⟨stUnitFault, faultAux 0x42 1023 0, 0⟩) n)
  | .staging ent line => (match entryOf s ent with
      | none => s
      | some e =>
        if stageLines e.addr e.bytes.length ≤ line then s
        else
          let s1 := modEntry s ent (fun x => { x with bad := some (x.bad.getD line) })
          if e.state = .committed ∨ e.state = .writing then
            lrStat { s1 with thk.prefetch := smod s1.thk.prefetch e.addr (fun f => { f with poison := some (stagedAux { e with bad := some (e.bad.getD line) }) }) } e.part 3
          else s1)
  | .hot a => { s with thk.hot := sdel s.thk.hot a.toNat }

/-- The location lies in a reserved region. -/
def isReservedLoc (l : SliceLoc) : Bool :=
  match l with
  | .line _ _ => false
  | _ => true

/-- SLICE_ECC_ERROR: a corrected error is counted; an uncorrectable one is handled by where it lies (R250). -/
def execSliceEccError (die : Fin 6) (bank : Fin 50) (at_ : SliceLoc) (ue : Bool) (s : State) : Out :=
  .next (if !(activeBanks s die).contains bank.val then s
  else if !ue then bankCorrected s die bank
  else
    let s1 := sliceHit (sliceUe s die bank) at_
    if isReservedLoc at_ then raise s1 0x026 else s1)

/-- RESERVED_UE: an uncorrectable error in a reserved region (R320). -/
def execReservedUe (die : Fin 6) (bank : Fin 50) (at_ : SliceLoc) (s : State) : Out :=
  .next (if isReservedLoc at_ ∧ (activeBanks s die).contains bank.val then raise (sliceHit (sliceUe s die bank) at_) 0x026 else s)

/-- DIR_EPOCH_FLIP: the waiting banks of a die become active, up to 48, once the transactions under the old map are done (R313). -/
def execDirEpochFlip (die : Fin 6) (s : State) : Out :=
  let mine := s.canopy.flipWait.filter (fun b => decide (b / 50 = die.val))
  .next (if mine.isEmpty ∨ !s.canopy.homes.isEmpty then s
  else { s with canopy.flipWait := s.canopy.flipWait.filter (fun b => decide (b / 50 ≠ die.val)),
                canopy.active := sput s.canopy.active die (mine.foldl (fun l b => if l.length < 48 then insertNat l (b % 50) else l) (activeBanks s die)) })

/-! ## CANOPY nodes (R241) -/

/-- The groups of 32 bytes of a CANOPY task reduced one by one. -/
def reduceAll (code src dst : Nat) : Nat → Nat → State → State × Option Nat
  | 0, _, s => (s, none)
  | n + 1, k, s => match readMem s (src + 32 * k) 32 with
    | (s1, .error aux) => (s1, some aux)
    | (s1, .ok bs) => match performAtom s1 code (dst + 32 * k) (leNat bs) 0 with
      | (s2, .error aux) => (s2, some aux)
      | (s2, .ok _) => reduceAll code src dst n (k + 1) s2

/-- The firing of a node whose one task waits at a slice, with confirmed inputs. -/
def sliceTask (y : Node) : Option Firing :=
  y.firings.find? (fun f => inputsConfirmed f && f.tasks.any (fun t => match t.place with
    | .slice _ => true
    | _ => false))

/-- A one-task firing retires and emits its token. -/
def retireSingle (s : State) (i n k : Nat) (data : Nat → BitVec 128) : State :=
  emit (modTask s i n k 0 (fun t => { t with place := .retired })) i n k data

/-- CANOPY_TASK (R241). -/
def execCanopyTask (ins : Fin 16384) (node : Fin 4096) (s : State) : Out :=
  .next (match instOf s ins with
  | none => s
  | some x => match nodeOf x node with
    | none => s
    | some y => if y.ent.kind ≠ 3 then s else match sliceTask y with
      | none => s
      | some f =>
        let stop (cause : Nat) : State := freezeInst s ins stUnitFault (faultAux cause 1023 0) true .fault
        let d := (f.taken.headD { data := 0, node := 0, firing := 0, out := 0 }).data.toNat
        let src := field d 47 0
        let len := field d 95 64
        let code := field d 103 96
        match y.operand with
        | none => stop 0x01
        | some h =>
          let dst := h.base + y.ent.opOff
          if code < 0x20 ∨ 0x25 < code ∨ y.ent.opLen < len ∨ len % 32 ≠ 0 then stop 0x01
          else if !inPartMem s x.part src len || decide (field d 63 48 ≠ 0) then stop 0x04
          else if src % 32 ≠ 0 ∨ dst % 32 ≠ 0 then stop 0x05
          else match reduceAll code src dst (len / 32) 0 s with
            | (s1, some aux) => freezeInst s1 ins stMemoryError aux true .fault
            | (s1, none) => retireSingle s1 ins node f.num (fun _ => BitVec.ofNat 128 len))

/-! ## BAR2 (R232, R233, R248) -/

/-- The device address of a BAR2 offset, and how many bytes from it on are mapped. -/
def bar2Map (s : State) (port fn off : Nat) : Nat × Nat :=
  if fn = 0 then
    let a := 2 ^ 28 * dparam s 0x4008 (port + 1) + off
    if off < lget 256 s.pcie.bar2 port * 2 ^ 20 then (a, generalEnd s - a) else (a, 0)
  else match partOfVf s port fn with
    | some p => if off < lget 256 s.pcie.vfBar2 port * 2 ^ 20 ∧ fn ≤ lget 0 s.pcie.vfs port then (partBase s p + off, partSize s p - off) else (0, 0)
    | none => (0, 0)

/-- The bytes that a BAR2 read returns: all ones in poisoned lines, 0 where nothing is mapped; whether a poisoned line was covered. -/
def bar2Bytes (s : State) (a n : Nat) : State × List Byte × Bool :=
  let s1 := (linesOf a n).foldl (fun s l => lookLine (snoopShared s l) l) s
  (s1, (List.range n).map (fun i => if (poisonOf s1 ((a + i) / 64)).isSome then 255 else memByte s1.mem.bytes (a + i)),
    (linesOf a n).any (fun l => (poisonOf s1 l).isSome))

/-- BAR2_ACCESS; before stage 6 completes reads return 0 and writes are discarded (R109). -/
def execBar2Access (port : Fin 2) (fn : Fin 73) (off : BitVec 41) (acc : BarOp) (s : State) : Out :=
  .next (if !lget false s.boot.hostL0 port || s.power.intakeStopped then s
  else if s.boot.stage < 6 then (match acc with
    | .read len => { s with pcie.bar2Read := List.replicate len.toNat 0 }
    | .write _ => s)
  else
    let (a, room) := bar2Map s port fn off.toNat
    match acc with
    | .read len =>
      let n := Nat.min len.toNat room
      let (s1, bs, bad) := bar2Bytes s a n
      { s1 with pcie.bar2Read := bytesAt bs 0 len.toNat, pcie.aer := if bad then lset s1.pcie.aer port (lget 0 s1.pcie.aer port + 1) else s1.pcie.aer }
    | .write d => if (d.take room).isEmpty then s else writeMem s a (d.take room))

end Sys2Proof.Machine
end

