-- ==== Sys2Proof/Machine/FabricPorts.lean ====
section
/-!
DEFINITION. Fabric ports and the ends of this device's operations: training, flits received, replay, LINK_LOST, timers, discovery, the
manager's election and fabric time (R142, R263–R274, R277, R279, R282, R283, R303).
-/
namespace Sys2Proof.Machine

/-! ## Ends of operations -/

/-- An entry of the ticket store is freed once every destination is done; its ticket is live no longer (R301, R303). -/
def freeEntries (s : State) : State :=
  let keep := s.fb.store.filter (fun e => !(decide (e.resolved ≠ 0) && e.dests.all (fun d => decide (d.state = 1))))
  { s with fb.store := keep,
           fb.tickets := s.fb.tickets.filter (fun t => decide (t.resolved = 0) || keep.any (fun e => decide (e.ticket = t.num))) }

/-- A destination of the entries of a ticket given a state. -/
def setDest (s : State) (ticket dest st : Nat) : State :=
  freeEntries { s with fb.store := s.fb.store.map (fun e => if e.ticket = ticket then
    { e with dests := e.dests.map (fun d => if d.dest = dest then { d with state := st } else d) } else e) }

/-- A CONFIRM or RETRACT of a ticket is answered (R303): an entry confirmed is done at OK, and gets a correction at TIMEOUT; one retracted
waits for its correction, unless its instance is gone. -/
def ticketAnswered (s : State) (status dest ticket : Nat) : State :=
  s.fb.store.foldl (fun s e =>
    if e.ticket ≠ ticket then s
    else if e.resolved = 1 ∧ status = stTimeout then sendCorrection s e dest
    else if e.resolved = 1 ∨ (e.resolved = 2 ∧ e.ins.isNone) ∨ status ≠ stOk then setDest s ticket dest 1 else s) s

/-- A retry of a DISC relay, or its first sending: by the first port of its route when that port is UP (R270). -/
def sendDisc (s : State) (o : OutOp) : Option State :=
  let p := field o.arg 3 0
  let hops := o.arg / 2 ^ 64
  let rest := (List.range (hops - 1)).map (fun i => field (o.arg % 2 ^ 64) (4 * (i + 1) + 3) (4 * (i + 1)))
  if (fport s p).state = 2 ∧ hops ≤ dparam s 0x5001 4 then
    some (sendDiscFlit s p (.disc p rest [] s.fuses.serial.toNat o.oseq.toNat o.data) o.oseq.toNat)
  else none

/-- The commands an instance runs for, changed. -/
def modOwners (s : State) (i : Nat) (f : Cmd → Cmd) : State :=
  match instOf s i with
  | none => s
  | some x => match x.owner with
    | .run r q => modCmd s r q f
    | .list p => ((sfind s.stands.lists p).elim [] (·.stands)).foldl (fun s n => match standOf s n with
      | some x => modCmd s x.ring x.stepSeq f
      | none => s) s

/-- An operation of an instance ends without OK: the instance freezes; its commands have issued to the fabric (R142, R280, R323). -/
def failInst (s : State) (i status : Nat) : State :=
  freezeInst (modOwners s i (fun c => { c with overFabric := true })) i status 0 false .plain

/-- What the end of an operation does for the one that issued it (R138, R142, R156, R270, R279, R280, R293, R303). -/
def opEnded (s0 : State) (o : OutOp) (status : Nat) (value : List Byte) : State :=
  let s1 := startOps (dropOp s0 o) o.dest
  let s := match o.owner with
    | .token i _ => if o.resent then modOwners s1 i (fun c => { c with resent := true }) else s1
    | .copy i _ _ _ _ => if o.resent then modOwners s1 i (fun c => { c with resent := true }) else s1
    | _ => s1
  match o.owner with
  | .cmd r q => finish (modCmd s r q (fun c => { c with resent := c.resent || o.resent })) r q
      ⟨status, if status = stOk ∧ o.opc = 0x01 then leAt value 0 4 else 0, 0⟩
  | .token i _ => if status = stOk then modInst s i (fun x => { x with remote := x.remote - 1 }) else failInst s i status
  | .copy i n k a total =>
    if (firingOf s i n k).isNone then s
    else if status ≠ stOk then failInst s i status
    else
      let s1 := if o.opc = 0x05 then writeMem s a value else s
      let more := s1.fab.out.any (fun z => match z.owner with
        | .copy j m l _ _ => decide (j = i) && decide (m = n) && decide (l = k)
        | _ => false)
      if more then s1 else retireSingle s1 i n k (fun _ => BitVec.ofNat 128 total)
  | .relay =>
    if status = stUnreachable then { s with fab.rspState := 3 }
    else if status = stTimeout then { s with fab.rspState := 4 }
    else { s with fab.rspState := 2, fab.rspHead := leAt value 0 12, fab.rspValue := leNat (value.drop 12) }
  | .ticket ts => ts.foldl (fun s t => ticketAnswered s status o.dest t) s
  | .correction t out =>
    let s1 := setDest s t o.dest 1
    (match (s.fb.store.find? (fun e => decide (e.ticket = t) && decide (e.out = out) && decide (e.resolved = 3))).bind (·.ins) with
      | some i => modInst s1 i (fun x => { x with remote := x.remote - 1 })
      | none => s1)
  | .other => s

/-- Operations to a destination that still wait for its PROBE end with a status. -/
def failWaiting (s : State) (d status : Nat) : State :=
  (s.fab.out.filter (fun o => decide (o.dest = d) && !o.sent)).foldl (fun s o => opEnded s o status []) s

/-- An operation given up with a status; with a PROBE, everything that waits for its answer (R142, R277). -/
def giveUpOp (s : State) (o : OutOp) (status : Nat) : State :=
  let s1 := opEnded s o status []
  if o.opc = 0x0D then failWaiting s1 o.dest status else s1

/-- What a resend leaves: RESENT of the operation, and E2E_RESENDS. -/
def markResent (s : State) (o : OutOp) : State :=
  { s with fab.out := s.fab.out.map (fun x => if x = o then { o with resent := true } else x), trail.e2eResends := s.trail.e2eResends + 1 }

/-- An operation resent with its sequence number, or ended with UNREACHABLE where no route is left (R142). -/
def resendOp (s : State) (o : OutOp) : State :=
  if o.dest = 0 then (match sendDisc (markResent s o) o with
    | some s1 => s1
    | none => giveUpOp s o stUnreachable)
  else if hasRoute s o.dest then sendFlits (markResent s o) o.dest o.oseq.toNat o.opc o.part o.arg o.ticket o.prov o.data
  else giveUpOp s o stUnreachable

/-- An operation meets a LINK_LOST, or an ANSWER with TRANSIT (R142, R272): rerouted and resent, UNREACHABLE at the fifth. -/
def opLost (s : State) (o : OutOp) : State :=
  let o1 := { o with lost := o.lost + 1 }
  let s1 := { s with fab.out := s.fab.out.map (fun x => if x = o then o1 else x) }
  if 5 ≤ o1.lost then giveUpOp s1 o1 stUnreachable else resendOp s1 o1

/-- OP_TIMEOUT_EXPIRY (R142): the first expiry resends once, the second ends the operation with TIMEOUT. -/
def execOpTimeoutExpiry (dest : BitVec 16) (oseq : BitVec 64) (s : State) : Out :=
  .next (match outOpOf s dest.toNat oseq with
  | none => s
  | some o =>
    if !o.sent || o.parked then s
    else if o.expired = 0 then
      let o1 := { o with expired := 1 }
      resendOp { s with fab.out := s.fab.out.map (fun x => if x = o then o1 else x) } o1
    else giveUpOp s o stTimeout)

/-- A parked TOKEN is sent again with the same sequence number; that is no resend (R279). -/
def unpark (s : State) (o : OutOp) : State :=
  let s1 := { s with fab.out := s.fab.out.map (fun x => if x = o then { o with parked := false } else x) }
  if hasRoute s o.dest then sendFlits s1 o.dest o.oseq.toNat o.opc o.part o.arg o.ticket o.prov o.data
  else opEnded s1 { o with parked := false } stUnreachable []

/-- TOKEN_RETRY: 50 µs after a RING_FULL answer (R279). -/
def execTokenRetry (dest : BitVec 16) (oseq : BitVec 64) (s : State) : Out :=
  .next (match outOpOf s dest.toNat oseq with
  | none => s
  | some o => if o.parked then unpark s o else s)

/-- An ANSWER that has arrived for this device (R142, R272, R275, R277, R279). -/
def takeAnswer (s : State) (src : Nat) (oseq : BitVec 64) (status : Nat) (transit : Bool) (value : List Byte) : State :=
  if oseq = 0 then (if status = stOk then (s.fab.out.filter (fun o => decide (o.dest = src) && o.parked)).foldl unpark s else s)
  else match (if transit then s.fab.out.find? (fun o => decide (o.oseq = oseq) && o.sent && decide (o.dest = src)) else outOpOf s src oseq) with
  | none => s
  | some o =>
    if !o.sent then s
    else if transit then opLost s o
    else if o.opc = 0x0D then
      let s1 := { s with fab.peers := sput s.fab.peers src { peerOf s src with inc := some (BitVec.ofNat 16 (leAt value 0 2)) } }
      opEnded s1 o status value
    else if status = stRingFull ∧ o.opc = 0x03 then
      { s with fab.out := s.fab.out.map (fun x => if x = o then { o with parked := true } else x) }
    else if status = stUnreachable then
      let s1 := { s with fab.peers := sput s.fab.peers src { peerOf s src with inc := none } }
      let l := s.fab.out.filter (fun z => decide (z.dest = src) && z.sent)
      let s2 := l.foldl (fun s z => opEnded s z stUnreachable []) s1
      if hasRoute s2 src then startOps (addProbe s2 src) src else s2
    else opEnded s o status value

/-! ## Links -/

/-- Whether this device is the manager's address, and the address of the manager when it is another device's. -/
def otherManager (s : State) : Option Nat :=
  if s.fab.managerAddr = 0 ∨ s.fab.managerAddr = fabAddr s ∨ s.fab.isManager then none else some s.fab.managerAddr

/-- The address of the elected manager, this device's own where it is the manager; 0 while it is not known. -/
def managerNow (s : State) : Nat := if s.fab.isManager then fabAddr s else s.fab.managerAddr

/-- ROUTE_NOTICE to the fabric manager: a port and its state (R274); the manager itself keeps its own. -/
def routeNotice (s : State) (p : Nat) : State :=
  if s.fab.isManager then { s with fab.notices := (fabAddr s, p, (fport s p).state) :: s.fab.notices }
  else match otherManager s with
  | some a => if hasRoute s a then issueOp s a 0x0C 0xFF 0 0 false [BitVec.ofNat 8 p, BitVec.ofNat 8 (fport s p).state] .other else s
  | none => s

/-- A flit of another device loses its port: rerouted by its own epoch, or, for the first flit of an operation that is answered, with no
port left, answered UNREACHABLE with TRANSIT (R272). A link-local flit goes with its link. -/
def rerouteFlit (s : State) (f : BitVec 1024) : State :=
  if flDst f.toNat = 0 then s
  else match routeFlit s (flEpoch f.toNat) f with
  | some s1 => s1
  | none =>
    let opc := field f.toNat (128 + 71) (128 + 64)
    if flFirst f.toNat ∧ flSrc f.toNat ≠ fabAddr s ∧ opc ≠ 0x80 ∧ opc ≠ 0x0B then
      -- the answer carries the operation's destination as its source, so that the source finds the operation
      let oseq := field f.toNat (128 + 63) 128
      let ans := mkFlit 1 false true s.fab.epoch (flSrc f.toNat) (flDst f.toNat) 0 (dparam s 0x5001 4)
        (opHeader oseq 0x80 0xFF 1 0 s.seed.incarnation.toNat 0 (stUnreachable + 0x100))
      (routeFlit s s.fab.epoch ans).getD s
    else s

/-- The flits that a port which leaves UP still holds, the oldest first. -/
def heldFlits (x : FPort) : List LFlit := x.retry.map (·.2) ++ x.waiting

/-- A port leaves UP (R142, R267, R274): unusable at once, the manager told, what it holds rerouted or resent. -/
def portLeavesUp (s : State) (p st : Nat) : State :=
  let x := fport s p
  let l := heldFlits x
  let s1 := modPort { s with fab.usable := s.fab.usable.filter (· ≠ p) } p (fun y =>
    { y with state := st, left := true, retry := [], waiting := [], busy := [], attempts := 0, width := 0 })
  let s2 := routeNotice s1 p
  let own (f : LFlit) : Bool := decide (f.op ≠ 0) && decide (flVc f.flit.toNat ≠ 1)
  let ids := ((l.filter own).map (fun f => (flDst f.flit.toNat, f.op))).eraseDups
  let s3 := ids.foldl (fun s q => match outOpOf s q.1 (BitVec.ofNat 64 q.2) with
    | some o => opLost s o
    | none => s) s2
  (l.filter (fun f => !own f)).foldl (fun s f => rerouteFlit s f.flit) s3

/-- LINK_LOST of a port (R267, R274): its count, its event, DOWN, and a strike. -/
def linkLost (s : State) (p : Nat) : State :=
  let s1 := modPort s p (fun x => { x with linkLost := x.linkLost + 1 })
  strike (raise (portLeavesUp s1 p 3) (0x08C + p)) (unitFabric p) 0x31

/-- LINK_LOST: 4 µs since the oldest unacknowledged flit was first sent (R267). -/
def execLinkLost (p : Fin 12) (s : State) : Out :=
  .next (if (fport s p).state = 2 ∧ !(fport s p).retry.isEmpty then linkLost s p else s)

/-- A replay of everything unacknowledged: one attempt; when 8 have made no progress the link is lost (R267). -/
def replay (s : State) (p : Nat) : State :=
  let x := fport s p
  if x.state ≠ 2 ∨ x.retry.isEmpty then s
  else if 8 ≤ x.attempts then linkLost s p
  else
    -- each flit takes what is then still to return: credits go back once
    let again := x.retry.foldl (fun (y : FPort) q => { stamped y with sent := stamp y q.1 (flitBits q.2) :: y.sent }) x
    countE (modPort s p (fun _ => { again with attempts := x.attempts + 1, replays := x.replays + 1 })) 3 p 0 x.retry.length

/-- REPLAY: 500 ns with unacknowledged flits and no advance of ACKSEQ (R267). -/
def execReplay (p : Fin 12) (s : State) : Out := .next (replay s p)

/-- Flits up to ACKSEQ leave the retry buffer; an advance is progress (R267). -/
def takeAck (x : FPort) (a : Nat) : FPort :=
  if x.retry.any (fun q => decide (q.1 = a)) then
    { x with acked := a, attempts := 0, retry := (x.retry.dropWhile (fun q => decide (q.1 ≠ a))).drop 1 }
  else x

/-- What a good flit's ACK, CREDITS and NAK do (Table 17-3, R266, R267). -/
def takeLink (s : State) (p f : Nat) : State :=
  let s1 := modPort s p (fun x =>
    let y := takeAck x (flAck f)
    { y with credits := lset y.credits (flCvc f) (Nat.min 128 (lget 0 y.credits (flCvc f) + flCredits f)) })
  pump (if flNak f then replay s1 p else s1) p

/-- A discard, answered with a NAK that carries ACKSEQ (R267). -/
def discardFlit (s : State) (p : Nat) : State := modPort s p (fun x => sendIdle { x with nak := true, discarded := x.discarded + 1 })

/-- FLIT_RECEIVE (R265–R268): the codeword and the CRC, the link fields, the order of LSEQ, KIND and DST; an OP flit joins the transit
queue, and what a DISC flit says comes as a row of its own. -/
def execFlitReceive (p : Fin 12) (f : Flit) (cw : Ecc) (s : State) : Out :=
  .next (if (fport s p).state ≠ 2 then s
  else match cw with
  | .uncorrectable => discardFlit (modPort s p (fun x => { x with uncorrectable := x.uncorrectable + 1 })) p
  | cw =>
    let s1 := modPort s p (fun x => { x with corrected := x.corrected + (if cw = .corrected then 1 else 0) })
    let n := f.data.toNat
    if !crcOk f.data then discardFlit s1 p
    else
      let s2 := countE (takeLink s1 p n) 3 p 1 1
      if (fport s2 p).state ≠ 2 ∨ flKind n = 0 then s2
      else if flLseq n ≠ ((fport s2 p).rxSeq + 1) % 4096 then discardFlit s2 p
      else
        let s3 := modPort s2 p (fun x => { x with rxSeq := flLseq n, ackDue := true })
        let owe (s : State) : State := modPort s p (fun x => { x with owed := lset x.owed (flVc n) (lget 0 x.owed (flVc n) + 1) })
        let ok := decide (flDst n ≤ 4096) && decide (1 ≤ flKind n ∧ flKind n ≤ 2)
        idleIfDue (if !ok then modPort (owe s3) p (fun x => { x with discarded := x.discarded + 1 })
          else if flKind n = 2 then owe s3
          else countE (modPort s3 p (fun x => { x with transit := x.transit ++ [⟨p, f.data, s3.time.clock⟩] })) 3 p 3 112) p)

/-- A flit taken from a transit queue, its credit owed. -/
def takeTransit (s : State) (p : Nat) (t : Transit) : State :=
  modPort s p (fun x =>
    { x with transit := x.transit.erase t,
             owed := if t.port = 14 then x.owed else lset x.owed (flVc t.flit.toNat) (lget 0 x.owed (flVc t.flit.toNat) + 1) })

/-- A flit discarded in transit: a port in the middle of its operation waits for one flit less (R266, R271). -/
def forgetFlit (s : State) (f : Nat) : State :=
  if flFirst f then s
  else { s with fab.ports := s.fab.ports.map (fun q => match sfind q.2.busy (flVc f) with
    | some (src, _) => if src = flSrc f then (q.1, { q.2 with busy := busyAfter q.2.busy f }) else q
    | none => q) }

/-- TRANSIT_TIMEOUT: the flit that has waited longest in a transit queue has waited 10 µs (R271). -/
def execTransitTimeout (p : Fin 12) (s : State) : Out :=
  .next (match (fport s p).transit with
  | t :: _ => idleIfDue (fabStat (forgetFlit (takeTransit s p t) t.flit.toNat) 5) p
  | [] => s)

/-- OP_ASSEMBLY_TIMEOUT: 20 µs after its first flit an operation is not whole (R272). -/
def execOpAssemblyTimeout (src : BitVec 16) (oseq : BitVec 64) (s : State) : Out :=
  .next (if s.fab.assembly.any (fun a => decide (a.src = src.toNat) && decide (a.oseq = oseq)) then
    { s with fab.assembly := s.fab.assembly.filter (fun a => !(decide (a.src = src.toNat) && decide (a.oseq = oseq))), fab.discarded := s.fab.discarded + 1 }
  else s)

/-! ## Training (R264) -/

/-- PORT_CFG of a port. -/
def portCfg (s : State) (p : Nat) : Nat := dparam s 0x5002 (p + 1)

/-- The width that good lanes allow under MAX_WIDTH (R264): ×4; ×2 on lanes 0–1 or 2–3; ×1 on the lowest good lane; 0 for none. -/
def trainedWidth (good maxw : Nat) : Nat :=
  if good = 15 ∧ maxw = 0 then 4
  else if maxw ≤ 1 ∧ (good % 4 = 3 ∨ good / 4 = 3) then 2
  else if good ≠ 0 ∧ maxw ≤ 2 then 1 else 0

/-- UP ports. -/
def upPorts (s : State) : List Nat := (List.range 12).filter (fun p => decide ((fport s p).state = 2))

/-- The candidate that a device or a neighbour puts forward wins over another: higher priority, then lower serial (R269). -/
def candBetter (a b : Candidate) : Bool := decide (b.priority < a.priority) || (decide (a.priority = b.priority) && decide (a.serial < b.serial))

/-- The device itself as a candidate. -/
def selfCand (s : State) : Candidate := ⟨dparam s 0x5001 3, s.fuses.serial.toNat⟩

/-- The best candidate among the device and what neighbours on UP ports report (R269). -/
def bestCand (s : State) : Option Candidate :=
  let l := (selfCand s :: (s.fab.heard.filter (fun q => (upPorts s).contains q.1)).map (·.2)).filter (fun c => decide (c.priority ≠ 0))
  l.foldl (fun a c => match a with
    | none => some c
    | some b => if candBetter c b then some c else some b) none

/-- The election (R269): a change of the manager raises 0x098 and begins a new period of its TIME; a winner whose address is 0 takes
0x0001. A new priority of the same device changes no manager. -/
def elect (s : State) : State :=
  let b := bestCand s
  if b.map (·.serial) = s.fab.manager.map (·.serial) then { s with fab.manager := b }
  else
    let me := decide (b.map (·.serial) = some s.fuses.serial.toNat)
    let s1 := { s with fab.manager := b, fab.isManager := me, fab.lastTime := 0, fab.managerAddr := 0, fab.beaconNo := match b with
      | some c => sget 0 s.fab.beacons c.serial
      | none => 0 }
    raise (if me && decide (fabAddr s = 0) then setParam s1 0x5001 2 devInst 1 else s1) 0x098

/-- A HELLO on every port of a list (R269). -/
def sendHello (s : State) (ports : List Nat) : State :=
  let b := s.fab.manager.getD ⟨0, 0⟩
  ports.foldl (fun s p => sendDiscFlit s p
    (.hello p s.fuses.serial.toNat (fabAddr s) s.seed.incarnation.toNat (dparam s 0x5001 3) b.priority b.serial s.fab.beaconNo)) s

/-- A beacon on every port of a list (R269). -/
def sendBeacon (s : State) (ports : List Nat) (serial addr number hops : Nat) : State :=
  ports.foldl (fun s p => sendDiscFlit s p (.beacon p serial addr number hops)) s

/-- A port may train: the fabric is powered, stage 9 has begun, the port is not disabled, and the unit is in service or returning. -/
def mayTrain (s : State) (p : Nat) : Bool :=
  !solo s && decide (8 ≤ s.boot.stage) && decide (field (portCfg s p) 1 0 ≠ 3) && decide ((fport s p).state ≠ 2) &&
  (decide ((unitSum s (unitFabric p)).state = 0) || decide ((unitSum s (unitFabric p)).state = 3))

/-- A trained link (Table 17-1 step 5): credits granted, sequence numbers from their start. A port that has left UP stays unusable until a
ROUTE_FLIP (R274). -/
def linkUp (s : State) (p width good delay : Nat) : State :=
  let back := decide ((unitSum s (unitFabric p)).state = 3)
  let s1 := modPort s p (fun x =>
    { x with state := if back then 1 else 2, width, lanes := good, fails := 0, lseq := 0, acked := 4095, retry := [], attempts := 0, rxSeq := 4095,
             nak := false, credits := [128, 128, 128, 128], owed := [0, 0, 0, 0], busy := [], linkDelay := delay })
  if back then s1
  else
    let s2 := if (fport s1 p).left then s1 else { s1 with fab.usable := insertNat s1.fab.usable p }
    sendHello s2 [p]

/-- PORT_TRAIN: one training attempt (R264); after 3 failures in a row the port is FENCED with TRAIN_FAIL. -/
def execPortTrain (p : Fin 12) (res : FabTrain) (s : State) : Out :=
  .next (if !mayTrain s p then s
  else
    let failed : State :=
      let s1 := modPort s p (fun x => { x with state := 1, fails := x.fails + 1 })
      if 3 ≤ (fport s1 p).fails then hardFault (modPort s1 p (fun x => { x with fails := 0 })) (unitFabric p) 0x30 else s1
    match res with
    | .fail => failed
    | .up good delay =>
      let w := trainedWidth good.toNat (field (portCfg s p) 1 0)
      if w = 0 then failed else linkUp s p w good.toNat delay.toNat)

/-! ## Discovery and the manager (R269) -/

/-- HELLO: with no message, this device's HELLO on every UP port; otherwise a neighbour's has arrived (R269). -/
def execHello (rx : Option HelloMsg) (s : State) : Out :=
  .next (if solo s then s else match rx with
  | none => elect (sendHello (elect s) (upPorts s))
  | some m =>
    if (fport s m.port).state ≠ 2 then s
    else
      let own : Candidate := ⟨m.priority.toNat, m.serial.toNat⟩
      let rep : Candidate := ⟨m.bestPriority.toNat, m.bestSerial.toNat⟩
      let c := if rep.priority ≠ 0 ∧ (own.priority = 0 ∨ candBetter rep own) then rep else own
      let s1 := modPort s m.port (fun x => { x with peerAddr := m.addr.toNat })
      elect { s1 with fab.heard := sput s1.fab.heard m.port c })

/-- BEACON: with no message, the manager's flood; otherwise one has arrived, and is forwarded once within its hops (R269). -/
def execBeacon (rx : Option BeaconMsg) (s : State) : Out :=
  .next (if solo s then s else match rx with
  | none =>
    if !s.fab.isManager then s
    else
      let n := s.fab.beaconNo + 1
      sendBeacon { s with fab.beaconNo := n, fab.beacons := sput s.fab.beacons s.fuses.serial.toNat n } (upPorts s)
        s.fuses.serial.toNat (fabAddr s) n (dparam s 0x5001 4)
  | some m =>
    if (fport s m.port).state ≠ 2 ∨ m.number.toNat ≤ sget 0 s.fab.beacons m.serial.toNat then s
    else
      let s1 := { s with fab.beacons := sput s.fab.beacons m.serial.toNat m.number.toNat }
      let s2 := if (s.fab.manager.map (·.serial)) = some m.serial.toNat ∧ !s.fab.isManager then
          { s1 with fab.beaconNo := m.number.toNat, fab.managerAddr := m.addr.toNat } else s1
      if m.hops = 0 then s2
      else sendBeacon s2 ((upPorts s).filter (fun p => decide (p ≠ m.port.val))) m.serial.toNat m.addr.toNat m.number.toNat (m.hops.toNat - 1))

/-- MANAGER_TIMEOUT: 10 ms without a beacon from the best candidate; it is dropped and the election runs again (R269). -/
def execManagerTimeout (s : State) : Out :=
  .next (if solo s || s.fab.isManager then s else match s.fab.manager with
  | none => s
  | some c => elect { s with fab.heard := s.fab.heard.filter (fun q => decide (q.2.serial ≠ c.serial)) })

/-! ## Fabric time (R283) -/

/-- TIME sent on ports, that `hops` links have brought so far. -/
def sendTime (s : State) (ports : List Nat) (t hops : Nat) : State := ports.foldl (fun s p => sendTimeFlit s p t hops) s

/-- TIME_SEND: every 1 ms the manager sends its device time on every UP port. -/
def execTimeSend (s : State) : Out :=
  .next (if s.fab.isManager && !solo s then sendTime s (upPorts s) s.time.dev 0 else s)

/-- A TIME of the period whose first one has been used: within half a period of it (R283). -/
def samePeriod (s : State) (v : Nat) : Bool :=
  decide (s.fab.lastTime ≠ 0) && decide (v < s.fab.lastTime + 500000) && decide (s.fab.lastTime < v + 500000)

/-- A TIME that has come in by a port, its value with the link delay and the residency added: the first of a period is used and forwarded;
under TIME_SRC 2 device time follows it, LOCKED within 1 µs plus 10 ns a hop (R283, R329). -/
def takeTime (s : State) (p v hops : Nat) : State :=
  if solo s ∨ s.fab.isManager ∨ (fport s p).state ≠ 2 ∨ samePeriod s v then s
  else
    let s1 := sendTime { s with fab.lastTime := v } ((upPorts s).filter (fun q => decide (q ≠ p))) v hops
    if s.time.src = 2 then steerTime s1 v (1000 + 10 * hops) else s1

/-- TIME (R283). -/
def execTimeOp (p : Fin 12) (t : BitVec 64) (residency hops : Nat) (s : State) : Out :=
  .next (takeTime s p (t.toNat + (fport s p).linkDelay + residency) hops)

end Sys2Proof.Machine
end

