-- ==== Sys2Proof/Machine/Thicket.lean ====
section
/-!
DEFINITION. The Thicket: gathers and pooling, THICKET nodes, the hot set, prefetch, row reads in flight, the words of a Thicket engine
(R210–R225, R255), and the switch between patch sets (R179).
-/
namespace Sys2Proof.Machine

/-! ## Statistics -/

/-- TABLE_STATS raised: 0 rows read, 1 hot hits, 2 indices dropped, 3 prefetch hits. -/
def tableStat (s : State) (p slot k n : Nat) : State :=
  { s with thk.tableStats := sset 0 s.thk.tableStats (1024 * p + 4 * slot + k) ((sget 0 s.thk.tableStats (1024 * p + 4 * slot + k) + n) % 2 ^ 64) }

/-- PF_STATS raised: 0 prefetched, 1 used, 2 discarded, 3 skipped or wasted. -/
def pfStat (s : State) (p k : Nat) : State :=
  { s with thk.pfStats := sset 0 s.thk.pfStats (4 * p + k) ((sget 0 s.thk.pfStats (4 * p + k) + 1) % 2 ^ 64) }

/-! ## Row reads (R220, R224, R255) -/

/-- A row read whole by a gather, with its counts: rows read, hot and prefetch hits. `listed`: the gather is work of a step list, which then
has used the prefetch entry (R224). -/
def readRow (s : State) (listed : Bool) (p slot a len : Nat) : State × Except Nat (List Byte) × RowSource :=
  let hot := (servingEntry s a).isNone && (sfind s.thk.prefetch a).isNone && (sfind s.thk.hot a).isSome
  let pf := (servingEntry s a).isNone && (sfind s.thk.prefetch a).isSome
  let first := (sfind s.thk.prefetch a).any (fun e => !e.used)
  match chooseVersion s a len with
  | (s1, r) =>
    let s2 := tableStat s1 p slot 0 1
    let s3 := if hot then countD (tableStat s2 p slot 1 1) (homeDie a) 0x47 1 else s2
    if !pf then (s3, r)
    else
      let s4 := countD (tableStat s3 p slot 3 1) (homeDie a) 0x48 1
      let s5 := { s4 with thk.prefetch := smod s4.thk.prefetch a (fun e => { e with used := true, listed := e.listed || listed }) }
      (if first then pfStat s5 p 1 else s5, r)

/-- Rows read once each: their bytes by row number, or the AUX of the first error. -/
def readRows (listed : Bool) (p slot base stride : Nat) : List Nat → State → State × Except Nat (Sparse (List Byte))
  | [], s => (s, .ok [])
  | r :: l, s => match readRow s listed p slot (base + r * stride) stride with
    | (s1, .error aux, _) => (s1, .error aux)
    | (s1, .ok bs, _) => match readRows listed p slot base stride l s1 with
      | (s2, .ok m) => (s2, .ok (sput m r bs))
      | (s2, .error aux) => (s2, .error aux)

/-- Windows of `w` bags read one after another, each distinct row of a window once (R217). -/
def readWindows (listed : Bool) (p slot base stride : Nat) : List (List Nat) → State → State × Except Nat (Sparse (List Byte))
  | [], s => (s, .ok [])
  | rows :: l, s => match readRows listed p slot base stride rows.eraseDups s with
    | (s1, .error aux) => (s1, .error aux)
    | (s1, .ok m) => match readWindows listed p slot base stride l s1 with
      | (s2, .ok m2) => (s2, .ok (m.foldl (fun a q => sput a q.1 q.2) m2))
      | (s2, .error aux) => (s2, .error aux)

/-! ## Pooling (R213, R215, R216) -/

/-- The decoded elements of a row (Table 14-3, R213). -/
def decodeRow (td : Nat) (bs : List Byte) : List (BitVec 32) :=
  (List.range (tdElems td)).map (fun j => rowDecode (tdFormat td) (leAt bs 8 4) (leAt bs 12 4) (rowElem (tdFormat td) (bs.drop 16) j))

/-- One output element of a bag over the decoded rows of its valid positions, with their weights (R215). -/
def poolElem (op : Nat) (xs : List (BitVec 32 × BitVec 32)) : BitVec 32 :=
  if xs.isEmpty then 0
  else match op with
  | 1 => xs.foldl (fun a x => add32 a x.1) 0
  | 2 => bits32 (fdiv (val32 (xs.foldl (fun a x => add32 a x.1) 0)) (ofInt xs.length))
  | 3 => xs.foldl (fun a x => fma32 x.2 x.1 a) 0
  | _ => (xs.drop 1).foldl (fun a x => max32 a x.1) (bits32 (val32 ((xs.map (·.1)).headD 0)))

/-- Elements written in OUT: 0 FP32, 1 BF16 (R199). -/
def outBytes (out : Nat) (l : List (BitVec 32)) : List Byte :=
  if out = 0 then l.flatMap (fun x => leBytes 4 (convOut 0 false (val32 x)).1) else l.flatMap (fun x => leBytes 2 (convOut 1 false (val32 x)).1)

/-- A gather after relocation: table base, slot and descriptor, positions, bags as start positions, weights, OP and OUT. -/
structure GatherJob where
  part : Nat
  slot : Nat
  base : Nat
  desc : Nat
  idx : List Nat
  bags : List Nat
  weights : List Nat
  op : Nat
  out : Nat
  /-- It is work of a step list. -/
  listed : Bool
  deriving DecidableEq, Repr

/-- The positions of each bag. -/
def bagRanges (count : Nat) : List Nat → List (List Nat)
  | [] => []
  | [a] => [(List.range (count - a)).map (a + ·)]
  | a :: b :: l => ((List.range (b - a)).map (a + ·)) :: bagRanges count (b :: l)

/-- The first bag number that breaks the rules of a bag list (R214). -/
def badBag (count : Nat) (bags : List Nat) : Option Nat :=
  firstBelow (fun b => if b = 0 then decide (lget 0 bags 0 ≠ 0) || (decide (bags.length = 1) && decide (count < lget 0 bags 0))
    else decide (lget 0 bags b < lget 0 bags (b - 1)) || (decide (b + 1 = bags.length) && decide (count < lget 0 bags b))) bags.length

/-- What a gather produces: the bytes, rows pooled, indices dropped, and whether any bag was EMPTY. -/
structure GatherRes where
  bytes : List Byte
  pooled : Nat
  dropped : Nat
  empty : Bool
  deriving DecidableEq, Repr

/-- A list cut into pieces of `n`. -/
def chunks {α : Type} (n : Nat) : Nat → List α → List (List α)
  | 0, _ => []
  | b + 1, l => if l.isEmpty then [] else l.take n :: chunks n b (l.drop n)

/-- The output of a gather once its rows are there (R215, R216). -/
def gatherOut (j : GatherJob) (rows : Sparse (List Byte)) : GatherRes :=
  let valid (i : Nat) : Bool := decide (lget 0 j.idx i < tdRows j.desc)
  let row (i : Nat) : List Byte := sget [] rows (lget 0 j.idx i)
  let n := j.idx.length
  if j.op = 0 then
    let w := if j.out = 2 then tdStride j.desc else tdElems j.desc * (if j.out = 0 then 4 else 2)
    let body := (List.range n).flatMap (fun i =>
      if !valid i then List.replicate w 0 else if j.out = 2 then bytesAt (row i) 0 w else outBytes j.out (decodeRow j.desc (row i)))
    let map := leBytes (8 * ((n + 63) / 64)) ((List.range n).foldl (fun a i => a + bitAt (!valid i) i) 0)
    let dropped := (List.range n).countP (fun i => !valid i)
    ⟨body ++ map, n - dropped, dropped, false⟩
  else
    let bags := bagRanges n j.bags
    let vec (b : List Nat) : List (BitVec 32) :=
      let xs := (b.filter valid).map (fun i => (decodeRow j.desc (row i), BitVec.ofNat 32 (lget 0 j.weights i)))
      (List.range (tdElems j.desc)).map (fun e => poolElem j.op (xs.map (fun x => (lget 0 x.1 e, x.2))))
    let stat (b : List Nat) : List Byte :=
      let v := b.countP valid
      leBytes 4 v ++ leBytes 2 (Nat.min (b.length - v) 65535) ++ leBytes 1 (if v = 0 then 1 else 0) ++ [0]
    let pooled := (bags.map (fun b => b.countP valid)).sum
    ⟨(bags.flatMap (fun b => outBytes j.out (vec b))) ++ bags.flatMap stat, pooled, n - pooled, bags.any (fun b => decide (b.countP valid = 0))⟩

/-- How a gather fails: status and AUX. -/
abbrev GatherErr := Nat × Nat

/-- A gather run: index checks, row reads by merge window, output (R214–R218). -/
def runGather (s : State) (j : GatherJob) : State × Except GatherErr GatherRes :=
  let n := j.idx.length
  let rows := tdRows j.desc
  match (if j.op = 0 then none else badBag n j.bags) with
  | some b => (s, .error (stBadField, 0x40000000 + b))
  | none =>
    match (if tdFault j.desc then firstBelow (fun i => decide (rows ≤ lget 0 j.idx i)) n else none) with
    | some i => (s, .error (stIndexFault, i))
    | none =>
      let ranges := if j.op = 0 then [List.range n] else bagRanges n j.bags
      let w := Nat.max 1 (524288 / (4 * Nat.max 1 (tdElems j.desc)))
      let wins := (chunks w ranges.length ranges).map (fun bs => (bs.flatten.map (lget 0 j.idx)).filter (· < rows))
      match readWindows j.listed j.part j.slot j.base (tdStride j.desc) wins s with
      | (s1, .error aux) => (s1, .error (stMemoryError, aux))
      | (s1, .ok m) =>
        let r := gatherOut j m
        (if r.dropped = 0 then s1 else tableStat s1 j.part j.slot 2 r.dropped, .ok r)

/-- UINT32 values read from a buffer, none for no handle. -/
def readWords (s : State) (h : Option HEntry) (off n : Nat) : State × Except Nat (List Nat) :=
  match h with
  | none => (s, .ok [])
  | some e => match readMem s (e.base + off) (4 * n) with
    | (s1, .ok bs) => (s1, .ok ((List.range n).map (fun i => leAt bs (4 * i) 4)))
    | (s1, .error aux) => (s1, .error aux)

/-- The job of a GATHER body with its relocations, once the index list, the bag list and the weights are read. -/
def gatherJob (s : State) (listed : Bool) (p e desc : Nat) (rel : Nat → Option HEntry) (t : HEntry) : State × Except Nat GatherJob :=
  let n := cf e 35 32
  match readWords s (rel 20) (cf e 31 24) n with
  | (s1, .error aux) => (s1, .error aux)
  | (s1, .ok idx) => match readWords s1 (rel 36) 0 (cf e 43 40) with
    | (s2, .error aux) => (s2, .error aux)
    | (s2, .ok bags) => match readWords s2 (rel 44) 0 n with
      | (s3, .error aux) => (s3, .error aux)
      | (s3, .ok weights) =>
        (s3, .ok { part := p, slot := t.object, base := t.base, desc, idx, bags := if (rel 36).isNone then [0] else bags, weights,
                   op := field (cf e 60 60) 2 0, out := field (cf e 60 60) 5 4, listed })

/-- GATHER (R214–R218): AUX of an OK gather is the number of indices dropped. -/
def execGather (ring : Fin 4096) (seq : BitVec 64) (s : State) : Out :=
  .next (match begin? s ring seq 0x30, ringOf s ring with
  | (s1, some c), some rg => (match relocAt c 16, relocAt c 48 with
    | some t, some o =>
      let e := c.entry.toNat
      (match gatherJob s1 false c.part e (descAt c 16) (relocAt c) t with
        | (s2, .error aux) => finish s2 ring seq ⟨stMemoryError, aux, 0⟩
        | (s2, .ok j) => match runGather s2 j with
          | (s3, .error x) => finish s3 ring seq ⟨x.1, x.2, 0⟩
          | (s3, .ok r) => finish (outWrite s3 rg o (cf e 59 52) r.bytes) ring seq ⟨stOk, Nat.min r.dropped 0xFFFFFFFF, 0⟩)
    | _, _ => s1)
  | (s1, _), _ => s1)

/-! ## THICKET nodes (R219) -/

/-- The GATHER body that a record of 64 bytes spells, with the node's table handle. -/
def recordBody (operand : Nat) (r : List Byte) : Nat :=
  leNat (List.replicate 8 0 ++ [0x30] ++ List.replicate 7 0 ++ leBytes 4 operand ++ (r.drop 4).take 44)

/-- The first field of a record that breaks its rule. -/
def recordBad (e : Nat) : Option Nat :=
  let req := [(20, decide (cf e 23 20 % 2 ^ 28 = 0)), (48, decide (cf e 51 48 % 2 ^ 28 = 0))]
  (req ++ gatherRules e).foldl (fun a q => if q.2 then (match a with
    | none => some q.1
    | some b => some (Nat.min b q.1)) else a) none

/-- A THICKET task ends: its result kept; the last one of a firing emits the token. -/
def retireThicket (s : State) (i n k t : Nat) (r : GatherRes) : State :=
  let s1 := modTask s i n k t (fun z => { z with place := .retired, pooled := r.pooled, dropped := r.dropped, empty := r.empty })
  match firingOf s1 i n k with
  | none => s1
  | some f =>
    if allRetired f && !f.emitted then
      let sum (g : Task → Nat) : Nat := (f.tasks.map g).sum % 2 ^ 32
      let v := BitVec.ofNat 128 (sum (·.pooled) + (sum (·.dropped) <<< 32) + (if f.tasks.any (·.empty) then 1 <<< 64 else 0))
      emit s1 i n k (fun _ => v)
    else s1

/-- A task of a THICKET firing run on its engine. -/
def runThicketTask (s : State) (i n : Nat) (x : Inst) (y : Node) (f : Firing) (t : Nat) : State :=
  let stop (s : State) (st aux : Nat) : State := freezeInst s i st aux true .fault
  match y.operand with
  | none => stop s stKind 16
  | some h =>
    let addr := ((f.taken.headD { data := 0, node := 0, firing := 0, out := 0 }).data.toNat % 2 ^ 64) + 64 * t
    match readMem s addr 64 with
    | (s1, .error aux) => stop s1 stMemoryError aux
    | (s1, .ok rec) =>
      let e := recordBody y.ent.operand rec
      match recordBad e with
      | some o => stop s1 stBadField o
      | none => match relocateAll s1 x.part e ((gatherFields y.desc e).filter (fun z => decide (z.off ≠ 16))) with
        | .error r => stop s1 r.status r.aux
        | .ok rs =>
          let rel (off : Nat) : Option HEntry := (rs.find? (fun z => decide (z.off = off))).map (·.entry)
          let listed := match x.owner with
            | .list _ => true
            | .run _ _ => false
          match gatherJob s1 listed x.part e y.desc rel h with
          | (s2, .error aux) => stop s2 stMemoryError aux
          | (s2, .ok j) => match runGather s2 j with
            | (s3, .error er) => stop s3 er.1 er.2
            | (s3, .ok r) =>
              let s4 := match rel 48 with
                | some o => if o.kind = kHostbuf then postWrite s3 (hostWay s3 x).1 (hostWay s3 x).2 (o.base + cf e 59 52) r.bytes
                    else writeMem s3 (o.base + cf e 59 52) r.bytes
                | none => s3
              retireThicket s4 i n f.num t r

/-- THICKET_TASK: a task of a THICKET node on an engine. -/
def execThicketTask (ins : Fin 16384) (node : Fin 4096) (task : Fin 16) (s : State) : Out :=
  .next (match instOf s ins with
  | none => s
  | some x => match nodeOf x node with
    | none => s
    | some y =>
      if y.ent.kind ≠ 2 then s
      else match y.firings.find? (fun f => (f.tasks[task.val]?).any (fun t => match t.place with
        | .engine _ => true
        | _ => false)) with
      | none => s
      | some f => runThicketTask s ins node x y f task)

/-! ## The hot set (R220–R222) -/

/-- The tag set of a row at an address (R220). -/
def hotSet (a : Nat) : Nat := ((a / 16) * 0x9E3779B1 % 2 ^ 32) >>> 18

/-- Bytes of hot copies of a partition (HOT_USED). -/
def hotUsed (s : State) (p : Nat) : Nat := ((s.thk.hot.filter (fun q => decide (q.2.part = p))).map (fun q => q.2.bytes.length)).sum

/-- A row may become hot: its tag set, the hot-row region of its home die and the partition's quota have room (R221, R227). -/
def hotFits (s : State) (p a len : Nat) : Bool :=
  decide ((s.thk.hot.countP (fun q => decide (homeDie q.1 = homeDie a) && decide (hotSet q.1 = hotSet a))) < 16) &&
  decide (((s.thk.hot.filter (fun q => decide (homeDie q.1 = homeDie a))).map (fun q => q.2.bytes.length)).sum + len ≤ s.canopy.hotRegion * 2 ^ 20) &&
  decide (hotUsed s p + len ≤ param s 0x3801 1 p * 2 ^ 20)

/-- The outcome of one ADD: hot already, added, not added, or a read error. -/
def hotAdd (s : State) (p slot base stride row : Nat) : State × Except Nat Bool :=
  let a := base + row * stride
  if (sfind s.thk.hot a).isSome then (s, .ok true)
  else if !hotFits s p a stride then
    ({ s with thk.hotFull := sset 0 s.thk.hotFull p (sget 0 s.thk.hotFull p + 1) }, .ok false)
  else match chooseVersion s a stride with
    | (s1, .error aux, _) => (s1, .error aux)
    | (s1, .ok bs, _) => ({ s1 with thk.hot := sput s1.thk.hot a ⟨p, slot, row, bs, false⟩ }, .ok true)

/-- Rows added in list order; the number of rows not added. -/
def hotAddAll (p slot base desc : Nat) : List Nat → State → Nat → State × Except Nat Nat
  | [], s, n => (s, .ok n)
  | r :: l, s, n =>
    if tdRows desc ≤ r then hotAddAll p slot base desc l (tableStat s p slot 2 1) (n + 1)
    else match hotAdd s p slot base (tdStride desc) r with
      | (s1, .error aux) => (s1, .error aux)
      | (s1, .ok true) => hotAddAll p slot base desc l s1 n
      | (s1, .ok false) => hotAddAll p slot base desc l s1 (n + 1)

/-- The hot rows of a table removed. -/
def hotClear (s : State) (p slot : Nat) : State :=
  { s with thk.hot := s.thk.hot.filter (fun q => !(decide (q.2.part = p) && decide (q.2.slot = slot))) }

/-- HOT_REFRESH (R221); a MEMORY_ERROR leaves the hot set as it was (Table 14-7). -/
def execHotRefresh (ring : Fin 4096) (seq : BitVec 64) (s : State) : Out :=
  .next (match begin? s ring seq 0x32 with
  | (s1, none) => s1
  | (s1, some c) => match relocAt c 16 with
    | none => s1
    | some t =>
      let e := c.entry.toNat
      let td := descAt c 16
      match readWords s1 (relocAt c 20) 0 (cf e 27 24) with
      | (s2, .error aux) => finish s2 ring seq ⟨stMemoryError, aux, 0⟩
      | (s2, .ok rows) =>
        match (if tdFault td then firstBelow (fun i => decide (tdRows td ≤ lget 0 rows i)) rows.length else none) with
        | some i => finish s2 ring seq ⟨stIndexFault, i, 0⟩
        | none =>
          if cf e 28 28 = 1 then
            let bad := rows.countP (fun r => decide (tdRows td ≤ r))
            let s3 := if bad = 0 then s2 else tableStat s2 c.part t.object 2 bad
            let gone := (rows.filter (· < tdRows td)).map (fun r => t.base + r * tdStride td)
            finish { s3 with thk.hot := s3.thk.hot.filter (fun q => !gone.contains q.1) } ring seq ⟨stOk, 0, 0⟩
          else
            let s3 := if cf e 28 28 = 2 then hotClear s2 c.part t.object else s2
            match hotAddAll c.part t.object t.base td rows s3 0 with
            | (s4, .error aux) => finish { s4 with thk.hot := s2.thk.hot } ring seq ⟨stMemoryError, aux, 0⟩
            | (s4, .ok n) => finish s4 ring seq ⟨stOk, n, 0⟩)

/-! ## Prefetch (R223, R224) -/

/-- The device address of row 0 of a table slot: the BASE of the partition's first valid TABLE handle that names it. -/
def slotBase (s : State) (p slot : Nat) : Option Nat :=
  (s.trail.handles.find? (fun q => decide (q.1 / 2 ^ 20 = p) && q.2.valid && decide (q.2.kind = kTable) && decide (q.2.object = slot))).map (·.2.base)

/-- The fills of a die whose space is taken, with the bytes of each: its entries, and those discarded that a read still completes from
(R223, R255). -/
def pfTaken (s : State) (d : Nat) : Sparse Nat :=
  let l := (s.thk.prefetch.filter (fun q => decide (homeDie q.1 = d))).foldl (fun m q => sput m q.2.id q.2.bytes.length) []
  (s.rows.reads.filter (fun r => decide (r.die = d))).foldl (fun m r => match r.src with
    | .prefetch id => sput m id r.len
    | _ => m) l

/-- A die's prefetch buffer has room for a row. -/
def pfFits (s : State) (d len : Nat) : Bool :=
  let l := pfTaken s d
  decide (l.length < 4096) && decide ((l.map (·.2)).sum + len ≤ 4194304)

/-- One hint: the row is prefetched, a poisoned row with its poison, or the entry is skipped and counted. -/
def prefetchHint (s : State) (p h : Nat) : State :=
  let slot := field h 39 32
  let row := field h 31 0
  let td := tableDesc s p slot
  match slotBase s p slot with
  | none => pfStat s p 3
  | some b =>
    let a := b + row * tdStride td
    if !tdValid td || !tdPrefetch td || decide (tdRows td ≤ row) || (sfind s.thk.hot a).isSome || (sfind s.thk.prefetch a).isSome ||
       !pfFits s (homeDie a) (tdStride td) then pfStat s p 3
    else match chooseVersion s a (tdStride td) with
      | (s1, r, _) =>
        let e : PfEntry := match r with
          | .ok bs => { part := p, slot, row, bytes := bs, id := s1.thk.nextFill }
          | .error aux => { part := p, slot, row, bytes := List.replicate (tdStride td) 0, id := s1.thk.nextFill, poison := some aux }
        pfStat { s1 with thk.prefetch := sput s1.thk.prefetch a e, thk.nextFill := s1.thk.nextFill + 1 } p 0

/-- PREFETCH_FILL: the hints of a ready stand's IN buffer (R223). -/
def execPrefetchFill (stand : Fin 131072) (s : State) : Out :=
  .next (match standOf s stand with
  | none => s
  | some x =>
    let cfg := param s 0x3802 1 x.part
    let n := field cfg 47 32
    if n = 0 ∨ !standReady s x then s
    else match cmdOf s x.ring x.stepSeq with
      | none => s
      | some c =>
        let e := c.entry.toNat
        (List.range n).foldl (fun s k =>
          let off := field cfg 31 0 + 8 * k
          match relocAt c 20 with
          | some b =>
            if cf e 35 32 < off + 8 then pfStat s x.part 3
            else (match readMem s (b.base + cf e 31 24 + off) 8 with
              | (s1, .ok bs) => prefetchHint s1 x.part (leNat bs)
              | (s1, .error _) => pfStat s1 x.part 3)
          | none => pfStat s x.part 3) s)

/-- A step boundary of a partition passes its prefetch entries: one that no list has used by the second is wasted (R224). -/
def prefetchBoundary (s : State) (p : Nat) : State :=
  let old (e : PfEntry) : Bool := decide (e.part = p) && !e.listed && decide (1 ≤ e.boundaries)
  let s1 := (s.thk.prefetch.filter (fun q => old q.2)).foldl (fun s _ => pfStat s p 3) s
  { s1 with thk.prefetch := (s1.thk.prefetch.filter (fun q => !old q.2)).map (fun q =>
      if q.2.part = p then (q.1, { q.2 with boundaries := q.2.boundaries + 1 }) else q) }

/-- Clearing VALID of a slot: every hot row and prefetch entry of the table goes (R211). -/
def clearSlot (s : State) (p slot : Nat) : State :=
  let mine := s.thk.prefetch.filter (fun q => decide (q.2.part = p) && decide (q.2.slot = slot))
  hotClear (mine.foldl (fun s q => discardPrefetch s q.1) s) p slot

/-- The prefetch entries of a partition discarded by a reset (R224). -/
def clearPrefetch (s : State) (p : Nat) : State :=
  (s.thk.prefetch.filter (fun q => decide (q.2.part = p))).foldl (fun s q => discardPrefetch s q.1) s

/-! ## Row reads in flight (R255) -/

/-- ROW_READ: a read chooses its version and takes a reference or registers in the current epoch. -/
def execRowRead (part : Fin 72) (slot : Fin 256) (base : BitVec 48) (row : BitVec 32) (refresh : Bool) (s : State) : Out :=
  let td := tableDesc s part slot
  let a := base.toNat + row.toNat * tdStride td
  .next (if !tdValid td || decide (tdRows td ≤ row.toNat) then s
  else match (if refresh then chooseVersion s a (tdStride td) else readRow s false part slot a (tdStride td)) with
    | (s1, r, src) =>
      let d := homeDie a
      let s2 := match src with
        | .staged id => modEntry s1 id (fun e => { e with refs := e.refs + 1 })
        | .epoch e => { s1 with rows.readers := sset 0 s1.rows.readers (8 * d + e) (epochReaders s1 d e + 1) }
        | .prefetch _ => s1
      let rd : RowRead := match r with
        | .ok bs => { id := s2.rows.nextRead, die := d, src, len := tdStride td, bytes := bs }
        | .error aux => { id := s2.rows.nextRead, die := d, src, len := tdStride td, bytes := [], poison := some aux }
      { s2 with rows.reads := s2.rows.reads ++ [rd], rows.nextRead := s2.rows.nextRead + 1 })

/-- ROW_READ_COMPLETE: the last line of a read has arrived. -/
def execRowReadComplete (rd : Nat) (s : State) : Out :=
  .next (match s.rows.reads.find? (fun r => decide (r.id = rd)) with
  | none => s
  | some r =>
    let s1 := { s with rows.reads := s.rows.reads.erase r }
    match r.src with
    | .staged id => modEntry s1 id (fun e => { e with refs := e.refs - 1 })
    | .epoch e => { s1 with rows.readers := sset 0 s1.rows.readers (8 * r.die + e) (epochReaders s1 r.die e - 1) }
    | .prefetch _ => s1)

/-! ## Engine fields (R225, Table 14-5) -/

/-- An engine, and one changed. -/
def engineOf (s : State) (e : Nat) : ThkEngine := sget {} s.thk.engines e
def modEngine (s : State) (e : Nat) (f : ThkEngine → ThkEngine) : State := { s with thk.engines := sset {} s.thk.engines e (f (engineOf s e)) }

/-- A reserved encoding in the engine fields of a word with an XOP. -/
def thkBad (xop : Nat) (t : ThkSlot) : Bool := decide (6 < xop) || decide (7 < t.pop.toNat) || decide (5 < t.fmt.toNat) || decide (6 < t.poll.toNat)

/-- The lanes of an accumulator line. -/
def accLine (x : ThkEngine) (n : Nat) : List (BitVec 32) := sget (List.replicate 16 0) x.acc n

/-- The pooling field on a line of lanes; the operand of FMA, the divisor of DIV and the OUT of CVT come from the command and are open. -/
def poolLine (pop fr : Nat) (acc row : List (BitVec 32)) : List (BitVec 32) :=
  acc.zipIdx.map (fun q =>
    let x := lget 0 row q.2
    match pop with
    | 1 => add32 q.1 x
    | 2 => fma32 (BitVec.ofNat 32 fr) x q.1
    | 3 => max32 q.1 x
    | 4 => x
    | 5 => bits32 (fdiv (val32 q.1) (ofInt (1 + fr % 2 ^ 24)))
    | 6 => 0
    | 7 => if bitOf fr 36 then BitVec.ofNat 32 ((convOut 1 false (val32 q.1)).1 <<< 16) else q.1
    | _ => q.1)

/-- Z after POLL: the events that the engine shows; bag ends, invalid indices and credits are not its state and are open. -/
def pollZ (x : ThkEngine) (poll fr : Nat) : Bool :=
  match poll with
  | 0 => x.z
  | 1 => x.idxQueue.isEmpty
  | 2 => x.lineReady
  | 3 => bitOf fr 0
  | 4 => bitOf fr 1
  | 5 => bitOf fr 2
  | _ => bitOf fr 3

/-- The pooling and poll fields of a word at its cycle 0, after the XOP. -/
def thkTail (s : State) (e : Nat) (t : ThkSlot) : State :=
  let fr := Config.freeBits s.free
  let s1 := modEngine s e (fun x =>
    let y := if t.pop = 0 then x else { x with acc := sset (List.replicate 16 0) x.acc (t.acc.toNat % 8192) (poolLine t.pop.toNat fr (accLine x (t.acc.toNat % 8192)) x.rowLine) }
    { y with z := pollZ y t.poll.toNat (fr / 2 ^ 32) })
  { s1 with free := s.free + 1 }

/-- What an engine works for: a task of an instance, or a GATHER command of a ring. -/
inductive EngineWork where
  | task (i : Nat)
  | gather (ring : Nat) (seq : BitVec 64)
  deriving DecidableEq, Repr

/-- The instance whose task an engine runs: the tasks on a die's engines stand on them in ascending instance, node, firing and task. -/
def engineTask (s : State) (eng : Nat) : Option Nat :=
  (s.root.insts.flatMap (fun q => q.2.nodes.flatMap (fun n => n.firings.flatMap (fun f => f.tasks.filterMap (fun t =>
    if t.place = .engine (eng / 16) then some q.1 else none)))))[eng % 16]?

/-- GATHER commands under way in fetch order: decided, with no outcome yet. -/
def gathersNow (s : State) : List Cmd :=
  s.trail.cmds.filter (fun c => c.decided && c.result.isNone && !c.dup && decide (opcodeOf c.entry.toNat = 0x30))

/-- What an engine works for: its task, or else a GATHER under way, taken by its place among the engines. -/
def engineWork (s : State) (eng : Nat) : Option EngineWork :=
  match engineTask s eng with
  | some i => some (.task i)
  | none => ((gathersNow s)[eng]?).map (fun c => .gather c.ring c.seq)

/-- A microcode fault counted in MICRO_FAULTS of a partition. -/
def microFault (s : State) (p : Nat) : State :=
  { s with gr.microFaults := sset 0 s.gr.microFaults p ((sget 0 s.gr.microFaults p + 1) % 2 ^ 32) }

/-- A reserved encoding: a microcode fault of the engine, which ends its command with UNIT_FAULT, CAUSE 0x01 (R225). The rest of AUX has no
rule. Its program stops. -/
def engineFault (s0 : State) (eng : Nat) : State :=
  let s := modEngine s0 eng (fun x => { x with seq.running := false })
  let aux := 2 ^ 24 + Config.freeBits s.free % 2 ^ 24
  match engineWork s eng with
  | none => s
  | some (.task i) => freezeInst (microFault { s with free := s.free + 1 } (((instOf s i).map (·.part)).getD 0)) i stUnitFault aux true .fault
  | some (.gather ring seq) =>
    finish (microFault { s with free := s.free + 1 } (((cmdOf s ring seq).map (·.part)).getD 0)) ring seq ⟨stUnitFault, aux, 0⟩

/-- The row line at an address: header and 16 elements decoded by FMT, by the version that a row read gets. -/
def loadRowLine (s : State) (eng a fmt : Nat) : State :=
  match chooseVersion s a (16 + elemBytes fmt 16) with
  | (s1, .ok bs, _) => modEngine s1 eng (fun x =>
      { x with lineReady := true, rowLine := (List.range 16).map (fun j => rowDecode fmt (leAt bs 8 4) (leAt bs 12 4) (rowElem fmt (bs.drop 16) j)) })
  | (s1, .error _, _) => modEngine s1 eng (fun x => { x with lineReady := false })

/-- What an XOP does at an engine address: 1 IDXLD, 16 indices into the index queue; 2 ROWRD, the next index leaves the queue and its row is
read; 3 HOTLK, whether the row is hot; 4 PFRD, the row read from its prefetch entry if there is one; 5 OUTWR, an accumulator line written;
6 STWR, a status entry of 8 bytes from IMM written (Table 14-5). -/
def thkXop (xop eng : Nat) (t : ThkSlot) (a : Nat) (s : State) : State :=
  match xop with
  | 1 => (match readMem s a 64 with
    | (s1, .ok bs) => modEngine s1 eng (fun x => { x with idxQueue := x.idxQueue ++ (List.range 16).map (fun i => BitVec.ofNat 32 (leAt bs (4 * i) 4)) })
    | (s1, .error _) => s1)
  | 2 => countE (loadRowLine (modEngine s eng (fun x => { x with idxQueue := x.idxQueue.drop 1 })) eng a t.fmt.toNat) 1 eng 0 1
  | 3 => modEngine s eng (fun x => { x with hotHit := (sfind s.thk.hot a).isSome })
  | 4 => if (sfind s.thk.prefetch a).isSome then loadRowLine s eng a t.fmt.toNat else modEngine s eng (fun x => { x with lineReady := false })
  | 5 => writeMem s a ((accLine (engineOf s eng) (t.acc.toNat % 8192)).flatMap (fun x => leBytes 4 x.toNat))
  | 6 => writeMem s a (leBytes 8 t.imm.toNat)
  | _ => s

/-- A word of a Thicket engine (R172, R175, R225): the engine fields act at its cycle 0, NEXT is taken at its end; a reserved encoding is a
microcode fault of the engine. -/
def thkWord (eng xop : Nat) (t : ThkSlot) (s : State) : State :=
  if thkBad xop t then engineFault s eng
  else
    let s1 := thkTail (thkXop xop eng t (lget 0 (engineOf s eng).eregs t.ereg).toNat s) eng t
    match pacedNext 1 (engineOf s1 eng).seq (engineOf s1 eng).z t.next t.target.toNat with
    | none => engineFault s1 eng
    | some q => modEngine s1 eng (fun x => { x with seq := q })

/-- The engine fields and NEXT of a word of control store 1, with its XOP. -/
def thkFields (b : BitVec 256) : Nat × ThkSlot :=
  let w := b.toNat
  (field w 223 216,
   { pop := BitVec.ofNat 8 (field w 215 208), fmt := BitVec.ofNat 4 (field w 207 204), ereg := Fin.ofNat 8 (field w 202 200),
     poll := BitVec.ofNat 8 (field w 199 192), acc := BitVec.ofNat 16 (field w 191 176), imm := BitVec.ofNat 64 (field w 63 0),
     len := Fin.ofNat 16 (field w 253 250), next := Fin.ofNat 16 (field w 249 246), target := BitVec.ofNat 14 (field w 245 232) })

/-- A running Thicket sequencer fetches a word and runs it. -/
def thkStep (s : State) (eng : Nat) : State :=
  if !(engineOf s eng).seq.running then s
  else
    let (b, q) := pacedFetch s 1 eng (engineOf s eng).seq
    let (xop, t) := thkFields b
    thkWord eng xop t (modEngine s eng (fun x => { x with seq := q }))

/-- IDXLD: 16 indices from the engine address into the index queue. -/
def execIdxld (eng : Fin 96) (t : ThkSlot) (s : State) : Out := .next (thkWord eng 1 t s)
/-- ROWRD: the next index leaves the queue and its row, at the engine address, is read. -/
def execRowrd (eng : Fin 96) (t : ThkSlot) (s : State) : Out := .next (thkWord eng 2 t s)
/-- HOTLK: whether the row at the engine address is hot. -/
def execHotlk (eng : Fin 96) (t : ThkSlot) (s : State) : Out := .next (thkWord eng 3 t s)
/-- PFRD: the row at the engine address read from its prefetch entry, if there is one. -/
def execPfrd (eng : Fin 96) (t : ThkSlot) (s : State) : Out := .next (thkWord eng 4 t s)
/-- OUTWR: an accumulator line written at the engine address. -/
def execOutwr (eng : Fin 96) (t : ThkSlot) (s : State) : Out := .next (thkWord eng 5 t s)
/-- STWR: a status entry of 8 bytes, from IMM, written at the engine address. -/
def execStwr (eng : Fin 96) (t : ThkSlot) (s : State) : Out := .next (thkWord eng 6 t s)

/-! ## Patch switches (R179) -/

/-- A sequencer of a kind runs a task, a gather or a program: a Thicket sequencer switches between gathers, a memory sequencer between
refresh intervals, which no program of the model spans. -/
def unitBusy (s : State) (kind u : Nat) : Bool :=
  match kind with
  | 0 => s.gr.cores.any (fun q => decide (q.1 / 64 = u))
  | 1 => (engineOf s u).seq.running || (engineTask s u).isSome
  | _ => (mport s u).seq.running

/-- The sequencer may switch now: for groves, at most 4 of each die at once, in ascending order, so one of the four lowest that remain. -/
def mayApply (s : State) (kind u : Nat) : Bool :=
  let l := lget [] s.gr.micro.switching kind
  l.contains u && !unitBusy s kind u &&
  (decide (kind ≠ 0) || switchingNow s u)

/-- PATCH_SWITCH: a sequencer whose tasks have retired takes the new patch set. -/
def execPatchSwitch (kind : Fin 3) (unit : Nat) (s : State) : Out :=
  .next (if mayApply s kind unit then
    { s with gr.micro.switching := lset s.gr.micro.switching kind ((lget [] s.gr.micro.switching kind).filter (· ≠ unit)),
             gr.micro.former := lset s.gr.micro.former kind (((lget [] s.gr.micro.former kind).map (fun q => (q.1, q.2.filter (· ≠ unit)))).filter
               (fun q => !q.2.isEmpty)) }
  else s)

end Sys2Proof.Machine
end

