-- ==== Sys2Proof/Machine/Flags.lean ====
section
/-! DEFINITION. Event flags: when a source is eligible, what a delivery does, masks and hold-offs (R84–R89). -/
namespace Sys2Proof.Machine

/-- The hold-off group of a source (Table 5-4). -/
def evGroup (s : State) (src : Nat) : Nat := field (evConfig s src) 7 2

/-- TARGET of a route (Table 5-3). -/
def routeTarget (r : Nat) : Nat := field r 2 0

/-- The function of a host port that a route names, as 73 × port + function. -/
def routeFn (r : Nat) : Nat := 73 * (routeTarget r - 3) + field r 10 3

/-- A Warden of the primary island. -/
def wardenAt (s : State) (w : Nat) : Warden := lget {} s.und.wardens w

/-- A route can issue (R84): a host function with MSI-X enabled, or a Warden that is not halted. -/
def canIssue (s : State) (r : Nat) : Bool :=
  match routeTarget r with
  | 1 => !(wardenAt s 0).halted
  | 2 => !(wardenAt s 1).halted
  | 3 | 4 => s.ev.msixEnable.contains (routeFn r)
  | _ => false

/-- A group is held off for a target (R89): not in the very cycle in which another target was served. -/
def heldFor (s : State) (g target : Nat) : Bool :=
  match sfind s.ev.held g with
  | none => false
  | some h => !(decide (h.since = s.time.clock) && !h.targets.contains target)

/-- A source is eligible apart from its hold-off (R84, R88). -/
def ready (s : State) (src : Nat) : Bool :=
  s.ev.pending.getLsbD src && !bitOf (evConfig s src) 0 && !s.ev.inService.getLsbD src &&
  (decide (src < 0x200) || s.ev.met.contains src) && canIssue s (evRoute s src)

/-- The burst of the source's group leaves it out: its number is not above the last one delivered on its target (R89). -/
def pastBurst (s : State) (src : Nat) : Bool :=
  match sfind s.ev.bursts (evGroup s src) with
  | none => false
  | some b => (sfind b.last (routeTarget (evRoute s src))).any (fun n => decide (src ≤ n))

/-- A source is eligible (R84). -/
def eligible (s : State) (src : Nat) : Bool :=
  ready s src && !heldFor s (evGroup s src) (routeTarget (evRoute s src)) && !pastBurst s src

/-- The eligible source with the lowest number routed to a target (R84, R86). -/
def bestFor (s : State) (target : Nat) : Option Nat :=
  firstBelow (fun n => s.ev.pending.getLsbD n && decide (routeTarget (evRoute s n) = target) && eligible s n) 1024

/-- HOLDOFF of a group, in ns (R81, R89). -/
def holdoff (s : State) (g : Nat) : Nat := 1000 * dparam s 0x1128 (g + 1)

/-- A source of the group is still to be delivered in its burst (R89). -/
def burstLeft (s : State) (g : Nat) : Bool :=
  (firstBelow (fun n => s.ev.pending.getLsbD n && decide (evGroup s n = g) && ready s n && !pastBurst s n) 1024).isSome

/-- A burst with nothing left to deliver ends: the hold-off runs again from its last delivery; a burst that delivered nothing leaves the
group open (R89). -/
def settleBurst (s : State) (g : Nat) : State :=
  match sfind s.ev.bursts g with
  | none => s
  | some b =>
    if burstLeft s g then s
    else
      let s1 := { s with ev.bursts := sdel s.ev.bursts g }
      match b.at_ with
      | some t => if holdoff s g = 0 then s1 else { s1 with ev.held := sput s1.ev.held g ⟨t, t + holdoff s g, b.targets⟩ }
      | none => s1

/-- Every burst that is over ends. -/
def settleBursts (s : State) : State := s.ev.bursts.foldl (fun s q => settleBurst s q.1) s

/-- A delivery in a group: it goes on with the burst that runs, or starts a hold-off when HOLDOFF is not 0; deliveries of one cycle on
several targets are one (R89). -/
def holdGroup (s : State) (g src target : Nat) : State :=
  match sfind s.ev.bursts g with
  | some b =>
    let ts := if b.at_ = some s.time.clock then target :: b.targets else [target]
    settleBurst { s with ev.bursts := sput s.ev.bursts g { last := sput b.last target src, at_ := some s.time.clock, targets := ts } } g
  | none =>
    if holdoff s g = 0 then s
    else
      let h : Held := match sfind s.ev.held g with
        | some h => if h.since = s.time.clock then { h with targets := target :: h.targets } else ⟨s.time.clock, s.time.clock + holdoff s g, [target]⟩
        | none => ⟨s.time.clock, s.time.clock + holdoff s g, [target]⟩
      { s with ev.held := sput s.ev.held g h }

/-- A delivery clears PENDING and restarts coalescing (R84, R88), and moves the group's hold-off (R89). -/
def delivered (s : State) (src target : Nat) : State :=
  let s1 := clearPending s src
  holdGroup { s1 with ev.late := s1.ev.late.filter (fun l => l.src ≠ src) } (evGroup s src) src target

/-- A vector or function is masked through the MSI-X table (R85). -/
def vectorMasked (s : State) (fn vec : Nat) : Bool :=
  s.ev.fnMask.contains fn || !s.ev.vecUnmasked.contains (320 * fn + vec)

/-- The MSI-X message of a source over a route: sent, or held as the vector's bit of the Pending Bit Array (R85). -/
def issueMsix (s : State) (route : Nat) : State :=
  if vectorMasked s (routeFn route) (field route 21 11) then { s with ev.pba := insertNat s.ev.pba (320 * routeFn route + field route 21 11) }
  else { s with ev.sent := ⟨routeTarget route - 3, field route 10 3, field route 21 11⟩ :: s.ev.sent }

/-- A vector's message is held in the Pending Bit Array: masked, or its function's MSI-X is not enabled (R85). -/
def pbaHeld (s : State) (k : Nat) : Bool := vectorMasked s (k / 320) (k % 320) || !s.ev.msixEnable.contains (k / 320)

/-- Vectors of the Pending Bit Array that nothing holds any longer are sent, one message each (R85). DESIGN CHOICE (log entry 35): in
ascending order of port, function and vector; the spec gives none. -/
def flushPba (s : State) : State :=
  { s with ev.pba := s.ev.pba.filter (pbaHeld s),
           ev.sent := ((s.ev.pba.filter (fun k => !pbaHeld s k)).map (fun k => (⟨k / 320 / 73, k / 320 % 73, k % 320⟩ : Msix))).reverse ++ s.ev.sent }

/-- The sources that the arbiters of the four targets have selected (R84, R86). -/
def selected (s : State) : List Nat := [1, 2, 3, 4].filterMap (bestFor s)

/-- A source that the arbiter has selected as a mask or route write takes effect may still be delivered once, over its old route,
within 4 management cycles (R87). -/
def keepSelected (s : State) (src : Nat) : State :=
  if bestFor s (routeTarget (evRoute s src)) = some src
  then { s with ev.late := ⟨src, evRoute s src, s.time.clock + 20⟩ :: s.ev.late } else s

/-- MASK of a source written: the same bit as EV_CONFIG bit 0 (R86). -/
def setMask (s : State) (src : Nat) (on : Bool) : State :=
  setParam s (0x1118 + src / 128) (src % 128 + 1) devInst (putBit (evConfig s src) 0 on)

/-- The MASK bits of 32 sources written from a word of the MASK bitmap (Table 5-6). A source that the store masks keeps the selection that
it had before the store (R87). -/
def setMaskWord (s : State) (word val : Nat) : State :=
  let cut := (selected s).filter (fun n => decide (n / 32 = word) && bitOf val (n % 32))
  (List.range 32).foldl (fun s k => setMask s (32 * word + k) (bitOf val k)) (cut.foldl keepSelected s)

/-- The PENDING bits that a word of the PENDING bitmap clears (Table 5-6). -/
def clearPendingWord (s : State) (word val : Nat) : State :=
  (List.range 32).foldl (fun s k => if bitOf val k then clearPending s (32 * word + k) else s) s

/-- EV_EOI: IN_SERVICE of the named source is cleared (R86). -/
def endOfEvent (s : State) (val : Nat) : State :=
  { s with ev.inService := bit1024 s.ev.inService (field val 9 0) false }

/-- A group's hold-off ends: its sources that are eligible apart from the hold-off form a burst, which the delivery engines of the ports
and the Wardens take one source a cycle in ascending order; a group with nothing to deliver is open (R89). -/
def openGroup (s : State) (g : Nat) : State :=
  if holdoff s g = 0 then { s with ev.held := sdel s.ev.held g, ev.bursts := sdel s.ev.bursts g }
  else settleBurst { s with ev.held := sdel s.ev.held g, ev.bursts := sput s.ev.bursts g {} } g

/-- A source taken by a Warden's EVENT trap: PENDING clears, IN_SERVICE sets (R86). -/
def takeByWarden (s : State) (w src : Nat) : State :=
  let s1 := delivered s src (w + 1)
  { s1 with ev.inService := bit1024 s.ev.inService src true, ev.lastTaken := lset s.ev.lastTaken w src }

/-- Every source that was PENDING or IN_SERVICE is PENDING on a new primary (chapter 5, crossings). -/
def eventsTakeover (s : State) : State :=
  let again := (List.range 512).map (0x200 + ·) |>.filter (fun n => s.ev.inService.getLsbD n)
  { s with ev.pending := s.ev.pending ||| s.ev.inService, ev.inService := 0, ev.late := [],
           ev.met := again.foldl (fun l n => insertNat l n) s.ev.met }

/-- PENDING cleared on every source routed to a function, with its coalesced count (chapter 5, crossings). -/
def clearRouted (s : State) (fn : Nat) : State :=
  (List.range 1024).foldl (fun s n =>
    if s.ev.pending.getLsbD n && decide (3 ≤ routeTarget (evRoute s n)) && decide (routeTarget (evRoute s n) ≤ 4) &&
      decide (routeFn (evRoute s n) = fn) then clearPending s n else s) s

/-- A Warden's restart: its sources IN_SERVICE become PENDING again (R72, chapter 5, crossings). -/
def releaseWarden (s : State) (w : Nat) : State :=
  (List.range 1024).foldl (fun s n =>
    if s.ev.inService.getLsbD n && decide (routeTarget (evRoute s n) = w + 1)
    then { s with ev.inService := bit1024 s.ev.inService n false, ev.pending := bit1024 s.ev.pending n true,
                  ev.met := if 0x200 ≤ n then insertNat s.ev.met n else s.ev.met } else s) s

end Sys2Proof.Machine
end

