-- ==== Sys2Proof/Machine/Understory.lean ====
section
/-! DEFINITION. The management islands, takeover, Warden restart, and the management pins (R64–R66, R71, R72, R74–R79). -/
namespace Sys2Proof.Machine

/-! ## Sessions -/

/-- A session's open transactions discarded by a reset or failover: its next operation returns TXN_LOST (R42, Table 3-7). -/
def discardSession (s : State) (w : Session) : State :=
  if s.dir.txns.any (fun t => t.owner = w) then
    { s with dir.txns := s.dir.txns.filter (fun t => t.owner ≠ w), dir.lost := w :: s.dir.lost }
  else s

/-- Every open transaction discarded. -/
def discardAll (s : State) : State :=
  { s with dir.lost := s.dir.txns.map (·.owner) ++ s.dir.lost, dir.txns := [] }

/-! ## Wardens -/

/-- A Warden's state changed. -/
def modWarden (s : State) (w : Nat) (f : Warden → Warden) : State :=
  { s with und.wardens := lset s.und.wardens w (f (wardenAt s w)) }

/-- A Warden halts at a double trap (R71): the record, WARDEN_HALTED, and its session as under FLR. DEDUCED (log entry 95): WARDEN_HALTED
reaches the peer Warden over its EV_ROUTE, like every other source, and TARGET 0 leaves it pending; the record holds the cause, PC and
information of the second trap, and the TRAP_ registers keep those of the first. -/
def haltWarden (s : State) (w : Nat) (cause : Nat) (pc info : BitVec 32) : State :=
  let s1 := modWarden s w (fun x => { x with halted := true })
  let s2 := record s1 0x0010 0 0xFF 0xFF (w + (cause <<< 8) + (pc.toNat <<< 32) + (info.toNat <<< 64))
  discardSession (raise s2 w) (.warden (if w = 0 then 0 else 1))

/-- A Warden's restart (R72): store buffer and control registers at their defaults, SRAM and registers kept, execution at the reset
vector; its sources IN_SERVICE become PENDING. -/
def restartWarden (s : State) (w : Nat) : State :=
  let s1 := modWarden s w (fun x =>
    { x with wptr := 0, wres := 1, spilled := 0, spillPtr := 0x1007C000, spillLimit := 0x10080000, trapPc := 0,
             trapWptr := 0, trapCause := 0, trapInfo := 0, pc := Config.wardenResetVector, halted := false, stores := [] })
  releaseWarden { s1 with und.restarts := lset s.und.restarts w (lget 0 s.und.restarts w + 1) } w

/-- WARDEN_STATE (Table 4-1). -/
def wardenState (s : State) : Nat := bitAt (wardenAt s 0).halted 0 + bitAt (wardenAt s 1).halted 1

/-! ## Management pins -/

/-- Committed MIO_FUNC of a pin (R74). -/
def mioCommitted (s : State) (pin : Nat) : Nat := dparam s 0x1000 (pin + 1)

/-- The function signal of a pin under a setting (Table 4-5a): a number for each signal, none for GPIO and off. -/
def mioSignal (pin setting : Nat) : Option Nat :=
  if setting = 0 then (if pin < 37 then some pin else none)
  else if setting = 1 then
    (if pin = 37 then some 25 else if pin = 38 then some 26 else if pin = 39 then some 39 else none)
  else none

/-- A setting a pin has: F1 exists on MIO37–MIO39 alone (R75). -/
def mioHas (pin setting : Nat) : Bool := decide (setting ≠ 1) || decide (37 ≤ pin)

/-- The MIO_ABORTS bit of the controller behind a signal (Table 4-6). -/
def mioController (sig : Nat) : Option Nat :=
  if sig < 6 then some 6 else if sig < 8 then some 0 else if sig < 10 then some 1
  else if sig < 18 then some (2 + (sig - 10) / 2) else if sig < 23 then some 7
  else if sig < 25 then some 8 else if sig < 27 then some 9 else none

/-- The signal is an output of the device. -/
def sigOutput (sig : Nat) : Bool :=
  sig < 6 || [6, 8, 18, 19, 20, 21, 23, 25, 27, 28, 29, 30, 36].contains sig

/-- The idle level of an output signal (R78); I2C outputs are released. DESIGN CHOICE (log entry 97): R78 does not list SPI0's IO0–IO3 and
SPI1's MOSI; they are outputs that idle at 0. -/
def sigIdle (sig : Nat) : Bool := [1, 6, 8, 19, 20, 23, 25, 27, 28, 29, 30].contains sig

/-- The level an input sees while it is idle (R78). -/
def sigIdleIn (sig : Nat) : Bool :=
  decide (10 ≤ sig) && decide (sig < 18) || [7, 9, 24, 26, 39].contains sig

/-- A pin's output enable under a setting, when its function drives freely. -/
def mioEnable (s : State) (pin setting : Nat) : Bool :=
  match setting with
  | 2 => bitOf (dparam s 0x1002 2) pin
  | 3 => false
  | f => match mioSignal pin f with
    | some g => sigOutput g
    | none => setting = 0 && decide (37 ≤ pin) && bitOf (dparam s 0x1002 2) pin

/-- Whether a pin is a GPIO under a setting: F0 of MIO37–MIO39 is GPIO (Table 4-5a). -/
def isGpio (pin setting : Nat) : Bool := decide (setting = 2) || (decide (setting = 0) && decide (37 ≤ pin))

/-- What a pin drives (R76–R78): the latched level from the commit edge to cycle 1 of a switch, the idle level in cycles 2 and 3, the function
after; none where nothing is driven. PPS_OUT pulses for the first 100 ms of each whole second while PPS_OUT_EN is 1 (R328). DESIGN CHOICE
(log entry 97): the level that another function's output drives freely is what the controller shifts out, which no command carries; it is
taken as the pin's bit of `mioIn`. -/
def mioDrive (s : State) (pin : Nat) : Option Bool :=
  let free := fun (f : Nat) =>
    if isGpio pin f then (if bitOf (dparam s 0x1002 2) pin then some (bitOf (dparam s 0x1002 1) pin) else none)
    else match mioSignal pin f with
      | some g =>
        if g = 36 then some (decide (dparam s 0x7001 5 = 1) && decide (s.time.dev % 1000000000 < 100000000))
        else if sigOutput g then some (bitOf s.und.mioIn pin) else none
      | none => none
  match sfind s.und.mioSwitch pin with
  | some w =>
    if w.cycle < 2 then (if w.enable then some w.level else none)
    else if w.cycle < 4 then
      (if isGpio pin w.new then free w.new
       else match mioSignal pin w.new with
        | some g => if sigOutput g then some (sigIdle g) else none
        | none => none)
    else free w.new
  | none => match sfind s.und.mioLatch pin with
    | some l => if l.enable then some l.level else none
    | none => free (lget 3 s.und.mioFunc pin)

/-- What the function on a pin sees (R76): its idle level until cycle 5 of a switch, the pin after; off reads 0 (R74). -/
def mioSees (s : State) (pin : Nat) : Bool :=
  match sfind s.und.mioSwitch pin with
  | some w => (match mioSignal pin w.new with
    | some g => sigIdleIn g
    | none => false)
  | none => if lget 3 s.und.mioFunc pin = 3 then false
    else match mioDrive s pin with
      | some b => b
      | none => bitOf s.und.mioIn pin

/-- What a pin of an island drives: the standby keeps every output disabled (R64). -/
def islandDrive (s : State) (die pin : Nat) : Option Bool := if die = s.und.primary then mioDrive s pin else none

/-- The pull on a pin of an island: 0 none, 1 up, 2 down. Both islands apply the configured pulls (R64); DORMANT leaves the standby
unpowered. -/
def islandPull (s : State) (die pin : Nat) : Nat :=
  if die = s.und.primary ∨ s.power.mode ≠ .dormant then lget 1 s.und.mioPull pin else 0

/-- The CAN FD controllers of an island are listen-only: those of the standby always (R64), those of the primary by R57. -/
def islandListens (s : State) (die : Nat) : Bool := decide (die ≠ s.und.primary) || s.fieldBus.listenOnly

/-- GPIO_IN (Table 4-6): the synchronised pin levels; a pin that is off reads 0. -/
def gpioIn (s : State) : Nat :=
  (List.range 40).foldl (fun a p => a + bitAt (mioSees s p) p) 0

/-- A transfer that a pin's old function has in progress is aborted (R77): its controller is idle, MIO_ABORTS and MIO_ABORT tell it, and its
owner gets an aborted status. A frame that a field bus has to send counts as one in progress; of the other controllers `busy` says it. -/
def mioAbort (s : State) (pin old : Nat) (busy : Bool) : State :=
  match (mioSignal pin old).bind mioController with
  | none => s
  | some c =>
    if busy || (decide (c < 2) && s.fieldBus.out.any (fun o => o.bus.val = c)) then
      let out := if c < 2 then
          (match s.fieldBus.out.findIdx? (fun o => o.bus.val = c) with
            | some k => s.fieldBus.out.eraseIdx k
            | none => s.fieldBus.out)
        else s.fieldBus.out
      raise { s with und.mioAborts := s.und.mioAborts ||| (1 <<< c), und.mioAborted := c :: s.und.mioAborted, fieldBus.out := out } 0x010
    else s

/-- What the hold latch of a pin captures: the pin's level and output enable (Table 4-5). -/
def latchOf (s : State) (pin : Nat) : MioLatch :=
  match mioDrive s pin with
  | some b => ⟨b, true⟩
  | none => ⟨bitOf s.und.mioIn pin, false⟩

/-- The commit edge of a pin's function (R76): the hold latch captures the pin as it was before the commit. -/
def latchPin (s0 s : State) (pin : Nat) : State := { s with und.mioLatch := sput s.und.mioLatch pin (latchOf s0 pin) }

/-- The committed pull of a pin comes into force (Table 4-6). -/
def applyPull (s : State) (pin : Nat) : State :=
  { s with und.mioPull := lset s.und.mioPull pin (field (dparam s 0x1001 (pin + 1)) 1 0) }

/-- Cycle 0 of a pin switch (R76, Table 4-5): the old function is disconnected, the latch holds the pin as it was at the commit edge, and the
new pull applies. -/
def startSwitch (s : State) (pin new : Nat) (busy : Bool) : State :=
  let old := lget 3 s.und.mioFunc pin
  let l := latchOf s pin
  let s1 := applyPull (mioAbort s pin old busy) pin
  { s1 with und.mioSwitch := sput s1.und.mioSwitch pin ⟨0, l.level, l.enable, old, new⟩,
            und.mioLatch := sdel s1.und.mioLatch pin,
            und.mioFunc := lset s1.und.mioFunc pin new }

/-- A pin whose committed function is not yet in force starts its switch. -/
def applyPin (s : State) (pin : Nat) (busy : Bool) : State :=
  if lget 3 s.und.mioFunc pin = mioCommitted s pin then { s with und.mioLatch := sdel s.und.mioLatch pin }
  else startSwitch s pin (mioCommitted s pin) busy

/-- Every pin takes its committed function and pull, from off: start-up and takeover (R66, R106). -/
def applyPins (s : State) : State := (List.range 40).foldl (fun s p => applyPull (applyPin s p false) p) s

/-- One management cycle of the pin switches: after cycle 5 the new function has the pin (Table 4-5). -/
def tickPins (s : State) : State :=
  let live := s.und.mioSwitch.filter (fun p => decide (p.2.cycle < 4))
  { s with und.mioSwitch := live.map (fun p => (p.1, { p.2 with cycle := p.2.cycle + 1 })) }

/-- The pins of field bus A or B under F0 (Table 4-5a). -/
def fieldPins (bus : Nat) : List Nat := if bus = 0 then [6, 7] else [8, 9]

/-- MIO_FUNC_SWITCH: the switch of a pin whose committed function changed (R76). A deferred pin waits (R79). -/
def execMioFuncSwitch (sw : PinSwitch) (s : State) : Out :=
  .next (if s.und.mioDeferred.any (fun d => d.1 = sw.pin.val) then s else applyPin s sw.pin sw.busy)

/-- The response that a committed rate or pin switch waits for has still to be sent (R54, R79, Table 3-7a). -/
def responseWaits (s : State) : Bool :=
  match s.fieldBus.carrying with
  | none => false
  | some (b, dst, xfer) => s.fieldBus.out.any (fun o => decide (o.bus = b) && decide (field o.id.toNat 25 23 = 1) &&
      decide (field o.id.toNat 22 16 = dst) && decide (field o.id.toNat 8 0 = xfer))

/-- FIELD_PIN_SWITCH_DEFERRED: the pins that carried the commit switch once its response is sent, or 5 ms after it (R79). -/
def execFieldPinSwitchDeferred (s : State) : Out :=
  let due := s.und.mioDeferred.filter (fun d => !responseWaits s || decide (d.2 + 5000000 ≤ s.time.clock))
  .next (due.foldl (fun s d => applyPin s d.1 false)
    { s with und.mioDeferred := s.und.mioDeferred.filter (fun d => !(!responseWaits s || decide (d.2 + 5000000 ≤ s.time.clock))) })

/-! ## Islands -/

/-- LIVENESS_BEACON: the primary's beacon reaches the standby (R65). -/
def execLivenessBeacon (s : State) : Out :=
  .next (if s.und.standbyOk then { s with und.lastBeacon := s.time.clock } else s)

/-- Whether a takeover's cause holds (R65). -/
def takeoverDue (s : State) (c : TakeoverCause) : Bool :=
  s.und.standbyOk && (match c with
    | .beaconLoss => decide (s.und.lastBeacon + 50000 ≤ s.time.clock)
    | .bothHalted => decide (wardenState s = 3)
    | .roleSwap => s.und.roleSwapPending)

/-- The die index of a Seedbank copy: 0 D0, 1 D3. -/
def copyOf (die : Nat) : Nat := if die = 0 then 0 else 1

/-- The field buses start: listen-only until announced, with the strapped node ID (R57, R66). -/
def startField (s : State) : State :=
  let bad := nodeId s = 0 || nodeId s = 0x7F
  { s with fieldBus.started := true, fieldBus.announced := false, fieldBus.rx := [], fieldBus.tx := [],
           fieldBus.nodeInvalid := s.fieldBus.nodeInvalid || bad,
           fieldBus.listenOnly := bad || s.fieldBus.conflicted,
           fieldBus.arbRate := dparam s 0x0030 1, fieldBus.dataRate := dparam s 0x0030 2, fieldBus.ratePending := false, fieldBus.carrying := none }

/-- A takeover (R65, R66): roles change, open transactions are lost, events carry over, pins switch from off, the field bus starts, and the
counts of the second in progress are lost (R333). -/
def takeover (s : State) : State :=
  let np := if s.und.primary = 0 then 3 else 0
  let s1 := discardAll s
  let s2 := { s1 with
    und.primary := np, und.failovers := s.und.failovers + 1, und.standbyOk := false, und.takingOver := false,
    und.roleSwapPending := false, und.formerRestarting := true,
    und.wardens := s.und.standby, und.standby := s.und.wardens,
    und.mioFunc := List.replicate 40 3, und.mioSwitch := [], und.mioLatch := [], und.mioDeferred := [],
    seed.copyOk := lset [false, false] (copyOf np) true, look.now := [], look.failover := true,
    fieldBus := { arbRate := s.fieldBus.arbRate, dataRate := s.fieldBus.dataRate, nodeConflict := s.fieldBus.nodeConflict, nodeInvalid := s.fieldBus.nodeInvalid,
                  conflicted := s.fieldBus.conflicted, frameIgnored := s.fieldBus.frameIgnored, sent := s.fieldBus.sent } }
  raise (startField (eventsTakeover (applyPins s2))) 0x002

/-- ISLAND_SELF_TEST: the former primary rejoins as standby, or stays halted with ISLAND_FAILED (R66). -/
def execIslandSelfTest (pass : Bool) (s : State) : Out :=
  .next (if s.und.formerRestarting then
      let other := if s.und.primary = 0 then 3 else 0
      if pass then
        { s with und.formerRestarting := false, und.standbyOk := true, und.lastBeacon := s.time.clock, und.islandFailed := false,
                 und.standby := [{}, {}], seed.copyOk := [true, true] }
      else
        raise (record { s with und.formerRestarting := false, und.islandFailed := true } 0x0011 0 0xFF 0xFF other) 0x006
    else s)

end Sys2Proof.Machine
end

