-- ==== Sys2Proof/Machine/Resets.lean ====
section
/-!
DEFINITION. Resets: partition resets, the port resets of R350, FLR, cold and warm resets and power loss, and what each clears and keeps
(R119–R122, R349, R350).
-/
namespace Sys2Proof.Machine

/-! ## Commands that a reset ends -/

/-- Commands chosen by a test that have no outcome end with ABORTED_RESET. -/
def abortCmds (s : State) (sel : Cmd → Bool) : State :=
  (s.trail.cmds.filter (fun c => sel c && c.result.isNone)).foldl (fun s c => finish s c.ring c.seq ⟨stAborted, 0, 0⟩) s

/-- The records of chosen commands with an outcome are written, in fetch order (R120, R122). -/
def flushRecords (s : State) (sel : Cmd → Bool) : State :=
  (s.trail.cmds.filter sel).foldl (fun s c => completeOne s c.ring c.seq) s

/-- Chosen commands abort with no completion written; Lookout counts them as aborted (R120, R350). -/
def dropCmds (s : State) (sel : Cmd → Bool) : State :=
  (s.trail.cmds.filter sel).foldl (fun s c =>
    lkEnd { s with trail.cmds := s.trail.cmds.erase c } (opcodeOf c.entry.toNat) c.cls c.part c.arrival c.dup stAborted 0 c.overFabric false c.switched) s

/-- Fabric operations of the commands of chosen rings answer to nobody any longer. -/
def orphanOps (s : State) (sel : Nat → Bool) : State :=
  { s with fab.out := s.fab.out.map (fun o => match o.owner with
      | .cmd r _ => if sel r then { o with owner := .other } else o
      | _ => o) }

/-- RING_CFG of a device ring back at its default of all zero, and the ring OFF with every counter 0 (R120, R350). -/
def dropRing (s : State) (dev : Nat) : State :=
  match ringOf s dev with
  | some r => forgetRing (clearParam s (0x2100 + r.loc / 128) (r.loc % 128 + 1) r.part) dev
  | none => s

/-! ## Partition reset (R120) -/

/-- Partition-scoped RW parameters that a partition reset keeps: TABLE_DESC, MODEL_TABLE, QLAYER, CHECK_CFG (R120). -/
def keptAtPartReset (idx : Nat) : Bool :=
  decide (idx = 0x2410) || decide (idx = 0x3410) || decide (idx = 0x3810) || decide (idx = 0x3811) || decide (idx = 0x6002)

/-- Committed values that survive, by access and scope: a test on index and definition. -/
def keepParams (s : State) (keep : Nat → Nat → ParamDef → Bool) : State :=
  { s with dir.params := s.dir.params.filter (fun q =>
      match findParam (q.1 / 65536) (q.1 / 256 % 256) with
      | some d => keep (q.1 / 65536) (q.1 % 256) d
      | none => false) }

/-- Events of a partition: its PART_ERROR and PART_NOTICE, and the completion sources that only its rings use. -/
def clearPartEvents (s : State) (p : Nat) : State :=
  let mine := (s.trail.rings.filter (fun q => decide (q.2.part = p))).map (fun q => q.2.source)
  let others := (s.trail.rings.filter (fun q => decide (q.2.part ≠ p))).map (fun q => q.2.source)
  ((mine.filter (fun x => !others.contains x)).map (0x200 + ·)).foldl clearPending
    (clearPending (clearPending s (0x154 + 2 * p)) (0x155 + 2 * p))

/-- Tokens of other devices that wait for a partition are discarded, with what is known of their tickets. -/
def dropStaging (s : State) (p : Nat) : State :=
  openStaging { s with root.staging := s.root.staging.filter (fun t => decide (t.part ≠ p)), fb.provRx := s.fb.provRx.filter (fun t => decide (t.part ≠ p)) }

/-- Stands, lists and switches of a partition: every stand FREE, a slot in LOADING EMPTY (R120, R145). -/
def dropStands (s : State) (p : Nat) : State :=
  let s1 := (s.stands.switches.filter (fun w => decide (w.part = p) && w.loading)).foldl (fun s w => setSlot s p w.new 0) s
  { s1 with stands.stands := s1.stands.stands.filter (fun q => decide (q.2.part ≠ p)), stands.lists := sdel s1.stands.lists p,
            stands.switches := s1.stands.switches.filter (fun w => decide (w.part ≠ p)), stands.flipped := s1.stands.flipped.filter (· ≠ p),
            stands.due := s1.stands.due.filter (· ≠ p) }

/-- A partition reset (R120). `silent`: under an FLR no completion is written; otherwise each command gets ABORTED_RESET. -/
def partReset (s0 : State) (p : Nat) (silent : Bool) : State :=
  let mine (c : Cmd) : Bool := decide (c.part = p)
  let s := clearPartEvents s0 p
  let s1 := abortCmds (abortPartition s p) (fun c => mine c && !silent)
  let s2 := if silent then dropCmds s1 mine else flushRecords s1 mine
  let rings := (s2.trail.rings.filter (fun q => decide (q.2.part = p))).map (·.1)
  let s3 := rings.foldl dropRing (orphanOps s2 (fun r => rings.contains r))
  let s4 := clearPrefetch (discardFilling (dropStaging (dropStands s3 p) p) (fun q => decide (q = p))) p
  keepParams s4 (fun idx inst d => !(d.perPart && decide (d.acc = .rw) && decide (inst = p)) || keptAtPartReset idx)

/-! ## Ports and functions (R120, R350) -/

/-- The rings whose committed RING_CFG names FUNCTION 0 and a port (R350): partition and local number. -/
def pfRings (s : State) (port : Nat) : List (Nat × Nat) :=
  (s.dir.params.filter (fun q => decide (0x2100 ≤ q.1 / 65536) && decide (q.1 / 65536 ≤ 0x211F) && decide (cf q.2 27 26 = 0) && decide (field q.2 201 201 = port))).map
    (fun q => (q.1 % 256, 128 * (q.1 / 65536 - 0x2100) + (q.1 / 256 % 256 - 1)))

/-- RING_CFG of a local ring back at its default of all zero, and the ring OFF with every counter 0 (R350). -/
def zeroRing (s : State) (p l : Nat) : State :=
  forgetRing (clearParam s (0x2100 + l / 128) (l % 128 + 1) p) (ringFirst s p + l)

/-- The rings of a port's PF end with nothing written (R350). A pending step of theirs is gone, and the park or close that waited for it takes
effect (R144). -/
def dropPfRings (s : State) (port : Nat) : State :=
  let pls := pfRings s port
  let rings := pls.map (fun q => ringFirst s q.1 + q.2)
  let mine (c : Cmd) : Bool := rings.contains c.ring
  let s1 := (s.trail.cmds.filter mine).foldl (fun s c => match instanceOfRun s c.ring c.seq with
    | some i => freezeInst s i stAborted 0 false .plain
    | none => s) s
  let gone := (s1.stands.stands.filter (fun q => rings.contains q.2.ring && q.2.stepPending && !q.2.listed)).map (·.1)
  let s2 := { s1 with root.requests := s1.root.requests.filter (fun q => match q.owner with
      | .run r _ => !rings.contains r
      | .list _ => true),
                      rows.waiting := s1.rows.waiting.filter (fun w => !rings.contains w.ring),
                      rows.staged := s1.rows.staged.filter (fun e => !(rings.contains e.ring && decide (e.state = .filling))),
                      stands.switches := s1.stands.switches.filter (fun w => !rings.contains w.ring) }
  let s3 := (s1.stands.switches.filter (fun w => rings.contains w.ring && w.loading)).foldl (fun s w => setSlot s w.part w.new 0) s2
  let s4 := dropCmds (orphanOps s3 (fun r => rings.contains r)) mine
  let s5 := gone.foldl (fun s n => settleStand (modStand s n (fun x => { x with stepPending := false })) n) s4
  pls.foldl (fun s q => zeroRing s q.1 q.2) s5

/-- A function's mailbox drops what it holds, its session's transactions go, and events routed to it clear (chapters 3 and 5,
crossings). -/
def dropFunction (s : State) (port fn : Nat) (who : Session) : State :=
  clearRouted (discardSession { s with dir.mailboxes := sdel s.dir.mailboxes (73 * port + fn) } who) (73 * port + fn)

/-- Partitions mapped to a VF of a port (R285). -/
def partsOfPort (s : State) (port : Nat) : List Nat :=
  (List.range 72).filter (fun p => partEnabled s p && decide (field (partMap s p) 7 0 ≠ 0) && decide (field (partMap s p) 8 8 = port))

/-- A reset of a host port (R350): the PF's rings and mailbox, then every partition mapped to a VF of the port. -/
def portReset (s : State) (port : Fin 2) : State :=
  (partsOfPort s port).foldl (fun s p => partReset s p true) (dropFunction (dropPfRings s port) port 0 (.pf port))

/-- PF_FLR (R350). -/
def execPfFlr (port : Fin 2) (s : State) : Out :=
  .next (if lget false s.boot.hostL0 port then portReset s port else s)

/-- PCIE_HOT_RESET: a hot reset or a link down; the link leaves L0 (R350). -/
def execPcieHotReset (port : Fin 2) (_down : Bool) (s : State) : Out :=
  .next (if lget false s.boot.hostL0 port then portReset { s with boot.hostL0 := lset s.boot.hostL0 port false } port else s)

/-- VF_FLR (R120): the partition mapped to the VF is reset with no completion written. -/
def execVfFlr (port : Fin 2) (vf : Fin 72) (s : State) : Out :=
  .next (if !lget false s.boot.hostL0 port then s
  else
    let s1 := dropFunction s port (vf + 1) (.vf port vf)
    match partOfVf s port (vf + 1) with
    | some p => partReset s1 p true
    | none => s1)

/-! ## The whole device -/

/-- The next incarnation: never 0 (R277). -/
def nextIncarnation (s : State) : State :=
  { s with seed.incarnation := if s.seed.incarnation + 1 = 0 then 1 else s.seed.incarnation + 1 }

/-- What a cold reset or a power loss leaves: Seedbank, the fuses and the pins; transactions that it discarded are told to their sessions
(R119, R122, Table 7-4), and a REFCLK_LOSS that waits for its record goes on waiting (R23). The clock and what was transmitted already are no state of the part that a reset reaches. -/
def clearAll (s : State) : State :=
  { fuses := s.fuses, seed := s.seed, pins := s.pins, time := { clock := s.time.clock }, free := s.free + 1, posted := s.posted,
    pending := s.pending, gr := { lost := some s.free }, dir := { lost := s.dir.txns.map (·.owner) ++ s.dir.lost },
    ev := { sent := s.ev.sent }, fieldBus := { sent := s.fieldBus.sent }, boot := { refclkLossPending := s.boot.refclkLossPending } }

/-- The rails that DORMANT removes are required again (R21); after a thermal trip MAINPWR_EN stays low (R30). -/
def mainOn (s : State) : State :=
  if s.pins.mainpwrEn = some false ∧ !s.pins.tripped then { s with pins.mainpwrEn := some true } else s

/-- A cold start begins: one more of COLD_STARTS, a new incarnation, device time from 0 (R277, R328, R347). -/
def beginCold (s : State) (cause stage : Nat) : State :=
  let s1 := nextIncarnation { s with seed.coldStarts := s.seed.coldStarts + 1 }
  { (mainOn s1) with boot.stage := stage, boot.cause := cause, boot.trigger := s.time.clock, boot.kind := .cold }

/-- A cold reset (R119): everything but Seedbank, RWP parameters and the sampled straps; start-up from stage 2. -/
def coldReset (s : State) (cause : Nat) : State := beginCold (clearAll s) cause 1

/-- PWROK_RISE (R27, R106): the straps are sampled and stage 1 completes. -/
def execPwrokRise (straps : BitVec 10) (s : State) : Out :=
  .next (if s.pins.pwrok then s
  else beginCold { clearAll s with pins := { pwrok := true, mainpwrEn := some true, perst := s.pins.perst, straps } } 0 1)

/-- MAINPWR_EN_POWER_ON: the power-on circuit drives MAINPWR_EN high while PWROK is low (R21). -/
def execMainpwrEnPowerOn (s : State) : Out :=
  .next (if s.pins.pwrok then s else { s with pins.mainpwrEn := some true })

/-- PWROK_FALL (R20, chapter 2 crossings): the part is held in cold reset until PWROK rises. From DORMANT the main rails are required
again (R21). -/
def execPwrokFall (s : State) : Out :=
  .next (if s.pins.pwrok then mainOn { clearAll s with pins := { s.pins with pwrok := false } } else s)

/-- POWER_LOSS (R119): everything but Seedbank is lost; MAINPWR_EN is undriven. -/
def execPowerLoss (s : State) : Out := .next { clearAll s with pins := {}, boot := {} }

/-- COLDRST_N_ASSERT (R21, R119). -/
def execColdrstNAssert (s : State) : Out := .next (if s.pins.pwrok then coldReset s 1 else s)

/-- RAIL_FAULT (R18, Table 2-10). -/
def execRailFault (rail : Fin 7) (s : State) : Out :=
  .next (if s.pins.pwrok then coldReset (record s 0x0020 0 0xFF 0xFF rail) 6 else s)

/-- REFCLK_LOSS (R23): the record waits for the restart of the primary island. -/
def execRefclkLoss (s : State) : Out :=
  .next (if s.pins.pwrok then { coldReset s 4 with boot.refclkLossPending := true } else s)

/-- PLL_UNLOCK (R90). -/
def execPllUnlock (die : Fin 6) (s : State) : Out :=
  .next (if s.pins.pwrok then coldReset (record s 0x0022 0 0xFF 0xFF die) 5 else s)


/-! ## Warm reset (R119, R122) -/

/-- Indices whose RW parameters a warm reset keeps (Table 7-4). -/
def keptAtWarm (idx : Nat) : Bool := decide (idx ≤ 0x14FF) || (decide (0x7000 ≤ idx) && decide (idx ≤ 0x73FF))

/-- Operations stop at a boundary: finished commands are completed, the others get ABORTED_RESET, rings end (R122). -/
def stopWork (s : State) : State :=
  let s1 := (List.range 72).foldl abortPartition { s with trail.halted := true }
  flushRecords (abortCmds s1 (fun _ => true)) (fun _ => true)

/-- The Canopy flush (R122): grove copies and committed rows are written back. -/
def flushCanopy (s : State) : State :=
  let s1 := flushStaging s
  { (List.range 432).foldl flushGrove s1 with canopy := { s1.canopy with copies := [], flights := [], homes := [], queue := [], lines := [] } }

/-- A BOOT container in intake takes the place of the stored image, and its digest that of the old one (R118). -/
def storeImage (s : State) (bs : List Byte) : State :=
  { s with boot.stored := bs, seed.imageDigest := BitVec.ofNat 384 (sha384 bs) }

/-- What a warm reset clears after the flush (Table 7-4, R340, R349): counts of past events stay. -/
def clearWarm (s : State) : State :=
  let s1 := keepParams s (fun idx _ d => decide (d.acc = .rwp) || keptAtWarm idx)
  { s1 with
    trail := { handles := s.trail.handles, clears := s.trail.clears, dbDropped := s.trail.dbDropped, duplicates := s.trail.duplicates, e2eResends := s.trail.e2eResends },
    stands := { stepLists := s.stands.stepLists, lateSteps := s.stands.lateSteps, lastList := s.stands.lastList },
    root := { stats := s.root.stats, queueWait := s.root.queueWait },
    gr := { lost := some s.free, spec := s.gr.spec, microFaults := s.gr.microFaults, qstat := s.gr.qstat, micro := { kept := s.gr.micro.kept, lastRule := s.gr.micro.lastRule } },
    free := s.free + 1,
    thk := { tableStats := s.thk.tableStats, pfStats := (s.thk.prefetch.foldl (fun s q => discardPrefetch s q.1) s).thk.pfStats, hotFull := s.thk.hotFull },
    rows := { stalls := s.rows.stalls, stats := s.rows.stats },
    canopy := { snoops := s.canopy.snoops, crossings := s.canopy.crossings, backInv := s.canopy.backInv, atomics := s.canopy.atomics,
                corrected := s.canopy.corrected, uncorrected := s.canopy.uncorrected, bankHour := s.canopy.bankHour },
    ports := s.ports.map (fun q => (q.1, { corrected := q.2.corrected, uncorrected := q.2.uncorrected, lastUe := q.2.lastUe })),
    fab := { stats := s.fab.stats, discarded := s.fab.discarded,
             ports := s.fab.ports.map (fun q => (q.1, { replays := q.2.replays, linkLost := q.2.linkLost, corrected := q.2.corrected,
                                                        uncorrectable := q.2.uncorrectable, discarded := q.2.discarded })) },
    fb := { surveys := s.fb.surveys, rounds := s.fb.rounds, unitsDone := s.fb.unitsDone, unitsFailed := s.fb.unitsFailed,
            unitsSkipped := s.fb.unitsSkipped, roundAt := s.fb.roundAt, stats := s.fb.stats, returningPort := s.fb.returningPort },
    trk := {}, groves := {} }

/-! ## Blocks without power (R30, R103) -/

/-- The blocks outside the islands lose power: groves, engines, Rootwork, Canopy, links and the control stores. Rings, stands and
parameters are kept, counts of past events, counters and Tracks samples stay (R103, R349). `deep`: LPDDR and with it the handle tables, the
image region and its intake are lost (R108, Table 7-5). -/
def losePower (s : State) (deep : Bool) : State :=
  { s with
    root := { stats := s.root.stats, queueWait := s.root.queueWait },
    gr := { lost := some s.free, spec := s.gr.spec, microFaults := s.gr.microFaults, qstat := s.gr.qstat,
            micro := { kept := if deep then [] else s.gr.micro.kept, lastRule := s.gr.micro.lastRule } },
    free := s.free + 1,
    thk := { tableStats := s.thk.tableStats, pfStats := s.thk.pfStats, hotFull := s.thk.hotFull },
    rows := { stalls := s.rows.stalls, stats := s.rows.stats },
    mem := if deep then { s.mem with bytes := [], poison := [], poisonPorts := [], latent := [] } else s.mem,
    trail.handles := if deep then [] else s.trail.handles, trail.clears := if deep then [] else s.trail.clears,
    canopy := { snoops := s.canopy.snoops, crossings := s.canopy.crossings, backInv := s.canopy.backInv, atomics := s.canopy.atomics,
                corrected := s.canopy.corrected, uncorrected := s.canopy.uncorrected, bankHour := s.canopy.bankHour, hotRegion := s.canopy.hotRegion },
    ports := s.ports.map (fun q => (q.1, { corrected := q.2.corrected, uncorrected := q.2.uncorrected, lastUe := q.2.lastUe })),
    fab := { stats := s.fab.stats, discarded := s.fab.discarded,
             ports := s.fab.ports.map (fun q => (q.1, { replays := q.2.replays, linkLost := q.2.linkLost, corrected := q.2.corrected,
                                                        uncorrectable := q.2.uncorrectable, discarded := q.2.discarded })) },
    trk := { s.trk with armed := [], tagged := [] }, groves := {},
    boot := { s.boot with hostL0 := [false, false], stage := 0, stored := if deep then [] else s.boot.stored,
                          ctData := if deep then [] else s.boot.ctData, ctTotal := if deep then 0 else s.boot.ctTotal,
                          ctStatus := if deep && s.boot.ctStatus != 0 then 0 else s.boot.ctStatus,
                          ctPending := if deep then none else s.boot.ctPending },
    power.autogated := [], power.lpddrSleep := if deep then 2 else 1 }

/-- A sensor at 118 °C is the hottest of its die from then on, in 1/16 °C (R28, R30). -/
def tripTj (t : BitVec 16) : BitVec 16 := if t.toInt < 1888 then 1888 else t

/-- THERMTRIP (R21, R30, Table 2-10): all clocks but management stop, THERMTRIP_N and MAINPWR_EN go low, and the sensor is recorded. What
lies outside the islands is lost, as for a power loss; the islands go on until the rails are removed. -/
def execThermtrip (die : Fin 6) (sensor : Fin 12) (s : State) : Out :=
  .next (if s.pins.pwrok then
    let s1 := losePower (record s 0x0023 0 0xFF 0xFF (die + (sensor.val <<< 8))) true
    { s1 with pins := { s.pins with thermtripLow := true, mainpwrEn := some false, tripped := true }, trail := {}, stands := {},
              power.tj := lset s.power.tj die (tripTj (lget 0 s.power.tj die)), power.entry := none, power.committed := none }
  else s)

/-- Start-up restarts at stage 6 with cached training (R107, R119). -/
def beginCached (s : State) (cause : Nat) (kind : StartKind) : State :=
  let s1 := mainOn (nextIncarnation s)
  { s1 with boot.stage := 5, boot.error := 0, boot.cause := cause, boot.trigger := s.time.clock, boot.kind := kind, boot.image := none,
            boot.digestPending := false, boot.slotsTried := [], boot.candidate := none, boot.recovery := false }

/-- A warm reset (R119, R122). -/
def warmReset (s : State) (cause : Nat) : State :=
  let s1 := flushCanopy (stopWork s)
  let s2 := match s1.boot.ctPending with
    | some c => { storeImage s1 c.bytes with boot.ctPending := none, boot.ctTotal := 0, boot.ctData := [] }
    | none => s1
  let s3 := enterSelfRefresh (clearWarm s2)
  beginCached { s3 with power.mode := .running, power.entry := none, power.committed := none, power.wakeAfter := false,
                                  power.intakeStopped := false, asleep := none } cause .warm

/-! ## PERST# (R121) -/

/-- PERST_FALL (R121): outside DORMANT, on a port that trains; before stage 2 completes it only holds the port in reset. -/
def execPerstFall (port : Fin 2) (s : State) : Out :=
  let s1 := { s with pins.perst := lset s.pins.perst port false }
  .next (if s.power.mode = .dormant ∨ !portTrains s port ∨ !lget false s.pins.perst port then s1
  else if s.boot.stage < 2 then s1
  else if dparam s 0x1400 8 = 0 then coldReset s1 (2 + port)
  else portReset { s1 with boot.hostL0 := lset s.boot.hostL0 port false } port)

/-- PERST_RISE: the port's link trains from here on (R109). In DORMANT the edge is a wake source, the row PERST_WAKE, and not this one. -/
def execPerstRise (port : Fin 2) (s : State) : Out :=
  .next (if s.power.mode = .dormant then s else { s with pins.perst := lset s.pins.perst port true })

/-- HOST_LINK_L0 (R109): after stage 2, with PERST# high, on a port that trains under the straps. -/
def execHostLinkL0 (port : Fin 2) (s : State) : Out :=
  .next (if 2 ≤ s.boot.stage ∧ portTrains s port ∧ lget false s.pins.perst port ∧ s.power.mode ≠ .dormant ∧ !s.pins.tripped
    then { s with boot.hostL0 := lset s.boot.hostL0 port true } else s)

end Sys2Proof.Machine
end

