-- ==== Sys2Proof/Machine/Boot.lean ====
section
/-!
DEFINITION. Efcen containers and their verification, and the stages of start-up (R106–R118, R177, R289, R314).
-/
namespace Sys2Proof.Machine

/-! ## Containers (R113–R115) -/

/-- KIND, SVN, BUILD_ID, SIG_OFFSET and SECTION_COUNT of a container. -/
def ctKind (b : List Byte) : Nat := leAt b 6 2
def ctSvn (b : List Byte) : Nat := leAt b 20 4
def ctSigOff (b : List Byte) : Nat := leAt b 12 4
def ctCount (b : List Byte) : Nat := leAt b 16 2

/-- Type, offset and length of section `k`. -/
def ctSection (b : List Byte) (k : Nat) : Nat × Nat × Nat := (leAt b (128 + 64 * k) 2, leAt b (132 + 64 * k) 4, leAt b (136 + 64 * k) 4)

/-- The sections of a container with their contents. -/
def ctSections (b : List Byte) : List (Nat × List Byte) :=
  (List.range (ctCount b)).map (fun k => let e := ctSection b k; (e.1, bytesAt b e.2.1 e.2.2))

/-- Signature records: role and offset. -/
def ctRecords (b : List Byte) : List (Nat × Nat) :=
  (List.range ((b.length - ctSigOff b) / 256)).map (fun k => (leAt b (ctSigOff b + 256 * k) 1, ctSigOff b + 256 * k))

/-- Two byte ranges overlap. -/
def overlap (a b : Nat × Nat) : Bool := decide (a.1 < b.1 + b.2) && decide (b.1 < a.1 + a.2)

/-- No two of a list of ranges overlap. -/
def disjoint : List (Nat × Nat) → Bool
  | [] => true
  | a :: l => l.all (fun b => !overlap a b) && disjoint l

/-- A list of numbers without repeats. -/
def distinct : List Nat → Bool
  | [] => true
  | a :: l => !l.contains a && distinct l

/-- The section rules of a KIND (R114, Table 7-3). -/
def sectionsOk (kind : Nat) (ts : List Nat) : Bool :=
  match kind with
  | 1 => decide (ts.length = 4) && [1, 2, 3, 4].all (fun t => ts.contains t)
  | 2 => ts.all (· = 5)
  | 3 => ts.all (· = 6)
  | 4 => decide (ts = [7])
  | _ => false

/-- The layout rules of R113 and the section rules of R114. -/
def formatOk (b : List Byte) : Bool :=
  let n := ctCount b
  let so := ctSigOff b
  let secs := (List.range n).map (ctSection b)
  let recs := ctRecords b
  decide (128 ≤ b.length) && decide (leAt b 0 4 = 0x4E434645) && decide (leAt b 4 2 = 1) && decide (1 ≤ ctKind b ∧ ctKind b ≤ 4) &&
  decide (leAt b 8 4 = b.length) && decide (so % 64 = 0) && decide (1 ≤ n ∧ n ≤ 64) && decide (so < b.length) &&
  (decide (b.length = so + 256) || decide (b.length = so + 512)) &&
  secs.all (fun e => decide (e.2.1 % 64 = 0) && decide (128 + 64 * n ≤ e.2.1) && decide (e.2.1 + e.2.2 ≤ so)) &&
  disjoint (secs.map (fun e => (e.2.1, e.2.2))) && sectionsOk (ctKind b) (secs.map (·.1)) &&
  (decide (ctKind b ≠ 1) || decide (b.length ≤ 4194304)) && (decide (ctKind b ≠ 4) || secs.all (fun e => decide (e.2.2 = 48))) &&
  distinct (recs.map (·.1))

/-- Words of a control store (Table 11-2), by kind 1 to 3. -/
def storeSize (kind : Nat) : Nat := if kind = 1 then 16384 else if kind = 2 then 4096 else 2048

/-- The first rule of R177 that a patch section breaks, 1 to 8; 0 when it breaks none. `others` are the KINDs of the other sections. -/
def patchRule (s : State) (b : List Byte) (others : List Nat) : Nat :=
  let kind := leAt b 0 1
  let wc := leAt b 4 2
  let mc := leAt b 6 2
  let base := leAt b 56 2
  let entry (k : Nat) : Nat := leAt b (64 + 32 * wc + 4 * k) 4
  if !(decide (1 ≤ kind) && decide (kind ≤ 3)) then 1
  else if 512 < base + wc then 2
  else if 64 < mc then 3
  else if !distinct ((List.range mc).map (fun k => field (entry k) 29 24)) then 4
  else if (List.range mc).any (fun k => decide (storeSize kind ≤ field (entry k) 13 0)) then 5
  else if leNat (bytesAt b 8 48) ≠ leNat (beBytes 48 (lget 0 s.gr.micro.digests (kind - 1)).toNat) then 6
  else if others.contains kind then 7
  else if b.length ≠ 64 + 32 * wc + 4 * mc then 8 else 0

/-- A survey section meets R314. -/
def surveyOk (s : State) (b : List Byte) (others : List Nat) : Bool :=
  let kind := leAt b 0 1
  let n := leAt b 4 2
  let e (k off len : Nat) : Nat := leAt b (64 + 32 * k + off) len
  let dataLen := if kind = 1 then ((List.range n).map (fun k => e k 8 4)).sum else 0
  decide (1 ≤ kind ∧ kind ≤ 4) && decide (1 ≤ n ∧ n ≤ 256) && !others.contains kind &&
  (decide (kind ≠ 1) || (decide (leNat (bytesAt b 8 48) = leNat (beBytes 48 (lget 0 s.gr.micro.digests 0).toNat)) &&
    (List.range n).all (fun k => decide (e k 0 2 < 16384) && decide (e k 8 4 ≤ 1048576) && decide (e k 4 4 + e k 8 4 ≤ b.length)))) &&
  decide (b.length = 64 + 32 * n + dataLen)

/-- The rule number that the patch sections of a container break first, 0 for none. -/
def patchRules (s : State) (secs : List (List Byte)) : Nat :=
  ((secs.zipIdx.map (fun q => patchRule s q.1 ((secs.take q.2).map (fun b => leAt b 0 1)))).find? (· ≠ 0)).getD 0

/-- The contents of the sections of a PATCH or SURVEY container meet their chapters' rules. -/
def contentOk (s : State) (b : List Byte) : Bool :=
  let secs := (ctSections b).map (·.2)
  if ctKind b = 2 then decide (patchRules s secs = 0)
  else if ctKind b = 3 then secs.zipIdx.all (fun q => surveyOk s q.1 ((secs.take q.2).map (fun b => leAt b 0 1)))
  else true

/-- A signature record verifies over the signed message: its key has a hash and its ECDSA P-384 signature holds (R113, R115). -/
def recordOk (b : List Byte) (off hash : Nat) : Bool :=
  let key := bytesAt b (off + 4) 96
  decide (sha384 key = hash) &&
  ecdsaVerify (beNat (key.take 48)) (beNat (key.drop 48)) (sha384 (b.take (ctSigOff b))) (beNat (bytesAt b (off + 100) 48)) (beNat (bytesAt b (off + 148) 48))

/-- The offset of the record with a role. -/
def recordOf (b : List Byte) (role : Nat) : Option Nat := ((ctRecords b).find? (fun r => decide (r.1 = role))).map (·.2)

/-- The verification of R115: the CT_STATUS code of the first failing check, or the container. -/
def verifyContainer (s : State) (b : List Byte) : Except Nat Container :=
  let key := s.seed.operatorKeyHash.toNat
  if !formatOk b || !contentOk s b then .error 4
  else if !bitOf (leAt b 18 2) 0 then .error 5
  else if !(List.range (ctCount b)).all (fun k => decide (sha384 (bytesAt b (ctSection b k).2.1 (ctSection b k).2.2) = beNat (bytesAt b (128 + 64 * k + 16) 48))) then .error 6
  else match recordOf b 1 with
  | none => .error 7
  | some r1 =>
    if !recordOk b r1 s.fuses.rootKeyHash.toNat then .error 7
    else if key ≠ 0 ∧ (recordOf b 2).isNone then .error 8
    else if key ≠ 0 ∧ !(recordOf b 2).any (fun r => recordOk b r key) then .error 7
    else if ctSvn b < lget 0 s.seed.minSvn (ctKind b - 1) then .error 9
    else .ok { kind := ctKind b, svn := ctSvn b, buildId := leAt b 24 8, sections := ctSections b, bytes := b }

/-- MIN_SVN of a KIND raised to a container's SVN (R116). -/
def raiseSvn (s : State) (c : Container) : State :=
  { s with seed.minSvn := lset s.seed.minSvn (c.kind - 1) (Nat.max (lget 0 s.seed.minSvn (c.kind - 1)) c.svn) }

/-- The content of a container's section of a type. -/
def sectionOf (c : Container) (t : Nat) : List Byte := ((c.sections.find? (fun q => decide (q.1 = t))).map (·.2)).getD []

/-! ## Patches (R179, R180) -/

/-- 256-bit words of a list of bytes as a keyed list from an address up. -/
def wordsOf (bs : List Byte) (base n : Nat) : Sparse (BitVec 256) :=
  (List.range n).foldl (fun m k => sset 0 m (base + k) (BitVec.ofNat 256 (leAt bs (32 * k) 32))) []

/-- The patch set that a section gives. -/
def patchSetOf (b : List Byte) : PatchSet :=
  let wc := leAt b 4 2
  let entry (k : Nat) : Nat := leAt b (64 + 32 * wc + 4 * k) 4
  { id := leAt b 2 2, words := wordsOf (b.drop 64) (leAt b 56 2) wc,
    regs := (List.range (leAt b 6 2)).foldl (fun m k => sput m (field (entry k) 29 24) (field (entry k) 13 0, field (entry k) 22 14)) [] }

/-- The sequencers of a kind, 0 to 2 (Table 11-2). -/
def sequencers (kind : Nat) : List Nat := List.range (lget 0 [432, 96, 48] kind)

/-- The patch sets of a PATCH container put in place: at once at stage 7, or for each sequencer to switch to (R179, R180). -/
def applyPatches (s : State) (secs : List (List Byte)) (atOnce : Bool) : State :=
  secs.foldl (fun s b =>
    let k := leAt b 0 1 - 1
    let m := s.gr.micro
    let old := lget [] m.former k
    let group := (lget {} m.patch k, (sequencers k).filter (fun u => !old.any (fun q => q.2.contains u)))
    { s with gr.micro := { m with patch := lset m.patch k (patchSetOf b), former := lset m.former k (if atOnce then [] else old ++ (if group.2.isEmpty then [] else [group])),
                                  switching := lset m.switching k (if atOnce then [] else sequencers k) } }) s

/-! ## Stages 2 to 5 -/

/-- The boot is through the recovery intake: STRAP8, or both slots failed (R111, R112). -/
def recoveryBoot (s : State) : Bool := s.pins.straps.getLsbD 8 || s.boot.recovery

/-- Start-up has not stopped. SEEDBANK_LOST and BOOT_IMAGE_INVALID do not stop it (Table 7-7). -/
def running (s : State) : Bool := s.boot.error ≤ 2

/-- ROM_BOOT, stage 2 (R37, R64, R106): a signed unlock token that came through IEEE 1149.1 unlocks debug (log entry 53); both islands self-test;
D0 is primary unless it alone fails. A pending REFCLK_LOSS is recorded (R23). -/
def execRomBoot (d0 d3 : RomRun) (s : State) : Out :=
  .next (if s.boot.stage ≠ 1 then s
  else
    let d0ok := d0.ok
    let d3ok := d3.ok
    let fail (ok : Bool) (die : Nat) (s : State) : State :=
      if ok then s else raise (record { s with und.islandFailed := true } 0x0011 0 0xFF 0xFF die) 0x006
    let s1 := fail d3ok 3 (fail d0ok 0 s)
    if !d0ok && !d3ok then s1
    else
      let p := if d0ok then 0 else 3
      let s2 := { s1 with und.primary := p, und.standbyOk := d0ok && d3ok, und.wardens := [{}, {}], und.standby := [{}, {}], und.lastBeacon := s.time.clock,
                          seed.copyOk := [d0ok, d3ok], boot.stage := 2, boot.debugUnlocked := s1.boot.debugUnlocked || d0.unlock || d3.unlock }
      if s2.boot.refclkLossPending then record { s2 with boot.refclkLossPending := false } 0x0021 0 0xFF 0xFF 0 else s2)

/-- The boot slot tried next (R111): BOOT_SLOT as Seedbank holds it, then the other. -/
def nextSlot (s : State) : Option Nat :=
  let first := (sfind (recovered s.seed.journal) (pkey 0x1400 5 devInst)).getD 0
  if !s.boot.slotsTried.contains first then some first
  else if !s.boot.slotsTried.contains (1 - first) then some (1 - first) else none

/-- Stages 3 and 4 are due: after stage 2 outside recovery boot, or after a failed digest check (R106, R108). -/
def norDue (s : State) : Bool :=
  running s && s.boot.image.isNone && s.boot.candidate.isNone &&
  ((decide (s.boot.stage = 2) && !recoveryBoot s && (decide (s.boot.kind = .cold) || decide (s.boot.kind = .dormantLost))) ||
   (decide (s.boot.stage = 6) && !s.boot.digestPending && !s.boot.recovery))

/-- SPI_NOR_READ, stage 3 (R111): the container of the slot that is tried; a NOR that answers nothing leaves an empty one. -/
def execSpiNorRead (image : Option (List Byte)) (s : State) : Out :=
  .next (if !norDue s then s
  else match nextSlot s with
  | none => s
  | some k => { s with boot.candidate := some (image.getD []), boot.bootedSlot := k, boot.stage := Nat.max 3 s.boot.stage })

/-- A slot's container fails stage 4: the other slot is tried, or BOOT_IMAGE_INVALID is recorded and recovery boot follows (R111). -/
def slotFailed (s : State) : State :=
  let s1 := { s with boot.candidate := none, boot.slotsTried := s.boot.bootedSlot :: s.boot.slotsTried, boot.stage := if s.boot.stage = 3 then 2 else s.boot.stage }
  if (nextSlot s1).isSome then s1
  else record { s1 with boot.error := 1, boot.recovery := true } 0x0034 0 0xFF 0xFF s.boot.bootedSlot

/-- Stage 5 is no part of a DORMANT exit: after stage 4 start-up goes on with stage 6 (R104, R106, R108). -/
def afterVerification (s : State) : Nat :=
  if s.boot.kind = .dormantLost then Nat.max 5 s.boot.stage else Nat.max 4 s.boot.stage

/-- CONTAINER_VERIFICATION, stage 4 (R115): the boot container that was read. After a failed digest check it becomes the stored image. -/
def execContainerVerification (s : State) : Out :=
  .next (match s.boot.candidate with
  | none => s
  | some b => match verifyContainer s b with
    | .error _ => slotFailed s
    | .ok c =>
      if c.kind ≠ 1 then slotFailed s
      else
        let s1 := { s with boot.candidate := none, boot.image := some c, boot.stage := afterVerification s }
        if 6 ≤ s.boot.stage then storeImage s1 b else s1)

/-- The journal entries that no copy which can be read holds intact (R51). -/
def badEntries (c0 c3 : SeedCopy) : List Nat :=
  if !c0.ok then c3.bad else if !c3.ok then c0.bad else c0.bad.filter (c3.bad.contains ·)

/-- SEEDBANK_RECOVERY, stage 5 (R51): the copies are resynchronised, journal entries that fail their check are discarded whole, and at a cold start every RWP parameter is restored from the newest intact entry that holds it; with no copy left parameters
take their defaults (SEEDBANK_LOST, source 0x005). The committed pin functions and the field bus start. -/
def execSeedbankRecovery (c0 c3 : SeedCopy) (writable : Bool) (s : State) : Out :=
  .next (if !((decide (s.boot.stage = 4) && s.boot.image.isSome) || (decide (s.boot.stage = 2) && recoveryBoot s)) then s
  else
    let lost := !c0.ok && !c3.ok
    let j := if lost then [] else intact s.seed.journal (badEntries c0 c3)
    let s1 := { s with seed.journal := j, seed.writable := writable,
                       dir.params := if s.boot.kind = .cold then recovered j else s.dir.params, boot.stage := 5, boot.seedDone := true,
                       seed.copyOk := if lost then s.seed.copyOk else [c0.ok || s.und.standbyOk, c3.ok || s.und.standbyOk] }
    let s2 := if lost then raise { s1 with boot.error := if s.boot.error = 0 then 2 else s.boot.error } 0x005 else s1
    let s3 := { s2 with time.src := dparam s2 0x7001 1, look.cfg := (List.range 256).foldl (fun m c => sset 0 m c (dparam s2 (0x7010 + c / 128) (c % 128 + 1))) [] }
    startField (applyPins s3))

/-- Start-up waits for a BOOT container through the intake: after stage 5 of a start that boots through recovery, or at stage 6 when both
slots failed after a failed digest check (R108, R111, R112). -/
def recoveryDue (s : State) : Bool :=
  s.boot.image.isNone && ((decide (s.boot.stage = 5) && recoveryBoot s && !(decide (s.boot.kind = .warm) || decide (s.boot.kind = .dormantKept))) ||
    (decide (s.boot.stage = 6) && s.boot.recovery && !s.boot.digestPending))

/-- RECOVERY_BOOT (R112): the device waits for a BOOT container through the D0 intake. -/
def execRecoveryBoot (s : State) : Out :=
  .next (if recoveryDue s then { s with boot.recovery := true, boot.bootedSlot := 2 } else s)

/-! ## Stage 6 (R107, R243, R289) -/

/-- The largest package density of the ordering code, in GiB (Table 0-1). -/
def maxDensity (s : State) : Nat := lget 16 [16, 32, 64] s.fuses.ordering

/-- Start-up stops at a stage with START_ERROR and a record (R110, Table 2-10). -/
def stopStart (s : State) (err type unit detail : Nat) : State := record { s with boot.error := err } type unit 0xFF 0xFF detail

/-- A partition whose range no longer fits general memory is disabled, its range cleared, both persisted and recorded (R289). -/
def checkRange (s : State) (p : Nat) : State :=
  if partEnabled s p ∧ generalEnd s < partBase s p + partSize s p then
    let m := param s 0x5803 1 p
    let map := putBit (partMap s p) 15 false
    let s1 := journalPut (journalPut (setParam (setParam s 0x5801 1 p map) 0x5803 1 p 0) 0x5801 1 p map) 0x5803 1 p 0
    record { s1 with boot.rangeLost := p :: s1.boot.rangeLost } 0x0036 0 0xFF 0xFF (p + ((field m 15 0) <<< 8) + ((field m 47 32) <<< 24))
  else s

/-- LPDDR contents are kept through this start-up (Table 7-5). -/
def contentsKept (s : State) : Bool := decide (s.boot.kind = .warm) || decide (s.boot.kind = .dormantKept)

/-- Stage 6 follows a cold or a warm reset, not a DORMANT exit: committed speed grade and hot region come into force (R96, R227). -/
def afterReset (s : State) : Bool := decide (s.boot.kind = .cold) || decide (s.boot.kind = .warm)

/-- What stage 6 leaves when every port has trained: capacity and modes in force (INLINE_ECC from a cold reset alone), handle tables
initialised where contents were lost, the image in the image region, the slices in the layout of Table 15-1 (R96, R132, R227, R228, R247). -/
def trained (s : State) (density ranks : Nat) : State :=
  let kept := contentsKept s
  let s1 := { s with
    mem := { density, ranks, eccOn := if s.boot.kind = StartKind.cold then decide (dparam s 0x4001 3 = 1) else s.mem.eccOn,
             speed := if afterReset s then dparam s 0x4001 1 else s.mem.speed,
             bytes := if kept then s.mem.bytes else [], poison := if kept then s.mem.poison else [],
             poisonPorts := if kept then s.mem.poisonPorts else [], poisoned := s.mem.poisoned, latent := if kept then s.mem.latent else [] },
    trail.handles := if kept then s.trail.handles else [], trail.clears := if kept then s.trail.clears else [],
    seed.training := some ⟨density, ranks⟩,
    canopy.laidOut := true, canopy.hotRegion := if afterReset s then dparam s 0x4002 1 else s.canopy.hotRegion,
    power.lpddrSleep := 0, boot.stage := 6, boot.digestPending := kept && s.boot.image.isNone }
  let s2 := match s1.boot.image with
    | some c => storeImage s1 c.bytes
    | none => s1
  (List.range 72).foldl checkRange (leaveSelfRefresh s2)

/-- The results that cached training starts from: those in Seedbank, at a warm reset and at a DORMANT exit; every cold start trains in
full (R107). -/
def cachedTraining (s : State) : Option TrainData := if s.boot.kind = .cold then none else s.seed.training

/-- LPDDR_TRAINING, stage 6 (R107, R243): in full, or cached from the results in Seedbank with a fallback to full. A density that the
ordering code does not allow, or packages without one or two ranks, are a MEM_CONFIG (Table 2-10). A returning port that fails is retired (R312). -/
def execLpddrTraining (res : TrainResult) (s : State) : Out :=
  .next (if !(decide (s.boot.stage = 5) && running s && (s.boot.image.isSome || contentsKept s)) || s.pins.tripped then s
  else
    let full (density ranks : Nat) : State :=
      if maxDensity s < density ∨ !([16, 32, 64].contains density) ∨ ranks = 0 then stopStart s 3 0x0030 0 0 else trained s density ranks
    match res with
    | .ok d r => (match cachedTraining s with
      | some t => trained s t.density t.ranks
      | none => full d.toNat r)
    | .cachedFailed d r => if (cachedTraining s).isSome then full d.toNat r else s
    | .configFault p => stopStart s 3 0x0030 0 p
    | .trainFail p step =>
      let s1 := stopStart s 4 0x0031 0 (p.val + (step.val <<< 8))
      if s.fb.returningPort = some p.val then failReturn { s1 with fb.returningPort := none } (unitPort p) 0x30 else s1)

/-- IMAGE_DIGEST_CHECK (R108): the stored image against its digest; on failure stages 3 and 4 run. -/
def execImageDigestCheck (s : State) : Out :=
  .next (if !(decide (s.boot.stage = 6) && s.boot.digestPending) then s
  else if sha384 s.boot.stored = s.seed.imageDigest.toNat then
    let b := s.boot.stored
    { s with boot.digestPending := false,
             boot.image := some { kind := ctKind b, svn := ctSvn b, buildId := leAt b 24 8, sections := ctSections b, bytes := b } }
  else { s with boot.digestPending := false })

/-! ## Stages 7 to 10 -/

/-- A control store loaded from its section (R169). -/
def loadStore (b : List Byte) (kind : Nat) : Sparse (BitVec 256) := wordsOf b 0 (Nat.min (storeSize kind) (b.length / 32))

/-- MICROCODE_LOAD, stage 7 (R106, R169, R180): control stores and Warden firmware; a kept PATCH container is applied again. -/
def execMicrocodeLoad (s : State) : Out :=
  .next (match s.boot.image with
  | none => s
  | some c =>
    if s.boot.stage ≠ 6 ∨ !running s ∨ s.boot.digestPending then s
    else
      let m := s.gr.micro
      let s1 := { s with
        gr.micro := { stores := [1, 2, 3].map (fun k => loadStore (sectionOf c k) k), digests := [1, 2, 3].map (fun k => BitVec.ofNat 384 (sha384 (sectionOf c k))),
                      kept := m.kept, lastRule := m.lastRule },
        und.firmware := sectionOf c 4, boot.stage := 7 }
      if m.kept.isEmpty then s1 else applyPatches s1 ((ctSections m.kept).map (·.2)) true)

/-- A unit passes or fails the boot survey (R110, R309, R352). A retired unit stays FENCED without one. -/
def surveyUnit (s : State) (fails : List Nat) (u : Nat) : State :=
  let x := unitSum s u
  if !isUnit s u then s
  else if x.retired then (if x.state = 2 then s else moveUnit s u 2)
  else if fails.contains u then
    let s1 := record s 0x0005 u 0xFF 0xFF (1 + (surveyId s (unitKind u) <<< 32))
    if x.state = 0 then
      -- the FENCE record, then the retirement
      let s2 := raise (record (moveUnit s1 u 2) 0x0002 u 1 2 0x05) 0x022
      markRetired (record (modUnit s2 u (fun y => { y with cause := 0x05, fences := y.fences + 1 })) 0x0004 u 1 2 0x05) u 0x05
    else failReturn s1 u 0x05
  else if x.state = 0 then s
  else
    let s1 := returnUnit (moveUnit (record s 0x0005 u 0xFF 0xFF (surveyId s (unitKind u) <<< 32)) u 3) u (surveyId s (unitKind u))
    if unitKind u = 3 then { s1 with mem.poisonPorts := sput s1.mem.poisonPorts (unitIndex u) [] } else s1

/-- Every unit in ascending UNIT order. -/
def allUnits : List Nat :=
  (List.range 432).map unitGrove ++ (List.range 300).map (0x2000 + ·) ++ (List.range 48).map unitPort ++ (List.range 12).map unitFabric

/-- Banks of a die that are not in service. -/
def failedBanks (s : State) (d : Nat) : List Nat := (List.range 50).filter (fun b => !serving s (unitBank d b))

/-- Banks, groves and fabric ports as the survey left them: the remap table, gated groves, ports that train. -/
def afterSurvey (s : State) : State :=
  let s1 := (List.range 6).foldl (fun s d => (failedBanks s d).foldl (fun s b => removeBank s d b) { s with canopy.active := sdel s.canopy.active d }) s
  let s2 := { s1 with groves.gated := (List.range 432).filter (fun g => !groveEnabled s1 g || !serving s1 (unitGrove g)), groves.joining := [], groves.leaving := [], groves.departing := [] }
  if solo s2 then s2
  else (List.range 12).foldl (fun s p =>
    if serving s (unitFabric p) && decide (field (portCfg s p) 1 0 ≠ 3) then modPort s p (fun x => { x with state := 1 })
    else if serving s (unitFabric p) then s else modPort s p (fun x => { x with state := 4 })) s2

/-- BOOT_SURVEY, stage 8 (R110): failing units are fenced; a memory port, a slice with more than 2 failed banks, or a die with no serving
grove stops start-up. -/
def execBootSurvey (fails : List Nat) (s : State) : Out :=
  .next (if s.boot.stage ≠ 7 ∨ !running s then s
  else
    let s1 := allUnits.foldl (fun s u => surveyUnit s fails u) { s with fb.returningPort := none, fb.hardClearing := [] }
    let s2 := afterSurvey s1
    match (List.range 48).find? (fun p => fails.contains (unitPort p) && !(unitSum s (unitPort p)).retired) with
    | some p => stopStart s2 4 0x0031 0 p
    | none => match (List.range 6).find? (fun d => decide (2 < (failedBanks s2 d).length)) with
      | some d => stopStart s2 5 0x0032 0 d
      | none => match (List.range 6).find? (fun d => !(List.range 72).any (fun g => serving s2 (unitGrove (72 * d + g)))) with
        | some d => stopStart s2 6 0x0033 0 d
        | none => { s2 with boot.stage := 8 })

/-- LINK_TRAINING, stage 9 (R106, R264): it ends at 50 ms whatever ports still train; the device joins discovery. In Solo it takes no time. -/
def execLinkTraining (s : State) : Out :=
  .next (if s.boot.stage ≠ 8 then s
  else
    let s1 := { s with boot.stage := 9 }
    if solo s then s1 else elect s1)

end Sys2Proof.Machine
end

