-- ==== Sys2Proof/Machine/Sleep.lean ====
section
/-!
DEFINITION. Sleep and wake (R102–R105), and groves on their way into and out of service (R98, R290, R291).
-/
namespace Sys2Proof.Machine

/-! ## Entry (R102, R103, R105) -/

/-- The conditions of R102: no unfetched and no outstanding command, no ACTIVE stand, no instance, no committed row to write back. -/
def sleepReady (s : State) : Bool :=
  s.trail.rings.all (fun q => decide (q.2.sqHead = q.2.sqTail)) && s.trail.cmds.isEmpty &&
  s.stands.stands.all (fun q => decide (q.2.state ≠ 1)) && s.root.insts.isEmpty && s.root.requests.isEmpty && !rowsPending s

/-- A sleep request takes effect: cycle 0 of Table 6-7. -/
def requestSleep (s : State) (dormant : Bool) : State :=
  if s.power.mode = .running ∧ s.power.committed.isNone then { s with power.entry := some ⟨dormant, 0⟩ } else s

/-- IDLE_DELAY_EXPIRY (R102): IDLE_DELAY without work, unless it is 0. -/
def execIdleDelayExpiry (s : State) : Out :=
  .next (if isReady s && sleepReady s && decide (dparam s 0x1240 3 ≠ 0) && s.power.entry.isNone then requestSleep s false else s)

/-- SLEEP_COMMIT_POINT (R105, Table 6-7): entry begins. IDLE is entered whole (R102); an entry to DORMANT first stops host-port intake
(R103 step 1). -/
def execSleepCommitPoint (s : State) : Out :=
  .next (match s.power.entry with
  | none => s
  | some e =>
    let s1 := { s with power.entry := none, power.sleepOutcome := 1, power.wakeCause := 0 }
    if e.dormant then { s1 with power.committed := some true, power.intakeStopped := true, trail.halted := true }
    else enterSelfRefresh { s1 with power.mode := .idle, power.lpddrSleep := 1 })

/-- DORMANT_ENTRY (R103 steps 2 to 6, Table 7-5): buffers drain, the Canopy is flushed, LPDDR sleeps, the standby island powers down and
MAINPWR_EN falls. -/
def execDormantEntry (s : State) : Out :=
  .next (if s.power.committed ≠ some true then s
  else
    let s0 := flushCanopy s
    let deep := decide (dparam s 0x1240 4 = 1)
    let s1 := if deep then losePower s0 deep else enterSelfRefresh (losePower s0 deep)
    { s1 with
      asleep := some ⟨s0.root, s0.gr, s0.thk, s0.rows, s0.canopy, s0.ports, s0.fab, s0.groves⟩,
      seed.training := some ⟨s.mem.density, s.mem.ranks⟩, und.standbyOk := false, und.formerRestarting := false, und.roleSwapPending := false, und.takingOver := false,
      pins.mainpwrEn := some false, power.mode := .dormant, power.committed := none, power.dormantAt := s.time.clock })

/-! ## Wakes (R102, R104) -/

/-- A wake source that WAKE_ENABLE enables: bit 0 DIRECTORY, which reads 1, bit 1 PERST, bit 2 GPIO, bit 3 TIMER (Table 6-6). -/
def wakeEnabled (s : State) (b : Nat) : Bool := decide (b = 0) || bitOf (dparam s 0x1240 5) b

/-- WORK_WAKE (R102): work arrives. -/
def execWorkWake (s : State) : Out := .next (workArrives s)

/-- PERST_WAKE (R104): a rising PERST# of a host port. -/
def execPerstWake (port : Fin 2) (s : State) : Out :=
  let s1 := { s with pins.perst := lset s.pins.perst port true }
  .next (if !lget false s.pins.perst port && wakeEnabled s 1 then wake s1 2 else s1)

/-- GPIO_WAKE (R104): a pin takes a level; the edge that WAKE_GPIO names on a pin whose function is GPIO is a wake. -/
def execGpioWake (pin : Fin 40) (rising : Bool) (s : State) : Out :=
  let s1 := { s with und.mioIn := putBit s.und.mioIn pin rising }
  let g := dparam s 0x1240 6
  let named := decide (field g 1 0 < 3) && decide (pin.val = 37 + field g 1 0) && decide (bitOf g 2 = rising)
  .next (if named && decide (bitOf s.und.mioIn pin ≠ rising) && isGpio pin (mioCommitted s pin) && wakeEnabled s 2 then wake s1 3 else s1)

/-- WAKE_TIMER_EXPIRY (R104): WAKE_TIMER seconds after DORMANT entry. -/
def execWakeTimerExpiry (s : State) : Out :=
  .next (if decide (s.power.mode = .dormant) && decide (dparam s 0x1240 7 ≠ 0) && wakeEnabled s 3 &&
      decide (s.power.dormantAt + 1000000000 * dparam s 0x1240 7 ≤ s.time.clock) then wake s 4 else s)

/-- DORMANT_EXIT (R104, R107, R108): MAINPWR_EN rises, the standby is re-mirrored, WAKE# is asserted unless PERST# woke the device, and
start-up runs: from stage 6 with LPDDR kept, from stage 3 with it lost. -/
def execDormantExit (s : State) : Out :=
  .next (if s.power.mode ≠ .dormant ∨ !s.power.wakeAfter ∨ s.pins.tripped then s
  else
    let s1 := { s with power.mode := .running, power.wakeAfter := false, power.intakeStopped := false, asleep := none, pins.mainpwrEn := some true,
                       pins.wakeAsserted := decide (s.power.wakeCause ≠ 2), und.standbyOk := !s.und.islandFailed, und.lastBeacon := s.time.clock }
    if s.power.lpddrSleep = 2 then { beginCached s1 10 .dormantLost with boot.stage := 2 } else beginCached s1 10 .dormantKept)

/-! ## Groves in service (R98, R290, R291) -/

/-- Queued tasks of a grove back on the die ready list, ahead of every other task of their instance (chapter 10, crossings). -/
def returnQueued (s : State) (g : Nat) : State :=
  (gQueue s g).foldl (fun s q => modTask s q.ins q.node q.firing q.task (fun t => { t with place := .ready (g / 72), ahead := true }))
    { s with root.queues := sdel s.root.queues g }

/-- A core of the grove runs a task. -/
def groveRuns (s : State) (g : Nat) : Bool := s.gr.cores.any (fun q => decide (q.1 / 64 = g))

/-- A grove leaves its partition (R98, R291, R339): its dirty lines are written back, its counters go to CARRY; disabled, it loses its
scratch and is power-gated; otherwise it zeroes its store. -/
def groveLeaves (s : State) (g p : Nat) : State :=
  let s1 := foldCounters (flushGrove (returnQueued s g) g) p g
  let s2 := { s1 with groves.leaving := sdel s1.groves.leaving g, groves.departing := sdel s1.groves.departing g }
  if groveEnabled s2 g then { s2 with groves.joining := sput s2.groves.joining g .zeroing }
  else loseScratch { s2 with groves.joining := sdel s2.groves.joining g, groves.gated := insertNat s2.groves.gated g } g

/-- The partition a grove is to serve under the committed values. -/
def groveTarget (s : State) (g : Nat) : Option Nat := if groveEnabled s g then partOfGrove s g else none

/-- The partition has an instance. -/
def partBusy (s : State) (p : Nat) : Bool := s.root.insts.any (fun q => decide (q.2.part = p))

/-- What a commit that changed GROVE_ENABLE, a set or a PART_MAP leaves of one grove, from `s0` before the commit to `s` after it (R98,
R290, R291, crossings of chapters 6 and 18). -/
def regrove (s0 s : State) (g : Nat) : State :=
  if !serving s (unitGrove g) then
    let s1 := { s with groves.leaving := sdel s.groves.leaving g, groves.departing := sdel s.groves.departing g }
    if sfind s.groves.joining g = some .waiting ∧ (groveTarget s g).isNone then
      returnUnit { s1 with groves.joining := sdel s.groves.joining g, groves.gated := if groveEnabled s g then s.groves.gated else insertNat s.groves.gated g }
        (unitGrove g) (surveyId s 1)
    else s1
  else if (sfind s.groves.departing g).isSome then s
  else
    let want := groveTarget s g
    match sfind s.groves.leaving g, servedPart s0 g with
    | some q, _ => if want = some q then { s with groves.leaving := sdel s.groves.leaving g } else s
    | none, some q =>
      if want = some q then s
      else if partEnabled s q || partBusy s q then { s with groves.leaving := sput s.groves.leaving g q }
      else groveLeaves s g q
    | none, none =>
      if !groveEnabled s g then
        if s.groves.gated.contains g then s
        else loseScratch { s with groves.joining := sdel s.groves.joining g, groves.gated := insertNat s.groves.gated g } g
      else if s.groves.gated.contains g then
        { s with groves.gated := s.groves.gated.filter (· ≠ g), groves.joining := sput s.groves.joining g .powering }
      else match sfind s.groves.joining g with
        | some st => if want.isNone ∧ st = .waiting then { s with groves.joining := sdel s.groves.joining g } else s
        | none => if want.isSome then { s with groves.joining := sput s.groves.joining g .zeroing } else s

/-- Every grove after such a commit. -/
def regroveAll (s0 s : State) : State := (List.range 432).foldl (fun s g => regrove s0 s g) s

/-- A grove may leave its partition at a step boundary: one whose ENABLE is 0 first finishes the tasks of its instances (R290). -/
def mayLeave (s : State) (p : Nat) : Bool := partEnabled s p || !partBusy s p

/-- A grove leaves its partition at the step boundary (R98, R291): it takes no further task, its queued tasks return to the die ready list, and
it is gone once the tasks that it runs are finished. -/
def startLeave (s : State) (g p : Nat) : State :=
  if groveRuns s g then
    let s1 := returnQueued s g
    { s1 with groves.leaving := sdel s1.groves.leaving g, groves.departing := sput s1.groves.departing g p }
  else groveLeaves s g p

/-- GROVE_LEAVE: a grove that is to leave does so at a step boundary of its partition, which has no running list; one that has left is gone once
the tasks it runs are finished (R98, R147, R290, R291). -/
def execGroveLeave (g : Fin 432) (s : State) : Out :=
  .next (match sfind s.groves.departing g, sfind s.groves.leaving g with
  | some p, _ => if groveRuns s g then s else groveLeaves s g p
  | none, some p => if (sfind s.stands.lists p).isNone && mayLeave s p then startLeave s g p else s
  | none, none => s)

/-- A grove with its store zeroed and its microcode loaded waits for admission, or stays idle in no partition's set (R98, R290, R291). -/
def groveWaits (s : State) (g : Nat) : State :=
  let s1 := zeroStore s g
  { s1 with groves.joining := if (groveTarget s1 g).isSome then sput s1.groves.joining g .waiting else sdel s1.groves.joining g }

/-- GROVE_POWER_UP_DONE: power-up, scrub and microcode load are over (R98). -/
def execGrovePowerUpDone (g : Fin 432) (s : State) : Out :=
  .next (if sfind s.groves.joining g = some .powering then groveWaits s g else s)

/-- GROVE_ZEROED: every bank of a moving grove is zeroed (R168, R291). -/
def execGroveZeroed (g : Fin 432) (s : State) : Out :=
  .next (if sfind s.groves.joining g = some .zeroing then groveWaits s g else s)

/-- Admission at a step boundary of the partition (R98, R147, R291); a grove that returns from a fence is SERVING from here (R311). -/
def admitGroves (s : State) (p : Nat) : State :=
  let adm := (s.groves.joining.filter (fun q => decide (q.2 = .waiting) && decide (groveTarget s q.1 = some p))).map (·.1)
  adm.foldl (fun s g => if serving s (unitGrove g) then s else returnUnit s (unitGrove g) (surveyId s 1))
    { s with groves.joining := s.groves.joining.filter (fun q => !adm.contains q.1) }

/-- Groves that are to leave the partition at this boundary. -/
def leaveGroves (s : State) (p : Nat) : State :=
  if mayLeave s p then ((s.groves.leaving.filter (fun q => decide (q.2 = p))).map (·.1)).foldl (fun s g => startLeave s g p) s else s

end Sys2Proof.Machine
end

