-- ==== Sys2Proof/Machine/Firebreak.lean ====
section
/-!
DEFINITION. Firebreak in service: hard faults, the end of CLEARING, returns, survey rounds and the checkers' self-test (R297, R300, R307,
R309, R311, R313, R316, R352).
-/
namespace Sys2Proof.Machine

/-! ## Survey rounds (R316) -/

/-- Units out of a kind on a die. -/
def outOn (out : List Nat) (grove : Bool) (d : Nat) : Nat :=
  out.countP (fun u => if grove then decide (unitKind u = 1) && decide (unitIndex u / 72 = d) else decide (unitKind u = 2) && decide (unitIndex u / 50 = d))

/-- A bank of a die stands spare: in service, not removed and not active. -/
def spareFree (s : State) (d : Nat) : Bool :=
  (List.range 50).any (fun x => !(activeBanks s d).contains x && !s.canopy.removed.contains (50 * d + x) && serving s (unitBank d x))

/-- The units that a round does not take (R316): a grove that is its partition's last on the die, a bank of a slice with no free spare. A
spare bank itself is free. -/
def passedOver (s : State) (u : Nat) : Bool :=
  !serving s u ||
  (if unitKind u = 1 then (partOfGrove s (unitIndex u)).any (fun p => decide (servingOn s p (unitIndex u / 72) = [unitIndex u])) &&
      serving s u
   else !spareFree s (unitIndex u / 50))

/-- A unit starts its passage: CLEARING with its last cause kept; the passage is no fence (Table 19-8). -/
def takeUnit (s : State) (u : Nat) : State :=
  startClearing (modUnit s u (fun x => { x with inSurvey := true })) u (unitSum s u).cause false

/-- The units that are back are counted, and further ones are taken in ascending order as their die has room; the round ends when every unit
has been through (R316, source 0x025). -/
def roundStep (s : State) : State :=
  match s.fb.round with
  | none => s
  | some r =>
    let back := r.out.filter (fun u => !(unitSum s u).inSurvey)
    let good := back.countP (serving s)
    let s1 := { s with fb.unitsDone := s.fb.unitsDone + good, fb.unitsFailed := s.fb.unitsFailed + (back.length - good) }
    let cfg := dparam s 0x6006 1
    let (s2, r2) := r.todo.foldl (fun (a : State × Round) u =>
      let d := if unitKind u = 1 then unitIndex u / 72 else unitIndex u / 50
      let room := if unitKind u = 1 then decide (outOn a.2.out true d < field cfg 23 16) else decide (outOn a.2.out false d < 1)
      if !room then (a.1, { a.2 with todo := a.2.todo ++ [u] })
      else if passedOver a.1 u then ({ a.1 with fb.unitsSkipped := a.1.fb.unitsSkipped + 1 }, a.2)
      else (takeUnit a.1 u, { a.2 with out := a.2.out ++ [u] })) (s1, ⟨[], r.out.filter (fun u => (unitSum s u).inSurvey)⟩)
    if r2.todo.isEmpty && r2.out.isEmpty then raise { s2 with fb.round := none, fb.rounds := s2.fb.rounds + 1 } 0x025
    else { s2 with fb.round := some r2 }

/-- A round starts: every SERVING grove and bank of the kinds that SURVEY_CFG enables (R316). -/
def startRound (s : State) : State :=
  let cfg := dparam s 0x6006 1
  let l := (if bitOf cfg 24 then (List.range 432).map unitGrove else []) ++ (if bitOf cfg 25 then (List.range 300).map (0x2000 + ·) else [])
  roundStep { s with fb.round := some ⟨l.filter (serving s), []⟩, fb.roundAt := s.time.dev }

/-- PERIOD hours of device time have passed since the last round's start; PERIOD 0 starts none (R316, Table 19-9). -/
def roundDue (s : State) : Bool :=
  let hours := field (dparam s 0x6006 1) 15 0
  decide (hours ≠ 0) && decide (s.fb.roundAt + hours * 3600000000000 ≤ s.time.dev)

/-- SURVEY_ROUND: a survey round starts as its PERIOD has passed, unless one is under way (R316). -/
def execSurveyRound (s : State) : Out :=
  .next (if isReady s && roundDue s && s.fb.round.isNone then startRound s else s)

/-! ## Faults and fences -/

/-- The hard causes of Table 19-3 for a kind of unit. -/
def hardCause (kind cause : Nat) : Bool :=
  match kind with
  | 1 => [0x02, 0x03, 0x04, 0x05].contains cause
  | 2 => cause = 0x05
  | 3 => [0x03, 0x05, 0x20, 0x21, 0x30].contains cause
  | _ => [0x05, 0x30].contains cause

/-- HARD_FAULT (R307). -/
def execHardFault (unit : BitVec 16) (cause : BitVec 8) (s : State) : Out :=
  .next (if isUnit s unit.toNat && hardCause (unitKind unit.toNat) cause.toNat then roundStep (hardFault s unit.toNat cause.toNat) else s)

/-- CHECKER_SELF_TEST: the known-answer test of a grove's checker; a failure fences the grove (R300). -/
def execCheckerSelfTest (g : Fin 432) (pass : Bool) (s : State) : Out :=
  .next (if pass || s.groves.gated.contains g then s else roundStep (hardFault s (unitGrove g) 0x04))

/-- Firings with a shadowed task on a grove: instance, node, firing number. -/
def shadowedOn (s : State) (g : Nat) : List (Nat × Nat × Nat) :=
  s.root.insts.flatMap (fun x => x.2.nodes.zipIdx.flatMap (fun y =>
    (y.1.firings.filter (fun f => !f.returned && f.tasks.any (fun t => t.shadowed && !t.released && decide (t.grove = g) && (match t.place with
      | .ready _ => false
      | _ => true)))).map (fun f => (x.1, y.2, f.num))))

/-- The firings with a shadowed task on a grove undone and returned (R184, Table 19-4). -/
def undoShadowed (s : State) (g : Nat) : State :=
  (shadowedOn s g).foldl (fun s q => match instOf s q.1, firingOf s q.1 q.2.1 q.2.2 with
    | some x, some f => undoFiring s q.1 q.2.1 x f
    | _, _ => s) s

/-- A unit's CLEARING goes on: without a hard cause a grove's unshadowed running tasks finish first, up to CLEAR_LIMIT (Table 19-4). -/
def clearGoesOn (s : State) (u : Nat) : Bool :=
  decide (unitKind u = 1) && !s.fb.hardClearing.contains u &&
    decide (s.time.dev < (unitSum s u).changeAt + dparam s 0x6003 5 * 1000) &&
    (undoShadowed s (unitIndex u)).gr.cores.any (fun q => decide (q.1 / 64 = unitIndex u))

/-- The effects of a grove's CLEARING (Table 19-4): shadowed tasks undone, queued tasks returned, the instances of tasks that still run
frozen with UNIT_FAULT 0x41, dirty lines written back, counters folded, the scratch lost. -/
def clearGrove (s : State) (g : Nat) : State :=
  let s2 := returnQueued (undoShadowed s g) g
  let s3 := (s2.gr.cores.filter (fun q => decide (q.1 / 64 = g))).foldl (fun s q =>
    if s.gr.cores.any (fun z => decide (z.1 = q.1)) then freezeInst s q.2.ins stUnitFault (faultAux 0x41 g (q.2.upc % 16384)) true .fault else s) s2
  let s4 := flushGrove s3 g
  let s5 := match ctrPart s4 g with
    | some p => foldCounters s4 p g
    | none => s4
  loseScratch { s5 with groves := { s5.groves with leaving := sdel s5.groves.leaving g, departing := sdel s5.groves.departing g, joining := sdel s5.groves.joining g } } g

/-- CLEAR_DONE: a CLEARING unit reaches FENCED, complete or at the end of CLEAR_LIMIT (R297, Table 19-4). -/
def execClearDone (unit : BitVec 16) (s : State) : Out :=
  let u := unit.toNat
  .next (if !isUnit s u || decide ((unitSum s u).state ≠ 1) || clearGoesOn s u then s
  else
    let s1 := if unitKind u = 1 then clearGrove s (unitIndex u)
      else if unitKind u = 2 then clearBank s (unitIndex u / 50) (unitIndex u % 50)
      else if unitKind u = 4 ∧ (fport s (unitIndex u)).state = 2 then portLeavesUp s (unitIndex u) 4 else s
    roundStep (reachFenced s1 u))

/-- A bank that has passed its survey is a spare, or becomes active again at the next directory epoch flip (R229, R311, R313). -/
def bankBack (s : State) (d b : Nat) : State :=
  let s1 := { s with canopy.removed := s.canopy.removed.filter (· ≠ 50 * d + b) }
  if (activeBanks s1 d).length < 48 then { s1 with canopy.flipWait := insertNat s1.canopy.flipWait (50 * d + b) } else s1

/-- REGROW_DONE: a REGROWING unit passes its survey set and returns, or fails it and is retired (R309, R311). A grove of a partition waits
for admission at a step boundary. -/
def execRegrowDone (unit : BitVec 16) (pass : Bool) (entry : BitVec 16) (s : State) : Out :=
  let u := unit.toNat
  let k := unitKind u
  .next (if !isUnit s u || decide ((unitSum s u).state ≠ 3) || decide (k = 3) || (pass && decide (k = 4) && decide ((fport s (unitIndex u)).width = 0)) ||
      decide (k = 1 ∧ sfind s.groves.joining (unitIndex u) = some .waiting) then s
  else
    let id := surveyId s k
    let s1 := record s 0x0005 u 0xFF 0xFF ((if pass then 0 else 1) + (entry.toNat <<< 16) + (id <<< 32))
    roundStep (if !pass then failReturn s1 u 0x05
      else if k = 1 then
        let g := unitIndex u
        let s2 := zeroStore s1 g
        if (groveTarget s2 g).isSome then { s2 with groves.joining := sput s2.groves.joining g .waiting }
        else returnUnit { s2 with groves.gated := if groveEnabled s2 g then s2.groves.gated else insertNat s2.groves.gated g } u id
      else if k = 2 then returnUnit (bankBack s1 (unitIndex u / 50) (unitIndex u % 50)) u id
      else portShown (returnUnit s1 u id) u 2))

end Sys2Proof.Machine
end

