-- ==== Sys2Proof/Machine/Values.lean ====
section
/-! DEFINITION. What a READ of each parameter returns (R41, R349): RO parameters from the state they report, the others as committed. -/
namespace Sys2Proof.Machine

/-- Fields of given sizes in bytes, packed from byte 0 upward; a field keeps its low bytes. -/
def pack : List (Nat × Nat) → Nat
  | [] => 0
  | (n, v) :: l => v % 256 ^ n + 256 ^ n * pack l

/-- Equal fields of `n` bytes. -/
def packAll (n : Nat) (l : List Nat) : Nat := pack (l.map (fun v => (n, v)))

/-- A value that the spec leaves open at this read: `n` bytes of the present draw. -/
def openValue (s : State) (n : Nat) : Nat := Config.freeBits s.free % 256 ^ n

/-- A hash shown as its 48 bytes in order. -/
def hashValue (h : BitVec 384) : Nat := leNat (beBytes 48 h.toNat)

/-! ## Identity, directory, Understory, events, power, start-up -/

/-- FIELD_STATUS (Table 3-5). -/
def fieldStatus (s : State) : Nat :=
  field (lget 0 s.fieldBus.busState 0) 1 0 + (field (lget 0 s.fieldBus.busState 1) 1 0 <<< 2) +
  bitAt s.fieldBus.nodeConflict 4 + bitAt s.fieldBus.nodeInvalid 5 + bitAt s.fieldBus.frameIgnored 6

/-- EV_STATUS of a source (Table 5-5). -/
def evStatus (s : State) (n : Nat) : Nat :=
  bitAt (s.ev.pending.getLsbD n) 0 + bitAt (s.ev.inService.getLsbD n) 1 + bitAt (s.ev.overrun.getLsbD n) 2

/-- GROVES_ENABLED (Table 6-6): enabled or still to leave, past power-up, and SERVING. -/
def grovesEnabled (s : State) : Nat :=
  (List.range 432).countP (fun g => (groveEnabled s g || (sfind s.groves.leaving g).isSome || (sfind s.groves.departing g).isSome) && serving s (unitGrove g) &&
    decide (sfind s.groves.joining g ≠ some .powering))

/-- POWER_STATE (R97). -/
def powerState (s : State) : Nat :=
  match s.power.mode with
  | .dormant => 3
  | .idle => 2
  | .running => if (List.range 432).all (groveEnabled s) then 0 else 1

/-- RO parameters below 0x2000. -/
def roLow (s : State) (idx sub : Nat) : Option Nat :=
  if idx = 0x0001 then (match sub with
    | 1 => some s.fuses.serial.toNat
    | 2 => some (lget 16 [16, 32, 64] s.fuses.ordering)
    | 4 => some (s.seed.coldStarts % 2 ^ 32)
    | _ => none)
  else if idx = 0x0020 then (match sub with
    | 1 => some (s.dir.commits % 2 ^ 64)
    | 5 => some s.dir.txns.length
    | _ => none)
  else if idx = 0x0030 then (match sub with
    | 3 => some (nodeId s)
    | 6 => some (fieldStatus s)
    | _ => none)
  else if idx = 0x0040 then (match sub with
    | 1 => some s.und.primary
    | 2 => some (bitAt s.und.standbyOk 0)
    | 3 => some (s.und.failovers % 2 ^ 32)
    | 6 => some (wardenState s)
    | 7 => some (lget 0 s.und.restarts 0 % 2 ^ 32)
    | 8 => some (lget 0 s.und.restarts 1 % 2 ^ 32)
    | _ => none)
  else if idx = 0x1002 ∧ sub = 3 then some (gpioIn s)
  else if idx = 0x1003 then some s.und.mioAborts
  else if 0x1120 ≤ idx ∧ idx ≤ 0x1127 then some (evStatus s (128 * (idx - 0x1120) + (sub - 1)))
  else if idx = 0x1129 then some (s.ev.overruns % 2 ^ 32)
  else if 0x1200 ≤ idx ∧ idx ≤ 0x1204 then
    let n := 128 * (idx - 0x1200) + (sub - 1)
    some (field (domainCtl s n) 3 0 + bitAt (domainGated s n) 8 + (divNow s n <<< 9))
  else if idx = 0x1210 ∧ sub ≤ 6 then some (lget 0 s.power.tj (sub - 1)).toNat
  else if idx = 0x1220 then (match sub with
    | 2 => some (s.power.powerNow % 65536)
    | 3 => some (s.power.capStep + (s.power.thermStep <<< 3) + bitAt s.power.capLimiting 6 + bitAt s.power.thermLimiting 7 +
                 bitAt s.power.capUnattainable 8)
    | _ => none)
  else if idx = 0x1230 ∧ sub = 7 then some (grovesEnabled s)
  else if idx = 0x1240 then (match sub with
    | 1 => some (powerState s)
    | 8 => some (s.power.sleepOutcome + (s.power.wakeCause <<< 2))
    | 9 => some (s.power.doorbellsDropped % 2 ^ 32)
    | _ => none)
  else if idx = 0x1400 then (match sub with
    | 1 => some s.boot.stage
    | 2 => some s.boot.error
    | 3 => some s.boot.cause
    | 6 => some s.boot.bootedSlot
    | 9 => some (s.boot.readyTime % 2 ^ 32)
    | _ => none)
  else if idx = 0x1401 then some s.pins.straps.toNat
  else if idx = 0x1420 then (match sub with
    | 3 => some s.boot.ctData.length
    | 5 => some s.boot.ctStatus
    | _ => none)
  else if idx = 0x1421 then (match sub with
    | 1 => some (packAll 4 ((List.range 4).map (lget 0 s.seed.minSvn)))
    | 2 => some (hashValue s.seed.operatorKeyHash)
    | 3 => some (hashValue s.fuses.rootKeyHash)
    | _ => none)
  else none

/-! ## Trailhead, stands, Rootwork -/

/-- RING_STATE of a local ring (Table 8-2); a ring that is not enabled reads OFF with every counter 0. -/
def ringState (s : State) (p l : Nat) : Nat :=
  match (if l < ringCount s p then ringOf s (ringFirst s p + l) else none) with
  | none => 0
  | some r => pack [(4, r.sqHead.toNat), (4, r.sqTail.toNat), (4, r.cqTail.toNat), (4, r.cqHead.toNat), (8, r.nextSeq.toNat), (8, r.csw.toNat),
                    (1, r.state), (1, r.err)]

/-- Stands of a partition in a state, and those ready. -/
def standsIn (s : State) (p st : Nat) : Nat := s.stands.stands.countP (fun q => decide (q.2.part = p) && decide (q.2.state = st))
def standsReady (s : State) (p : Nat) : Nat := s.stands.stands.countP (fun q => decide (q.2.part = p) && standReady s q.2)

/-- A stand entry (Table 9-1). -/
def standEntry (s : State) (n : Nat) : Nat :=
  match standOf s n with
  | none => 0
  | some x =>
    pack [(1, x.state), (1, x.part), (1, bitAt x.stepPending 0 + bitAt x.listed 1 + bitAt x.parkReq 2 + bitAt x.closeReq 3), (1, x.model),
          (4, x.stateBuf), (4, x.budget), (4, x.ring), (8, x.stepSeq.toNat), (8, x.deadline), (8, x.steps), (4, x.lastStep)]

/-- The instance that RW_PEEK_SEL names, when it is active and the partition's. -/
def peekedNum (s : State) (p : Nat) : Nat :=
  let sel := param s 0x2602 1 p
  if sel = 0xFFFFFFFF then 16312 + p else sel
def peeked (s : State) (p : Nat) : Option Inst := (instOf s (peekedNum s p)).filter (fun x => decide (x.part = p))

/-- The longest time in µs for which a node of an instance that is WAITING has waited (Table 10-5). -/
def longestWait (s : State) (x : Inst) : Nat :=
  (x.nodes.zipIdx.filter (fun q => !nodeDone q.1 && !nodeRunning q.1 && !canFire s x q.2 q.1)).foldl (fun a q => Nat.max a ((s.time.clock - q.1.since) / 1000)) 0

/-- RW_PEEK (Table 10-5). -/
def rwPeek (s : State) (p : Nat) : Nat :=
  match peeked s p with
  | none => 0
  | some x => packAll 4 [cntReady s x, cntRunning x, cntFlight s (peekedNum s p) x, cntExternal s x, cntWaiting s x, x.tag,
                         Nat.min (2 ^ 32 - 1) (longestWait s x), x.refusals]

/-- RO parameters 0x2000 to 0x2FFF. -/
def roWork (s : State) (idx sub p : Nat) : Option Nat :=
  if idx = 0x2004 then (match sub with
    | 1 => some (s.trail.dbDropped % 2 ^ 32)
    | 2 => some (s.trail.duplicates % 2 ^ 64)
    | _ => some (s.trail.e2eResends % 2 ^ 64))
  else if 0x2120 ≤ idx ∧ idx ≤ 0x213F then some (ringState s p (128 * (idx - 0x2120) + (sub - 1)))
  else if idx = 0x2404 then (match sub with
    | 1 => some (packAll 4 [standsIn s p 1, standsIn s p 2, standsIn s p 3, standsReady s p])
    | 2 => some (sget 0 s.stands.stepLists p)
    | 3 => some (sget 0 s.stands.lateSteps p)
    | _ => let l := sget (0, 0) s.stands.lastList p
      some (pack [(2, l.1), (2, 0), (4, l.2)]))
  else if idx = 0x2405 ∧ sub = 2 then some (standEntry s (standFirst s p + param s 0x2405 1 p))
  else if idx = 0x2410 then some (pack [(4, slotGraph s p (sub - 1)), (1, slotState s p (sub - 1)), (3, 0), (4, slotStands s p (sub - 1))])
  else if idx = 0x2601 ∧ sub = 1 then
    some (packAll 4 [s.root.insts.countP (fun q => decide (q.2.part = p)), sget 0 s.root.stats (4 * p + 1), sget 0 s.root.stats (4 * p + 2), sget 0 s.root.stats (4 * p + 3)])
  else if idx = 0x2602 ∧ sub = 2 then some (rwPeek s p)
  else if idx = 0x2603 then some (packAll 2 ((List.range 72).map (fun g => (gQueue s (72 * (sub - 1) + g)).length)))
  else if idx = 0x2604 then (match sub with
    | 2 => some (openValue s 256)
    | 3 => some (packAll 8 [sget 0 s.root.queueWait (2 * p), sget 0 s.root.queueWait (2 * p + 1)])
    | _ => none)
  else none

/-! ## Groves, microcode, layers, Thicket -/

/-- The 4,096 bytes of CS_READ (R176, Table 11-6). A selector whose KIND names no store, as its default does, selects no word. -/
def csRead (s : State) : Nat :=
  let sel := dparam s 0x3003 1
  let kind := field sel 7 0
  let u := field sel 31 16
  let a := field sel 47 32
  if kind = 0 ∨ 3 < kind then openValue s 4096
  else
    let ps := patchOf s (kind - 1) u
    let size := storeSize kind
    let word (n : Nat) : Nat := if n < size then (storeWord s (kind - 1) n).toNat else 0
    match field sel 15 8 with
    | 0 => packAll 32 ((List.range 128).map (fun k => word (a + k)))
    | 1 => packAll 32 ((List.range 128).map (fun k => match (if a + k < size then matchReg ps (a + k) else none) with
        | some w => (sget 0 ps.words w).toNat
        | none => word (a + k)))
    | 2 => packAll 32 ((List.range 128).map (fun k => (sget 0 ps.words (a + k)).toNat))
    | _ => packAll 4 ((List.range 64).map (fun r => match sfind ps.regs r with
        | some (m, w) => m + (w <<< 14) + (r <<< 24)
        | none => 0))

/-- A QLAYER entry as it reads: an OSCALE of 0, its default, reads 1.0 (Table 13-5). -/
def layerValue (v : Nat) : Nat := if field v 63 32 = 0 then putField v 63 32 0x3F800000 else v

/-- RO parameters 0x3000 to 0x3FFF. -/
def roGrove (s : State) (idx sub p : Nat) : Option Nat :=
  if idx = 0x3001 ∧ sub = 2 then some (if splitOf s p = param s 0x3001 1 p then 0 else 1)
  else if idx = 0x3003 then (match sub with
    | 2 => some (csRead s)
    | 3 => some (leNat ((List.range 3).flatMap (fun k => beBytes 48 (lget 0 s.gr.micro.digests k).toNat)))
    | _ => none)
  else if idx = 0x3004 then
    some (pack (((List.range 3).flatMap (fun k => [(2, (lget {} s.gr.micro.patch k).id), (2, (lget [] s.gr.micro.switching k).length)])) ++
                [(1, s.gr.micro.lastRule)]))
  else if idx = 0x3005 then (match sub with
    | 1 => some (packAll 8 ((List.range 4).map (fun k => sget 0 s.gr.spec (4 * p + k))))
    | _ => some (sget 0 s.gr.microFaults p))
  else if idx = 0x3410 then some (if sub = 1 then 0x3F800000 <<< 32 else layerValue (param s 0x3410 sub p))
  else if idx = 0x3420 then
    let q := sget {} s.gr.qstat (64 * p + (sub - 1))
    some (packAll 8 [q.trips, q.reruns, q.exhausted, q.adaptLimit])
  else if idx = 0x3801 then (match sub with
    | 2 => some (hotUsed s p)
    | 3 => some (sget 0 s.thk.hotFull p)
    | _ => none)
  else if idx = 0x3802 ∧ sub = 2 then some (packAll 8 ((List.range 4).map (fun k => sget 0 s.thk.pfStats (4 * p + k))))
  else if idx = 0x3820 ∨ idx = 0x3821 then
    some (packAll 8 ((List.range 4).map (fun k => sget 0 s.thk.tableStats (1024 * p + 4 * (128 * (idx - 0x3820) + (sub - 1)) + k))))
  else none

/-! ## Memory, row updates, fabric -/

/-- RO parameters 0x4000 to 0x5FFF. -/
def roMem (s : State) (idx sub p : Nat) : Option Nat :=
  if idx = 0x4001 ∧ sub = 2 then
    some (pack [(1, s.mem.speed), (1, if s.mem.density = 64 then 2 else if s.mem.density = 32 then 1 else 0), (1, s.mem.ranks), (1, if s.mem.eccOn then 1 else 0),
                (4, usable s / 2 ^ 20)])
  else if idx = 0x4002 ∧ sub = 2 then some (pack ((List.range 6).map (fun d => (2, cacheMiB s d)) ++ [(1, s.canopy.hotRegion)]))
  else if idx = 0x4004 then
    let x := mport s (sub - 1)
    some (pack [(8, x.corrected), (8, x.uncorrected), (8, x.lastUe), (1, (unitSum s (unitPort (sub - 1))).state)])
  else if idx = 0x4005 then
    let d := sub - 1
    some (pack [(8, (failedBanks s d).foldl (fun a b => a + 2 ^ b) 0), (8, (activeBanks s d).countP (fun b => decide (48 ≤ b))),
                (8, sget 0 s.canopy.corrected d), (8, sget 0 s.canopy.uncorrected d)])
  else if idx = 0x4006 then some (s.mem.poisoned % 2 ^ 64)
  else if idx = 0x4007 then some (packAll 8 [s.canopy.snoops, s.canopy.crossings, s.canopy.backInv, s.canopy.atomics])
  else if idx = 0x4801 ∧ sub = 2 then some (packAll 8 ((List.range 6).map (fun k => sget 0 s.rows.stats (6 * p + k))))
  else if idx = 0x4802 then (match sub with
    | 1 => some (packAll 2 ((List.range 6).flatMap (fun d =>
        [(dieEntries s d).length, (dieEntries s d).countP (fun e => decide (e.state = .committed) || decide (e.state = .writing))])))
    | 2 => some (packAll 1 ((List.range 6).flatMap (fun d => let c := lget 0 s.rows.epoch d
        [c, (List.range 8).foldl (fun a e => if e = c ∨ 0 < epochReaders s d e then a + 2 ^ e else a) 0])))
    | _ => some (s.rows.stalls % 2 ^ 64))
  else if idx = 0x5001 ∧ sub = 1 then
    let mode := if solo s then 0 else if fabAddr s = 0 then 1 else 2
    some (pack [(2, fabAddr s), (2, managerNow s), (2, s.seed.incarnation.toNat), (1, mode + (s.fab.epoch <<< 2) + bitAt s.fab.isManager 3)])
  else if idx = 0x5003 then
    let x := fport s (sub - 1)
    some (pack [(1, x.state), (1, x.width), (1, x.lanes % 16), (1, 0), (4, x.replays), (4, x.linkLost), (8, x.corrected), (4, x.uncorrectable)])
  else if idx = 0x5006 then some (packAll 8 ((List.range 8).map (lget 0 s.fab.stats)))
  else if idx = 0x5008 then (match sub with
    | 4 => some (pack [(12, s.fab.rspHead), (1, s.fab.rspState)])
    | 5 => some (s.fab.rspValue % 256 ^ 4096)
    | _ => none)
  else none

/-! ## Firebreak -/

/-- One step of the CRC-32 of history records (Table 19-6), reflected. -/
def crc32Bit (c : Nat) : Nat := if c % 2 = 1 then (c / 2) ^^^ 0xEDB88320 else c / 2

/-- CRC-32 of bytes: polynomial 0x04C11DB7, reflected, initial and final all ones. -/
def crc32 (bs : List Byte) : Nat :=
  (bs.foldl (fun c b => Nat.repeat crc32Bit 8 (c ^^^ b.toNat)) 0xFFFFFFFF) ^^^ 0xFFFFFFFF

/-- A history record (Table 19-6). -/
def histValue (r : HistRec) : Nat :=
  let body := pack [(2, r.type), (2, r.unit), (2, r.boots), (1, r.fromState), (1, r.toState), (8, r.time), (8, r.seq), (32, r.detail), (4, 0)]
  body + crc32 (leBytes 60 body) <<< 480

/-- HIST_READ (R318): 64 records from HIST_SEL upward; a slot overwritten or not yet written reads zero. -/
def histRead (s : State) : Nat :=
  packAll 64 ((List.range 64).map (fun k => match s.seed.hist.find? (fun r => decide (r.seq = dparam s 0x6005 1 + k)) with
    | some r => histValue r
    | none => 0))

/-- UNIT_STATE of the selected unit (Table 19-8). -/
def unitState (s : State) : Nat :=
  let u := dparam s 0x6004 1
  let x := unitSum s u
  pack [(1, if isUnit s u then x.state else 0xFF), (1, bitAt x.retired 0 + bitAt x.inSurvey 1), (2, x.strikes), (4, x.fences), (1, x.cause), (1, 0),
        (2, x.changeBoots), (2, x.anchorBoots), (2, 0), (8, x.changeAt), (8, x.anchorAt)]

/-! ## Counters and Tracks -/

/-- Programmable counters as they read: bits 47:0 value, bit 48 OVF. -/
def ctrValues (c : Counters) : List Nat := (List.range 8).map (fun k => lget 0 c.pc k % 2 ^ 48 + bitAt (bitOf c.ovf k) 48)

/-- 128 samples of a die from number `n` (R343), of one partition or of all. -/
def tracksRead (s : State) (sel : Nat) (part : Option Nat) : Nat :=
  let b := sget {} s.trk.bufs (field sel 7 0)
  let n := field sel 127 64
  packAll 32 ((List.range 128).map (fun k =>
    if n + k < b.wp ∧ b.wp ≤ n + k + 4096 then
      (match b.entries.find? (fun e => decide (e.1 = n + k)) with
      | some e => if part.all (fun p => p = e.2.1) then e.2.2 else 0
      | none => 0)
    else 0))

/-- RO parameters from 0x6000 upward. -/
def roHigh (s : State) (idx sub p : Nat) : Option Nat :=
  if idx = 0x6004 ∧ sub = 2 then some (unitState s)
  else if idx = 0x6005 then (match sub with
    | 2 => some (histRead s)
    | 3 => some s.seed.histNext
    | _ => none)
  else if idx = 0x6006 ∧ sub = 3 then
    some (pack ([s.fb.rounds, s.fb.unitsDone, s.fb.unitsFailed, s.fb.unitsSkipped].map (fun v => (4, v)) ++ (List.range 4).map (fun k => (2, surveyId s (k + 1)))))
  else if idx = 0x6007 then some (packAll 8 ((List.range 8).map (fun k => sget 0 s.fb.stats (8 * p + k))))
  else if idx = 0x7001 then (match sub with
    | 3 => some (s.time.dev % 2 ^ 64)
    | 4 => some (timeStatus s)
    | _ => none)
  else if idx = 0x7002 then (match sub with
    | 1 => some (leNat (deviceKeyBytes s))
    | 2 => some (leNat (deviceCert s))
    | _ => some (packAll 4 binEdges))
  else if idx = 0x7003 then (match sub with
    | 1 => some (leNat (ledgerState s))
    | 3 => some (leNat ((List.range 4096).map (fun k => ledgerByte s none (dparam s 0x7003 2 + k))))
    | _ => none)
  else if idx = 0x7004 then some (packAll 8 [s.look.foreign, s.look.unmeasured, s.look.failoverSecs, s.look.quiet])
  else if idx = 0x7020 ∨ idx = 0x7021 then some (sget 0 s.seed.bseq (128 * (idx - 0x7020) + (sub - 1)))
  else if idx = 0x7402 then (match sub with
    | 5 => let g := param s 0x7402 4 p
      let c := groveCtr s g
      some (if ctrPart s g = some p then packAll 8 (ctrValues c ++ (List.range 4).map (lget 0 c.fixed) ++ [s.time.dev]) else 0)
    | 6 => some (packAll 8 ((List.range 12).map (ctrSum s p)))
    | _ => none)
  else if idx = 0x7411 then some (packAll 8 (ctrValues (dieCtr s (sub - 1)) ++ [s.time.dev]))
  else if idx = 0x7413 ∧ sub = 2 then some (packAll 8 ((List.range 4).map (fun k => sget 0 s.trk.engine (4 * dparam s 0x7413 1 + k))))
  else if idx = 0x7421 then
    let b := sget {} s.trk.bufs (sub - 1)
    some (pack [(8, b.wp), (8, b.base), (4, b.missed), (4, bitAt b.full 0)])
  else if idx = 0x7422 ∧ sub = 2 then some (tracksRead s (param s 0x7422 1 p) (some p))
  else if idx = 0x7423 ∧ sub = 2 then some (tracksRead s (dparam s 0x7423 1) none)
  else none

/-- The state that RO parameters report: in DORMANT the blocks without power show what they held last (R103). -/
def awake (s : State) : State :=
  match s.asleep with
  | none => s
  | some z => { s with root := z.root, gr := z.gr, thk := z.thk, rows := z.rows, canopy := z.canopy, ports := z.ports, fab := z.fab, groves := z.groves }

/-- What a READ returns: subindex 0 the highest subindex (R33), a WO parameter 0 (R2), an RO parameter what it reports, any other its
committed value. -/
def readValue (s0 : State) (idx sub inst : Nat) : Nat :=
  if sub = 0 then highestSub idx
  else
    let s := awake s0
    let ro := if idx < 0x2000 then roLow s idx sub
      else if idx < 0x3000 then roWork s idx sub inst
      else if idx < 0x4000 then roGrove s idx sub inst
      else if idx < 0x6000 then roMem s idx sub inst
      else roHigh s idx sub inst
    match ro with
    | some v => v
    | none => match findParam idx sub with
      | some d => if d.acc = .wo then 0 else param s idx sub inst
      | none => 0

end Sys2Proof.Machine
end

