-- ==== Sys2Proof/Machine/Rules.lean ====
section
/-!
DEFINITION. What a commit checks (R45, R46, R53): the value rules of every parameter, evaluated on the state the transaction would
leave, and the rules that answer STATE.
-/
namespace Sys2Proof.Machine

/-- A value lies in a range. -/
def within (lo hi v : Nat) : Bool := decide (lo ≤ v) && decide (v ≤ hi)

/-- FP32 bits of a positive finite number, and of zero or one. -/
def posFinite (v : Nat) : Bool := within 1 0x7F7FFFFF v
def zeroOrPos (v : Nat) : Bool := decide (v ≤ 0x7F7FFFFF) || decide (v = 0x80000000)

/-- A power of two between two bounds. -/
def powerIn (lo hi v : Nat) : Bool := within lo hi v && decide (2 ^ log2Nat v = v)

/-! ## Layout rules (R15, R98, R286) -/

/-- Two of a list of ranges (start, length) overlap; empty ranges overlap nothing. -/
def rangesClash : List (Nat × Nat) → Bool
  | [] => false
  | r :: rs => rs.any (fun q => decide (0 < r.2) && decide (0 < q.2) && decide (r.1 < q.1 + q.2) && decide (q.1 < r.1 + r.2)) || rangesClash rs

/-- Enabled partitions. -/
def liveParts (s : State) : List Nat := (List.range 72).filter (partEnabled s)

/-- A grove of some die is in two partitions' sets. -/
def setsClash (s : State) : Bool :=
  (List.range 6).any (fun d => ((List.range 72).foldl (fun (a : Nat × Bool) p =>
    let v := param s 0x5802 (d + 1) p
    (a.1 ||| v, a.2 || decide (a.1 &&& v ≠ 0))) (0, false)).2)

/-- An enabled partition has no enabled grove of its set on some die (R15). -/
def lacksGrove (s : State) : Bool :=
  (liveParts s).any (fun p => (List.range 6).any (fun d => decide (param s 0x5802 (d + 1) p &&& dparam s 0x1230 (d + 1) = 0)))

/-- An enabled partition's range lies beyond a bound. -/
def rangeBeyond (s : State) (bound : Nat) : Bool := (liveParts s).any (fun p => decide (bound < partBase s p + partSize s p))

/-- A VF and port that two enabled partitions name. -/
def vfClash (s : State) : Bool :=
  let named := ((liveParts s).map (fun p => field (partMap s p) 8 0)).filter (fun v => decide (v % 256 ≠ 0))
  decide (named.eraseDups.length ≠ named.length)

/-- The rules of R286. -/
def layoutBad (s : State) : Bool :=
  vfClash s || setsClash s || lacksGrove s || rangesClash ((liveParts s).map (fun p => (partBase s p, partSize s p))) || rangeBeyond s (generalEnd s)

/-- General memory if INLINE_ECC were as given (R230, R247). -/
def generalWith (s : State) (ecc : Bool) : Nat :=
  (if ecc then installedMiB s * 31 / 32 else installedMiB s) * 2 ^ 20 - 2368 * 2 ^ 20

/-! ## Value rules -/

/-- R82 for EV_ROUTE and EV_CONFIG of a source. -/
def routeBad (v : Nat) : Bool :=
  decide (5 ≤ field v 2 0) || decide (72 < field v 10 3) || decide ((if field v 10 3 = 0 then 319 else 23) < field v 21 11)
def configBad (src v : Nat) : Bool :=
  decide (0x200 ≤ src) && (decide (field v 15 8 = 0) || (decide (1 < field v 15 8) && decide (field v 31 16 = 0)))

/-- R75: a setting a pin does not have, or a function signal on two pins. -/
def pinsBad (s : State) : Bool :=
  let sigs := (List.range 40).filterMap (fun p => mioSignal p (mioCommitted s p))
  (List.range 40).any (fun p => !mioHas p (mioCommitted s p)) || decide (sigs.eraseDups.length ≠ sigs.length)

/-- R124 and R125 for a RING_CFG that leaves ENABLE = 1, by its writer: `was` is the value before. -/
def ringBad (who : Session) (s : State) (p was cfg : Nat) : Bool :=
  let fn := cf cfg 27 26
  let port := field cfg 201 201
  let mapped := decide (fn = 0) || decide (partOfVf s port fn = some p)
  let own := match who with
    | .vf q n => decide (fn = n.val + 1) && decide (port = q.val) && (let r := evRoute s (0x200 + cf cfg 29 28)
        decide (routeTarget r = 3 + q.val) && decide (field r 10 3 = n.val + 1))
    | _ => true
  cfgEnable cfg &&
    (!within 6 16 (cf cfg 24 24) || decide (cf cfg 39 32 = 0) || decide (511 < cf cfg 29 28) || !mapped || !own ||
      ((!cfgEnable was || !bitOf cfg 203) && (ringAddrs s p cfg).isNone))

/-- Table 14-2, where VALID is left 1. -/
def descBad (v : Nat) : Bool :=
  tdValid v && (decide (tdRows v = 0) || !within 32 1024 (tdElems v) || decide (tdElems v % 32 ≠ 0) || decide (5 < tdFormat v))

/-- Table 13-5. -/
def layerBad (v : Nat) : Bool :=
  let adj := signedOf 8 (field v 71 64)
  decide (2 < field v 7 0) || !posFinite (field v 63 32) || decide (adj < -16) || decide (15 < adj) || decide (16383 < field v 95 80) ||
  decide (16383 < field v 111 96)

/-- A MODEL_TABLE entry names a graph whose descriptor is not valid (R153). -/
def graphBad (s : State) (p h : Nat) : Bool :=
  decide (h ≠ 0) && (match relocate s p h [kGraph] true false 0 0 with
    | .error _ => true
    | .ok e => match (readGraph s p e).2 with
      | .error _ => true
      | .ok _ => false)

/-- Table 20-1 and R324. -/
def classBad (v : Nat) : Bool :=
  decide (71 < field v 15 8) || (List.range 4).any (fun k =>
    let p := field v (64 * k + 95) (64 * k + 64)
    let t := field v (64 * k + 127) (64 * k + 96)
    decide (999999 < p) || (decide (p ≠ 0) && !within 1000 1000000000 t))

/-- Table 21-1: an event code outside the table of the counter's kind. -/
def codesBad (lo hi v : Nat) : Bool :=
  (List.range 8).any (fun k => let c := field v (32 * k + 7) (32 * k)
    decide (c ≠ 0) && !within lo hi c)

/-- Table 11-7: KIND, VIEW and UNIT of CS_READ_SEL. -/
def csSelBad (v : Nat) : Bool :=
  !within 1 3 (field v 7 0) || decide (3 < field v 15 8) || decide (lget 0 [0, 432, 96, 48] (field v 7 0) ≤ field v 31 16)

/-- The allotments of every partition: FIRST and COUNT of rings or of stands. -/
def ringAllots (s : State) : List (Nat × Nat) := (List.range 72).map (fun p => (ringFirst s p, ringCount s p))
def standAllots (s : State) : List (Nat × Nat) := (List.range 72).map (fun p => (standFirst s p, standCount s p))

/-- Value rules below 0x2000. `s` is the state before the commit, `a` the state it would leave, `v` the value. -/
def badLow (s a : State) (idx sub v : Nat) : Bool :=
  if idx = 0x0020 then (match sub with
    | 2 => decide (v ≠ 0xD5F0)
    | 3 => !bitOf v 4
    | 4 => !within 10 10000 v
    | _ => false)
  else if idx = 0x0030 then (match sub with
    | 1 => decide (1 < v)
    | 2 => decide (2 < v)
    | 4 => decide (v ≠ 0) && !within 100 60000 v
    | _ => false)
  else if idx = 0x0040 then (match sub with
    | 4 => decide (v ≠ 0x5A3D) || !s.und.standbyOk
    | 5 => decide (1 < v)
    | _ => false)
  else if idx = 0x1000 then pinsBad a
  else if idx = 0x1001 then decide (field v 1 0 = 3)
  else if 0x1110 ≤ idx ∧ idx ≤ 0x1117 then routeBad v
  else if 0x1118 ≤ idx ∧ idx ≤ 0x111F then configBad (128 * (idx - 0x1118) + (sub - 1)) v
  else if 0x1200 ≤ idx ∧ idx ≤ 0x1204 then !divMaxValid (128 * (idx - 0x1200) + (sub - 1)) (field v 2 0)
  else if idx = 0x1210 then !within 70 105 v
  else if idx = 0x1220 then !within 300 1050 v
  else if idx = 0x1230 then (List.range 6).any (fun d => decide (dparam a 0x1230 (d + 1) = 0)) || lacksGrove a
  else if idx = 0x1240 then (match sub with
    | 2 => !(decide (v = 0) || decide (v = 2) || decide (v = 3))
    | 3 => decide (v ≠ 0) && !within 10 60000 v
    | 4 => decide (1 < v)
    | _ => false)
  else if idx = 0x1400 then (match sub with
    | 4 => !(decide (v = 0xC01D) || decide (v = 0x7A11))
    | 5 => decide (1 < v)
    | 7 => decide (2 < v)
    | 8 => decide (1 < v)
    | _ => false)
  else if idx = 0x1410 then decide (v ≠ 0x9C3E)
  else if idx = 0x1420 then (match sub with
    | 1 => decide (33554432 < v)
    | 4 => decide (v ≠ 1)
    | _ => false)
  else false

/-- Value rules 0x2000 to 0x3FFF. -/
def badMid (who : Session) (s a : State) (idx sub p v : Nat) : Bool :=
  if idx = 0x2001 then rangesClash (ringAllots a) || decide (4096 < ringFirst a p + ringCount a p)
  else if idx = 0x2002 then !within 50 1000000 v
  else if idx = 0x2003 then !powerIn 1024 1048576 v
  else if 0x2100 ≤ idx ∧ idx ≤ 0x211F then ringBad who a p (param s idx sub p) v
  else if idx = 0x2401 then rangesClash (standAllots a) || decide (131072 < standFirst a p + standCount a p)
  else if idx = 0x2402 then (match sub with
    | 1 => !within 1 4096 v || decide (v < param a 0x2402 2 p)
    | 2 => !within 1 (param a 0x2402 1 p) v
    | 3 => decide (10000 < v)
    | _ => !within 100 10000000 v)
  else if idx = 0x2403 then (if sub = 1 then decide (v = 0) else !within 10 100 v)
  else if idx = 0x2405 then decide (standCount a p ≤ v)
  else if idx = 0x2410 then decide (field v 27 0 ≠ slotGraph s p (sub - 1)) && graphBad a p (field v 27 0)
  else if idx = 0x2601 ∧ sub = 3 then
    !(decide (field v 31 0 < ringCount s p) && (instanceOfRun s (ringFirst s p + field v 31 0) (BitVec.ofNat 64 (field v 127 64))).isSome)
  else if idx = 0x2602 then decide (v ≠ 0xFFFFFFFF) && !((instOf s v).any (fun x => decide (x.part = p)))
  else if idx = 0x2604 then decide (431 < v)
  else if idx = 0x3001 then decide (field v 3 2 = 3)
  else if idx = 0x3002 then decide (v ≠ 0) && !within 65536 2147483648 v
  else if idx = 0x3003 then csSelBad v
  else if idx = 0x3401 then decide (v = 0)
  else if idx = 0x3410 then layerBad v
  else if idx = 0x3801 then decide (6 * dparam a 0x4002 1 < ((List.range 72).map (fun q => param a 0x3801 1 q)).sum)
  else if idx = 0x3802 then decide (field v 31 0 % 8 ≠ 0) || decide (4096 < field v 47 32)
  else if idx = 0x3810 ∨ idx = 0x3811 then descBad v
  else false

/-- Value rules 0x4000 to 0x5FFF. -/
def badMem (a : State) (idx sub v : Nat) : Bool :=
  if idx = 0x4001 then (if sub = 1 then decide (3 < v) else decide (1 < v) || rangeBeyond a (generalWith a (decide (v = 1))))
  else if idx = 0x4002 then decide (68 < v) || decide (6 * v < ((List.range 72).map (fun q => param a 0x3801 1 q)).sum)
  else if idx = 0x4003 then decide (720 < v)
  else if idx = 0x4008 then decide (generalEnd a ≤ 2 ^ 28 * v)
  else if idx = 0x4801 then !within 16 4096 v
  else if idx = 0x5001 then (match sub with
    | 2 => !within 1 0x1000 v
    | 4 => !within 1 63 v
    | _ => false)
  else if idx = 0x5004 then decide (1 < v)
  else if idx = 0x5005 then (List.range 1024).any (fun k => within 12 13 (field v (16 * k + 3) (16 * k)))
  else if idx = 0x5008 then (match sub with
    | 1 => decide (16 < field v 87 80) || (decide (field v 15 0 = 0) && decide (field v 87 80 = 0))
    | 3 => decide (v ≠ 1)
    | _ => false)
  else if idx = 0x5801 then decide (72 < field v 7 0) || layoutBad a
  else if idx = 0x5802 ∨ idx = 0x5803 then layoutBad a
  else if idx = 0x5804 then (List.range 64).any (fun k => decide (0x1000 < field v (16 * k + 15) (16 * k)))
  else false

/-- Value rules from 0x6000 upward. -/
def badHigh (s a : State) (idx sub p v : Nat) : Bool :=
  if idx = 0x6001 then (if sub = 1 then decide (2 < v) else !within 4 256 v)
  else if idx = 0x6002 then !within 4 23 (field v 15 8) || !posFinite (field v 63 32) || !zeroOrPos (field v 95 64)
  else if idx = 0x6003 then (match sub with
    | 1 => decide (v = 0)
    | 2 => !within 1 8760 v
    | 5 => !within 100 1000000 v
    | _ => false)
  else if idx = 0x6004 then (match sub with
    | 1 => !unitExists v
    | _ => !within 0xFE01 0xFE04 v)
  else if idx = 0x6006 then (match sub with
    | 1 => !within 1 8 (field v 23 16)
    | _ => decide (v ≠ 1))
  else if idx = 0x7001 then (match sub with
    | 1 => decide (2 < v)
    | 2 => (decide (s.time.src = 0) && decide (v < second s)) || (decide (s.time.src = 1) && decide (v < second s + 1))
    | _ => false)
  else if idx = 0x7003 then decide (v % 64 ≠ 0)
  else if idx = 0x7010 ∨ idx = 0x7011 then classBad v
  else if idx = 0x7402 then (match sub with
    | 1 => codesBad 0x01 0x11 v
    | 3 => decide (v % 512 = 0)
    | 4 => decide (431 < v) || !inPartSet a p v
    | _ => false)
  else if idx = 0x7410 then codesBad 0x40 0x4F v
  else if idx = 0x7413 then
    let n := v % 4096
    !((decide (v / 4096 = 1) && decide (n < 96)) || (decide (v / 4096 = 2) && decide (n < 48)) || (decide (v / 4096 = 3) && decide (n < 12)))
  else if idx = 0x7420 then (match sub with
    | 1 => decide (field v 31 0 ≠ 0) && !powerIn 1024 16777216 (field v 31 0)
    | 2 => decide (4096 < field v 31 16)
    | _ => false)
  else if idx = 0x7422 ∨ idx = 0x7423 then decide (5 < field v 7 0)
  else false

/-- INVALID_VALUE (R46): a BOOL above 1 (R34), or a value rule of the parameter. -/
def valueBad (who : Session) (s a : State) (d : ParamDef) (idx sub p raw v : Nat) : Bool :=
  (decide (d.type = 1) && decide (1 < raw)) ||
  (if idx < 0x2000 then badLow s a idx sub v
   else if idx < 0x4000 then badMid who s a idx sub p v
   else if idx < 0x6000 then badMem a idx sub v
   else badHigh s a idx sub p v)

/-! ## STATE (R53 and the defining chapters) -/

/-- Stands of a partition that are not FREE. -/
def standsHeld (s : State) (p : Nat) : Bool := s.stands.stands.any (fun q => decide (q.2.part = p))

/-- R124 and R126 for a RING_CFG, and a local ring beyond COUNT (Table 8-7). -/
def ringStateBad (s : State) (p l was cfg : Nat) : Bool :=
  ringCount s p ≤ l ||
  let draining := l < ringCount s p && (ringOf s (ringFirst s p + l)).any (fun r => decide (r.state = 2))
  (cfgEnable was && decide (putBit was 200 false ≠ putBit cfg 200 false)) || (!cfgEnable was && cfgEnable cfg && draining)

/-- R146: a change of GRAPH that the slot's state does not allow. -/
def slotStateBad (s : State) (p m h : Nat) : Bool :=
  decide (h ≠ slotGraph s p m) &&
    (switchNames s p m || (decide (slotState s p m ≠ 0) && !(decide (h = 0) && decide (slotState s p m = 2) && decide (slotStands s p m = 0))))

/-- UNIT_CMD on the selected unit (Table 19-9, R297). -/
def unitCmdBad (s : State) (u v : Nat) : Bool :=
  let x := unitSum s u
  !isUnit s u || (match v with
    | 0xFE01 => decide (x.state ≠ 0)
    | 0xFE02 => decide (x.state ≠ 2) || x.retired
    | 0xFE03 => !x.retired
    | _ => false)

/-- The start-up stage that owns a parameter (R53). DEDUCED (log entry 44): the stage that brings up the block the parameter belongs to:
memory, slices, rings, stands and partitions live in LPDDR and the slices (6), groves, Thicket and counters are brought up by microcode (7), Firebreak
by the survey (8), the fabric by link training (9); everything of the management island by Seedbank recovery. -/
def owningStage (idx : Nat) : Nat :=
  if idx < 0x2000 then 5 else if idx < 0x3000 then 6 else if idx < 0x4000 then 7 else if idx < 0x5000 then 6
  else if idx < 0x5800 then 9 else if idx < 0x6000 then 6 else if idx < 0x7000 then 8 else if 0x7400 ≤ idx then 7 else 5

/-- The parameter's owning stage has not completed (R53); what is written in DORMANT waits for the exit (R103). -/
def early (s : State) (idx : Nat) : Bool := decide (s.boot.stage < owningStage idx) && decide (s.power.mode ≠ .dormant)

/-- STATE at commit (R53, R284 and the defining chapters): `s` is the state before the commit, `v` the value. The owning stage of CT_COMMIT is the spec's own. -/
def stateBad (s : State) (idx sub p v : Nat) : Bool :=
  if solo s && (decide (idx = 0x5001 ∧ sub ≠ 3) || decide (idx = 0x5004) || decide (idx = 0x5005) || decide (idx = 0x5008)) then true
  else if idx = 0x0040 ∧ sub = 5 then !(wardenAt s v).halted
  else if idx = 0x1240 ∧ sub = 2 then decide (v ≠ 0) && !sleepReady s
  else if idx = 0x1400 ∧ sub = 4 then s.power.committed.isSome
  else if idx = 0x1420 then (match sub with
    | 2 => decide (s.boot.ctStatus ≠ 1) || decide (s.boot.ctTotal ≤ s.boot.ctData.length)
    | 4 => (decide (s.boot.stage < 7) && !s.boot.recovery) || decide (s.boot.ctStatus ≠ 1) || decide (s.boot.ctData.length < s.boot.ctTotal)
    | _ => false)
  else if idx = 0x2001 then decide (v ≠ param s 0x2001 1 p) && anyRingEnabled s p
  else if idx = 0x2003 then decide (v ≠ htabSize s p) && anyRingEnabled s p
  else if 0x2100 ≤ idx ∧ idx ≤ 0x211F then ringStateBad s p (128 * (idx - 0x2100) + (sub - 1)) (param s idx sub p) v
  else if idx = 0x2401 then decide (v ≠ param s 0x2401 1 p) && standsHeld s p
  else if idx = 0x2410 then slotStateBad s p (sub - 1) (field v 27 0)
  else if idx = 0x3810 ∨ idx = 0x3811 then
    tdValid (param s idx sub p) && decide (putBit v 58 false ≠ putBit (param s idx sub p) 58 false)
  else if idx = 0x5001 ∧ sub = 2 then !s.fab.out.isEmpty
  else if idx = 0x5004 then decide (v = s.fab.epoch)
  else if idx = 0x5005 then
    decide ((sub - 1) / 4 = s.fab.epoch) || s.fab.lastFlip.any (fun t => decide (s.time.clock < t + 1000000))
  else if idx = 0x5008 ∧ sub = 3 then !s.fab.isManager || decide (s.fab.rspState = 1)
  else if idx = 0x5801 then
    let was := partMap s p
    (decide (field was 8 0 ≠ field v 8 0) && anyRingEnabled s p) ||
    (bitOf was 15 && !bitOf v 15 && (anyRingEnabled s p || standsHeld s p))
  else if idx = 0x5803 then decide (v ≠ param s 0x5803 1 p) && anyRingEnabled s p
  else if idx = 0x6004 ∧ sub = 3 then unitCmdBad s (dparam s 0x6004 1) v
  else if idx = 0x6006 ∧ sub = 2 then s.fb.round.isSome
  else if idx = 0x7001 ∧ sub = 2 then decide (s.time.src = 2)
  else false

end Sys2Proof.Machine
end

