-- ==== Sys2Proof/Machine/Effects.lean ====
section
/-!
DEFINITION. What the committed value of each parameter does besides being stored (R45, R48): one rule per parameter, by chapter. A value
that the machine reads where it uses it needs no rule here.
-/
namespace Sys2Proof.Machine

/-! ## Containers (R116–R118, R179) -/

/-- A verified container applied (R117, R118, R179, R315): BOOT at the next warm reset, or at once in recovery boot. -/
def applyContainer (s : State) (c : Container) : State :=
  match c.kind with
  | 1 =>
    if s.boot.recovery ∧ s.boot.image.isNone then
      let s1 := { s with boot.image := some c }
      if 6 ≤ s.boot.stage then storeImage s1 c.bytes else s1
    else { s with boot.ctPending := some c }
  | 2 =>
    let s1 := raiseSvn { s with gr.micro := { s.gr.micro with kept := c.bytes } } c
    if s.boot.stage < 7 then s1 else applyPatches s1 (c.sections.map (·.2)) false
  | 3 => c.sections.foldl (fun s q => { s with fb.surveys := sput s.fb.surveys (leAt q.2 0 1) q.2 }) (raiseSvn s c)
  | _ => { raiseSvn s c with seed.operatorKeyHash := BitVec.ofNat 384 (beNat (sectionOf c 7)) }

/-- CT_COMMIT: the container in intake is verified and applied; CT_STATUS tells the first failing check, and a refused one leaves the
intake empty (R115, R118, Table 7-7). PATCH_STATE keeps the
rule of R177 that a patch section broke. -/
def commitContainer (s : State) : State :=
  let b := s.boot.ctData
  let s1 := if ctKind b = 2 then { s with gr.micro := { s.gr.micro with lastRule := patchRules s ((ctSections b).map (·.2)) } } else s
  match verifyContainer s1 b with
  | .error e => { s1 with boot.ctStatus := e, boot.ctTotal := 0, boot.ctData := [] }
  | .ok c => { applyContainer s1 c with boot.ctStatus := 3 }

/-- CT_OPEN: intake is opened for a length, and what it held is discarded (R118). -/
def openIntake (s : State) (len : Nat) : State :=
  { s with boot.ctTotal := len, boot.ctData := [], boot.ctStatus := 1, boot.ctPending := none }

/-- CT_DATA: the next chunk, up to TOTAL_LEN (R118). -/
def intakeChunk (s : State) (v : Nat) : State :=
  { s with boot.ctData := (s.boot.ctData ++ leBytes 4096 v).take s.boot.ctTotal }

/-! ## Relay (R270) -/

/-- FR_GO: the operation of FR_HEAD and FR_VALUE goes routed, or source-routed when DST is 0 (R270). -/
def relayGo (s : State) : State :=
  let h := dparam s 0x5008 1
  let hdr := leBytes 12 (field h 223 128)
  let data := hdr ++ leBytes (field h 207 192) (dparam s 0x5008 2)
  let dst := field h 15 0
  let s1 := { s with fab.rspHead := 0, fab.rspState := 1, fab.rspValue := 0 }
  if dst ≠ 0 then
    if hasRoute s1 dst then issueOp s1 dst 0x07 0xFF 0 0 false data .relay else { s1 with fab.rspState := 3 }
  else
    let pr := peerOf s1 0
    let o : OutOp := { dest := 0, oseq := pr.next, opc := 0x07, part := 0xFF, arg := field h 79 16 + (field h 87 80) * 2 ^ 64, data, owner := .relay, sent := true }
    let s2 := { s1 with fab.peers := sput s1.fab.peers 0 { pr with next := pr.next + 1 }, fab.out := s1.fab.out ++ [o] }
    (sendDisc s2 o).getD (opEnded s2 o stUnreachable [])

/-- ROUTE_FLIP: new flits carry the new epoch; ports that have returned to UP are usable again (R273, R274). -/
def flipRoutes (s : State) (ep : Nat) : State :=
  let back := (upPorts s).filter (fun p => (fport s p).left)
  raise (back.foldl (fun s p => modPort { s with fab.usable := insertNat s.fab.usable p } p (fun x => { x with left := false }))
    { s with fab.epoch := ep, fab.lastFlip := some s.time.clock }) 0x098

/-! ## Events -/

/-- A delivery that the arbiter had selected before a mask or route write may still issue over its old route (R87). -/
def lateFrom (s0 s : State) (src : Nat) : State :=
  { s with ev.late := (keepSelected s0 src).ev.late.take ((keepSelected s0 src).ev.late.length - s0.ev.late.length) ++ s.ev.late }

/-- EV_STATUS: PENDING and OVERRUN cleared by a 1 (Table 5-5). -/
def clearStatus (s : State) (src v : Nat) : State :=
  let s1 := if bitOf v 0 then clearPending s src else s
  if bitOf v 2 then { s1 with ev.overrun := bit1024 s1.ev.overrun src false } else s1

/-! ## Partitions -/

/-- A committed change of PART_MEM (R287). -/
def partMemChanged (s : State) (p : Nat) : State :=
  let s1 := clearAllHandles (partReset s p false) p
  let s2 := (List.range 256).foldl (fun s k =>
    let d := tableDesc s p k
    if tdValid d then setParam (clearSlot s p k) (0x3810 + k / 128) (k % 128 + 1) p (putBit d 58 false) else s) s1
  { s2 with thk.hot := s2.thk.hot.filter (fun q => decide (q.2.part ≠ p)) }

/-- RING_CFG: ENABLE set or cleared (R125, R126). -/
def ringChanged (s : State) (p l old new : Nat) : State :=
  if !cfgEnable old && cfgEnable new then enableRing s p l new
  else if cfgEnable old && !cfgEnable new then disableRing s (ringFirst s p + l) else s

/-- GROVE_SPLIT takes effect at the next step boundary: until then the value in force stays (R167). -/
def splitChanged (s : State) (p old new : Nat) : State :=
  let now := (sfind s.gr.split p).getD old
  { s with gr.split := if now = new then sdel s.gr.split p else sput s.gr.split p now }

/-- GRAPH_ABORT (R164). -/
def abortGraph (s : State) (p v : Nat) : State :=
  match instanceOfRun s (ringFirst s p + field v 31 0) (BitVec.ofNat 64 (field v 127 64)) with
  | some i => freezeInst s i stAborted 0 false .plain
  | none => s

/-! ## Units and time -/

/-- UNIT_CMD on the selected unit (R307–R309, Table 19-9). A return of a memory port is a warm reset, which the commit ends with (R312). -/
def unitCmd (s : State) (v : Nat) : State :=
  let u := dparam s 0x6004 1
  match v with
  | 0xFE01 => startClearing s u 0x7F false
  | 0xFE02 => if unitKind u = 3 then { s with fb.returningPort := some (unitIndex u) } else startRegrow s u
  | 0xFE03 => modUnit s u (fun x => { x with retired := false })
  | _ => modUnit s u (fun x => { x with strikes := 0 })

/-- TIME_SET: at commit under source 0, at the next PPS edge under source 1 (R328). -/
def setTime (s : State) (v : Nat) : State :=
  if s.time.src = 0 then setSeconds s v else { s with time.setPending := some v }

/-! ## The rule of each parameter -/

/-- Rules below 0x2000. `s0` is the state before the commit. -/
def effectLow (who : Session) (s0 s : State) (c : Change) : State :=
  let moved := decide (c.old ≠ c.new)
  if c.index = 0x0030 then (match c.sub with
    | 1 | 2 => if moved then { s with fieldBus.ratePending := true } else s
    | 6 => { s with fieldBus := { s.fieldBus with nodeConflict := s.fieldBus.nodeConflict && !bitOf c.new 4,
                                                  nodeInvalid := s.fieldBus.nodeInvalid && !bitOf c.new 5, frameIgnored := s.fieldBus.frameIgnored && !bitOf c.new 6 } }
    | _ => s)
  else if c.index = 0x0040 then (match c.sub with
    | 4 => { s with und.roleSwapPending := true, und.takingOver := true }
    | 5 => restartWarden s c.new
    | _ => s)
  else if c.index = 0x1000 then
    -- the pins that carried the commit switch after its response (R79)
    let carries := match who with
      | .field b _ => (fieldPins b).contains (c.sub - 1) && lget 3 s.und.mioFunc (c.sub - 1) = 0
      | _ => false
    if moved && carries then { s with und.mioDeferred := s.und.mioDeferred.filter (fun d => d.1 ≠ c.sub - 1) ++ [(c.sub - 1, s.time.clock)] }
    else if moved then latchPin s0 s (c.sub - 1) else s
  else if c.index = 0x1001 then (if (sfind s.und.mioLatch (c.sub - 1)).isSome then s else applyPull s (c.sub - 1))
  else if c.index = 0x1003 then { s with und.mioAborts := clearBits s.und.mioAborts c.new }
  else if 0x1110 ≤ c.index ∧ c.index ≤ 0x1117 then (if moved then lateFrom s0 s (128 * (c.index - 0x1110) + (c.sub - 1)) else s)
  else if 0x1118 ≤ c.index ∧ c.index ≤ 0x111F then
    (if bitOf c.new 0 && !bitOf c.old 0 then lateFrom s0 s (128 * (c.index - 0x1118) + (c.sub - 1)) else s)
  else if 0x1120 ≤ c.index ∧ c.index ≤ 0x1127 then clearStatus s (128 * (c.index - 0x1120) + (c.sub - 1)) c.new
  else if c.index = 0x1128 then (if c.new = 0 then openGroup s (c.sub - 1) else s)
  else if 0x1200 ≤ c.index ∧ c.index ≤ 0x1204 then
    (if bitOf c.new 3 then s else { s with power.autogated := s.power.autogated.filter (· ≠ 128 * (c.index - 0x1200) + (c.sub - 1)) })
  else if c.index = 0x1240 ∧ c.sub = 2 then (match c.new with
    | 0 => wake s 1
    | 2 => requestSleep s false
    | _ => requestSleep s true)
  else if c.index = 0x1410 then partReset s c.inst false
  else if c.index = 0x1420 then (match c.sub with
    | 1 => openIntake s c.new
    | 2 => intakeChunk s c.new
    | _ => commitContainer s)
  else s

/-- Rules 0x2000 to 0x5FFF. -/
def effectMid (s : State) (c : Change) : State :=
  let moved := decide (c.old ≠ c.new)
  if c.index = 0x2003 then (if moved then clearTable s c.inst else s)
  else if 0x2100 ≤ c.index ∧ c.index ≤ 0x211F then ringChanged s c.inst (128 * (c.index - 0x2100) + (c.sub - 1)) c.old c.new
  else if c.index = 0x2410 then
    (if field c.new 27 0 = 0 ∧ field c.old 27 0 ≠ 0 then setSlot s c.inst (c.sub - 1) 0 else s)
  else if c.index = 0x2601 ∧ c.sub = 3 then abortGraph s c.inst c.new
  else if c.index = 0x3001 then (if moved then splitChanged s c.inst c.old c.new else s)
  else if c.index = 0x3810 ∨ c.index = 0x3811 then
    (if tdValid c.old && !tdValid c.new then clearSlot s c.inst (128 * (c.index - 0x3810) + (c.sub - 1)) else s)
  else if c.index = 0x5001 ∧ (c.sub = 2 ∨ c.sub = 3) then (if moved && !solo s && decide (9 ≤ s.boot.stage) then elect s else s)
  else if c.index = 0x5004 then flipRoutes s c.new
  else if c.index = 0x5008 ∧ c.sub = 3 then relayGo s
  else if c.index = 0x5803 then (if moved then partMemChanged s c.inst else s)
  else s

/-- Rules from 0x6000 upward. -/
def effectHigh (s : State) (c : Change) : State :=
  if c.index = 0x6004 ∧ c.sub = 3 then roundStep (unitCmd s c.new)
  else if c.index = 0x6006 ∧ c.sub = 2 then startRound s
  else if c.index = 0x7001 ∧ c.sub = 2 then setTime s c.new
  else if c.index = 0x7402 ∧ c.sub = 3 then gctrClear s c.inst c.new
  else if c.index = 0x7412 then dieCtrClear s c.new
  else if c.index = 0x7420 ∧ c.sub = 3 then tracksResume s c.new
  else s

/-- What a change does besides being stored; `s0` is the state before the commit. -/
def effect (who : Session) (s0 s : State) (c : Change) : State :=
  if c.index < 0x2000 then effectLow who s0 s c else if c.index < 0x6000 then effectMid s c else effectHigh s c

/-- A change that takes a block unpowered in DORMANT to apply (R103): it applies at exit. -/
def unpowered (c : Change) : Bool :=
  decide (0x1200 ≤ c.index) && decide (c.index ≠ 0x1240) && decide (c.index ≠ 0x1400) && decide (c.index ≠ 0x1420) &&
  !(decide (0x7000 ≤ c.index) && decide (c.index ≤ 0x73FF))

/-- A change of what groves serve (R98, R290). -/
def regroves (c : Change) : Bool :=
  decide (c.old ≠ c.new) && (decide (c.index = 0x1230) || decide (c.index = 0x5801) || decide (c.index = 0x5802))

/-- The effects of the changes of one commit, in staging order, then the groves (R45). In DORMANT those of unpowered blocks wait. -/
def applyEffects (who : Session) (s0 s : State) (cs : List Change) : State :=
  if s.power.mode = .dormant then
    let s1 := (cs.filter (fun c => !unpowered c)).foldl (effect who s0) s
    { s1 with dir.deferred := s1.dir.deferred ++ cs.filter unpowered }
  else
    let s1 := cs.foldl (effect who s0) s
    if cs.any regroves then regroveAll s0 s1 else s1

/-- The reset that a commit ends with: RESET_REQ (R119), or the return of a memory port (R312), with its RESET_CAUSE. -/
def resetOf (s : State) (cs : List Change) : Option Nat :=
  if cs.any (fun c => decide (c.index = 0x1400) && decide (c.sub = 4) && decide (c.new = 0xC01D)) then some 7
  else if cs.any (fun c => decide (c.index = 0x1400) && decide (c.sub = 4)) then some 8
  else if s.fb.returningPort.isSome && cs.any (fun c => decide (c.index = 0x6004) && decide (c.sub = 3)) then some 9 else none

/-- That reset. -/
def endReset (s : State) : Option Nat → State
  | none => s
  | some 7 => coldReset s 7
  | some n => warmReset s n

/-! ## READY -/

/-- READY, stage 10 (R103, R106, R116, R289): rings accept doorbells, MIN_SVN for BOOT rises, writes made in DORMANT apply, partitions
that lost their range get PART_ERROR. WAKE# is released. A return of a memory port that was commanded in DORMANT is a warm reset from here
(R312). -/
def execReadyStage (s : State) : Out :=
  .next (if s.boot.stage ≠ 9 then s
  else
    let s1 := { s with boot.stage := 10, boot.readyTime := (s.time.clock - s.boot.trigger) / 1000, trail.halted := false,
                       power.intakeStopped := false, boot.rangeLost := [], fb.roundAt := s.time.dev,
                       pins.wakeAsserted := false, dir.deferred := [] }
    let s2 := match s.boot.image with
      | some c => raiseSvn s1 c
      | none => s1
    let s3 := s.dir.deferred.foldl (effect (.warden 0) s2) s2
    endReset (s.boot.rangeLost.reverse.foldl partError s3) (resetOf s3 s.dir.deferred))

end Sys2Proof.Machine
end

