-- ==== Sys2Proof/Machine/Directory.lean ====
section
/-!
DEFINITION. The parameter directory (R33–R53): rights, operations, transactions, commit and journal, and every command that is one write
of one parameter.
-/
namespace Sys2Proof.Machine

/-! ## Status codes (Table 3-7) -/

def dsOk : Nat := 0x00
def dsBadOp : Nat := 0x01
def dsNoIndex : Nat := 0x02
def dsNoSub : Nat := 0x03
def dsNoInst : Nat := 0x04
def dsType : Nat := 0x05
def dsReadOnly : Nat := 0x06
def dsDenied : Nat := 0x08
def dsInvalid : Nat := 0x09
def dsConflict : Nat := 0x0A
def dsNoTxn : Nat := 0x0B
def dsTxnFull : Nat := 0x0C
def dsExpired : Nat := 0x0D
def dsBusy : Nat := 0x0E
def dsState : Nat := 0x0F
def dsPersist : Nat := 0x10
def dsUnavailable : Nat := 0x11
def dsTxnLost : Nat := 0x14

/-! ## Rights (R35–R39, R344) -/

/-- The bit of PRINCIPAL_ENABLE of a principal (R39). -/
def principalBit : Session → Nat
  | .pf _ => 0
  | .vf _ _ => 1
  | .fabricMgr _ => 2
  | .field _ _ => 3
  | .warden _ => 4

/-- The partition of a VF's session, none for the others and for a VF that no enabled partition names (R35). -/
def sessionPart (s : State) : Session → Option Nat
  | .vf port n => partOfVf s port (n.val + 1)
  | _ => none

/-- A session of a VF. -/
def isVf : Session → Bool
  | .vf _ _ => true
  | _ => false

/-- Table 3-2. -/
def classMay (who : Session) (c : RClass) (wr : Bool) : Bool :=
  match c with
  | .dev => !(isVf who && wr)
  | .part => true
  | .mgmt => !isVf who
  | .loc => (match who with
    | .pf _ => true
    | .warden _ => true
    | .vf _ _ => false
    | _ => !wr)
  | .fact => false

/-- The bit of CTR_USER that a VF needs for a parameter (R344). -/
def ctrUserBit (idx sub : Nat) : Option Nat :=
  if idx = 0x7402 ∧ sub ≠ 0 then some 0
  else if (idx = 0x7420 ∧ sub = 1) ∨ (idx = 0x7422 ∧ sub ≠ 0) then some 1 else none

/-- The principal may not read, or may not write, the parameter: the class, the VF's own instance, CTR_USER, and for a write
PRINCIPAL_ENABLE (R35–R39, R344). -/
def denied (s : State) (who : Session) (d : ParamDef) (idx sub inst : Nat) (wr : Bool) : Bool :=
  !classMay who d.cls wr ||
  (isVf who && d.perPart && decide (sessionPart s who ≠ some inst)) ||
  (isVf who && (match ctrUserBit idx sub with
    | some b => !((sessionPart s who).any (fun p => bitOf (param s 0x7401 1 p) b))
    | none => false)) ||
  (wr && !bitOf (dparam s 0x0020 3) (principalBit who))

/-- The session reaches the directory at all: its host link, fabric, bus or core runs (R33, R62, R63, R103). -/
def reaches (s : State) : Session → Bool
  | .pf port => lget false s.boot.hostL0 port && !s.power.intakeStopped
  | .vf port n => lget false s.boot.hostL0 port && !s.power.intakeStopped && decide (n.val < lget 0 s.pcie.vfs port)
  | .fabricMgr _ => !solo s && decide (s.power.mode ≠ .dormant)
  | .field _ _ => s.fieldBus.started && !s.fieldBus.listenOnly
  | .warden w => !(wardenAt s w).halted

/-- FABRIC-MGR is only the elected manager (R38). -/
def notManager (s : State) : Session → Bool
  | .fabricMgr a => s.fab.manager.isNone || decide (a.toNat ≠ managerNow s)
  | _ => false

/-- An access to a local ring beyond COUNT (Table 8-7). -/
def ringBeyond (s : State) (idx sub inst : Nat) : Bool :=
  decide (0x2100 ≤ idx) && decide (idx ≤ 0x213F) && decide (sub ≠ 0) && decide (ringCount s inst ≤ 128 * ((idx - 0x2100) % 32) + (sub - 1))

/-! ## Looking a parameter up (R33, R35, R37, R44) -/

/-- A request to the directory (Table 3-3), and its value. -/
structure DirReq where
  op : Nat
  index : Nat := 0
  sub : Nat := 0
  inst : Nat := 0
  txn : Nat := 0
  len : Nat := 0
  val : Nat := 0
  deriving DecidableEq, Repr

/-- The first failing check from NO_SUCH_INDEX to DENIED with the instance the response echoes, or the parameter and its instance. -/
def lookUp (s : State) (who : Session) (r : DirReq) (wr : Bool) : Except (Nat × Nat) (ParamDef × Nat) :=
  if 0xF000 ≤ r.index then
    .error (if s.boot.debugUnlocked && (match who with
      | .pf _ => true
      | .warden _ => true
      | _ => false) then dsNoIndex else dsDenied, r.inst)
  else if !indexExists r.index then .error (dsNoIndex, r.inst)
  else match lookParam r.index r.sub with
  | none => .error (dsNoSub, r.inst)
  | some d =>
    if isVf who && d.perPart && (sessionPart s who).isNone then .error (dsDenied, r.inst)
    else
      let inst := if isVf who && d.perPart then (sessionPart s who).getD r.inst else r.inst
      if (if d.perPart then decide (72 ≤ inst) else decide (inst ≠ devInst)) then .error (dsNoInst, inst)
      else if denied s who d r.index r.sub inst wr then .error (dsDenied, inst)
      else .ok (d, inst)

/-- Whether NEXT shows a parameter to a principal (R41). -/
def nextShows (s : State) (who : Session) (place : Nat) : Bool :=
  match lookParam (place / 256) (place % 256) with
  | none => false
  | some d =>
    let inst := if d.perPart then (if isVf who then sessionPart s who else some 0) else some devInst
    inst.any (fun i => !denied s who d (place / 256) (place % 256) i false)

/-- The next parameter that a principal may read (R41). -/
def nextReadable (s : State) (who : Session) : Nat → Nat → Option Nat
  | 0, _ => none
  | n + 1, p => match nextPlace p with
    | none => none
    | some q => if nextShows s who q then some q else nextReadable s who n q

/-- The 8 bytes of DESCRIBE (Table 3-4). -/
def describe (d : ParamDef) : Nat :=
  let acc := match d.acc with
    | .ro => 1
    | .rw => 2
    | .rwp => 3
    | .wo => 4
    | .w1c => 5
    | .rwl => 6
  let cls := match d.cls with
    | .dev => 1
    | .part => 2
    | .mgmt => 3
    | .loc => 4
    | .fact => 5
  pack [(1, d.type), (1, acc), (1, cls), (1, if d.perPart then 1 else 0), (2, d.size), (2, 0)]

/-! ## Commit (R45, R46, R50, R52) -/

/-- An entry of a transaction with the parameter it names and what it changes. -/
structure Staging where
  entry : Entry
  def_ : ParamDef
  /-- The value the parameter takes: reserved bits and RO fields keep theirs (R3, R348). -/
  value : Nat
  changes : List Change
  deriving DecidableEq, Repr

/-- RESTORE_DEFAULTS: every RWP parameter that holds another value than its default (R52). -/
def restored (s : State) : List Change :=
  s.dir.params.filterMap (fun q =>
    let idx := q.1 / 65536
    let sub := q.1 / 256 % 256
    let inst := q.1 % 256
    match findParam idx sub with
    | some d => if d.acc = .rwp ∧ q.2 ≠ paramDefault s idx sub inst then some ⟨idx, sub, inst, q.2, paramDefault s idx sub inst⟩ else none
    | none => none)

/-- The RWP parameters back at their defaults. -/
def dropRwp (m : Sparse Nat) : Sparse Nat :=
  m.filter (fun q => match findParam (q.1 / 65536) (q.1 / 256 % 256) with
    | some d => decide (d.acc ≠ .rwp)
    | none => true)

/-- One entry laid over the state that the entries before it leave. -/
def layEntry (s : State) (e : Entry) (d : ParamDef) : State × Staging :=
  if e.guard then (s, ⟨e, d, e.value, []⟩)
  else if d.acc = .wo then
    let more := if e.index = 0x0020 ∧ e.sub = 2 then restored s else []
    (if e.index = 0x0020 ∧ e.sub = 2 then { s with dir.params := dropRwp s.dir.params } else s,
      ⟨e, d, e.value, ⟨e.index, e.sub, e.inst, 0, e.value⟩ :: more⟩)
  else if d.acc = .w1c then (s, ⟨e, d, e.value, [⟨e.index, e.sub, e.inst, 0, e.value &&& writeMask e.index e.sub d.size⟩]⟩)
  else
    let old := param s e.index e.sub e.inst % 256 ^ d.size
    let v := dropReserved e.index (mergeBits old e.value (writeMask e.index e.sub d.size))
    (setParam s e.index e.sub e.inst v, ⟨e, d, v, [⟨e.index, e.sub, e.inst, old, v⟩]⟩)

/-- The state that the entries would leave, by their parameters, and what each does. -/
def layAll (s : State) : List Entry → State × List Staging
  | [] => (s, [])
  | e :: l => match findParam e.index e.sub with
    | none =>
      -- subindex 0: a GUARD of the highest subindex
      let (s1, r) := layAll s l
      (s1, ⟨e, subZero, e.value, []⟩ :: r)
    | some d =>
      let (s1, g) := layEntry s e d
      let (s2, r) := layAll s1 l
      (s2, g :: r)

/-- The value that the value rules see: of a stored parameter the one that the transaction would leave, by a later entry too (R45, R46). -/
def laidValue (a : State) (g : Staging) : Nat :=
  if g.def_.acc = .rw ∨ g.def_.acc = .rwp then param a g.entry.index g.entry.sub g.entry.inst % 256 ^ g.def_.size else g.value

/-- The first failing check of an entry at commit (R45): `s` before, `a` the state the transaction would leave. -/
def entryFails (who : Session) (s a : State) (g : Staging) : Option Nat :=
  let e := g.entry
  let late := denied s who g.def_ e.index e.sub e.inst (!e.guard) || notManager s who
  if e.guard then
    if readValue s e.index e.sub e.inst % 256 ^ g.def_.size ≠ e.value then some dsConflict
    else if ringBeyond s e.index e.sub e.inst then some dsState
    else if late then some dsDenied else none
  else if valueBad who s a g.def_ e.index e.sub e.inst e.value (laidValue a g) then some dsInvalid
  else if early s e.index then some dsState
  else if stateBad s e.index e.sub e.inst g.value || (g.changes.drop 1).any (fun c => stateBad s c.index c.sub c.inst c.new) then some dsState
  else if late then some dsDenied else none

/-- The entry needs the journal (R50). -/
def needsJournal (g : Staging) : Bool :=
  !g.entry.guard && (decide (g.def_.acc = .rwp) || (decide (g.entry.index = 0x0020) && decide (g.entry.sub = 2)))

/-- The journal entry of a transaction: its RWP values in staging order, and every default from a RESTORE_DEFAULTS on (R50, R52). -/
def journalEntry (gs : List Staging) : JEntry :=
  gs.foldl (fun j g =>
    if g.entry.guard then j
    else if g.entry.index = 0x0020 ∧ g.entry.sub = 2 then ⟨[], true⟩
    else if g.def_.acc = .rwp then { j with values := sput j.values (pkey g.entry.index g.entry.sub g.entry.inst) g.value } else j) ⟨[], false⟩

/-- What a commit answers: the state, the status, the failing entry, and the reset it ends with. -/
structure Commit where
  state : State
  status : Nat
  at_ : Option Entry := none
  reset : Option Nat := none

/-- A commit that passes its checks (R45, R48, R50). A commit is work (R102), but for POWER_STATE_REQ = 0, which is a wake of its own. -/
def applyCommit (who : Session) (s a : State) (gs : List Staging) : Commit :=
  let cs := gs.flatMap (·.changes)
  let s1 := { a with dir.commits := a.dir.commits + 1, seed.journal := if gs.any needsJournal then journalEntry gs :: a.seed.journal else a.seed.journal }
  let s2 := if cs.any (fun c => decide (c.index = 0x1240) && decide (c.sub = 2) && decide (c.new = 0)) then s1 else workArrives s1
  let s3 := applyEffects who s s2 cs
  { state := s3, status := dsOk, reset := resetOf s3 cs }

/-- The commit of a list of entries (R45, R50): all of it or nothing. -/
def commit (who : Session) (s : State) (es : List Entry) : Commit :=
  let (a, gs) := layAll s es
  match gs.find? (fun g => (entryFails who s a g).isSome) with
  | some g => { state := s, status := (entryFails who s a g).getD dsOk, at_ := some g.entry }
  | none =>
    match gs.find? needsJournal with
    | some g =>
      if s.seed.writable && s.seed.copyOk.any (· = true) then applyCommit who s a gs
      else { state := if s.seed.copyOk.any (· = true) then record s 0x0035 0 0xFF 0xFF s.und.primary else s, status := dsPersist, at_ := some g.entry }
    | none => applyCommit who s a gs

/-! ## Transactions (R42, R43, R47) -/

/-- A transaction open in a session. -/
def txnOf (s : State) (who : Session) (n : Nat) : Option Txn := s.dir.txns.find? (fun t => decide (t.num = n) && decide (t.owner = who))

/-- A number that R43 and R47 let be assigned. -/
def numberFree (s : State) (n : Nat) : Bool :=
  !s.dir.txns.any (fun t => decide (t.num = n)) && !s.dir.dead.any (fun t => decide (t.num = n)) &&
  (match sfind s.dir.usedAt n with
    | none => true
    | some a => decide (65535 ≤ s.dir.opened - a))

/-- The number of the next transaction, none when every number is held back (R43). -/
def freeNumber (s : State) : Option Nat :=
  let n := s.dir.opened % 65535 + 1
  if numberFree s n then some n else (firstBelow (fun k => numberFree s (k + 1)) 65535).map (· + 1)

/-- An operation that names an open transaction of its session restarts its idle timer (R47). -/
def touchTxn (s : State) (who : Session) (n : Nat) : State :=
  { s with dir.txns := s.dir.txns.map (fun t => if t.num = n ∧ t.owner = who then { t with lastOp := s.time.clock } else t) }

/-- A transaction closed by its commit or abort. -/
def closeTxn (s : State) (n : Nat) : State := { s with dir.txns := s.dir.txns.filter (fun t => t.num ≠ n) }

/-- What names a transaction that is not open: TXN_EXPIRED to its commit or abort within 10 s of a timeout, otherwise NO_TXN (R47). -/
def goneTxn (s : State) (who : Session) (n : Nat) (ends : Bool) : Nat :=
  if ends && s.dir.dead.any (fun t => decide (t.num = n) && decide (t.owner = who) && decide (s.time.clock < t.abortedAt + 10000000000))
  then dsExpired else dsNoTxn

/-- Bytes staged in a transaction. -/
def stagedBytes (t : Txn) : Nat := (t.entries.map (·.len)).sum

/-! ## Operations (Table 3-4) -/

/-- A response (R40). -/
def answer (r : DirReq) (status : Nat) : Rsp :=
  { op := r.op % 128 + 128, index := r.index, sub := r.sub, inst := r.inst, txn := r.txn, len := 0, status, value := 0 }

/-- What an operation answers: the state, the response, the reset a commit ends with. -/
structure DirOut where
  state : State
  rsp : Rsp
  reset : Option Nat := none

/-- READ (R41). A value that the spec leaves open is drawn anew at each READ. -/
def opRead (s : State) (who : Session) (r : DirReq) : DirOut :=
  match lookUp s who r false with
  | .error (st, inst) => ⟨s, answer { r with inst } st, none⟩
  | .ok (d, inst) =>
    if ringBeyond s r.index r.sub inst then ⟨s, answer { r with inst } dsState, none⟩
    else
      let opened := decide ((r.index = 0x2604 ∨ r.index = 0x3003) ∧ r.sub = 2)
      ⟨if opened then { s with free := s.free + 1 } else s,
       { answer { r with inst } dsOk with len := d.size, value := readValue s r.index r.sub inst % 256 ^ d.size }, none⟩

/-- DESCRIBE (R41). -/
def opDescribe (s : State) (who : Session) (r : DirReq) : DirOut :=
  match lookUp s who r false with
  | .error (st, inst) => ⟨s, answer { r with inst } st, none⟩
  | .ok (d, inst) => ⟨s, { answer { r with inst } dsOk with len := 8, value := describe d }, none⟩

/-- NEXT (R37, R41). -/
def opNext (s : State) (who : Session) (r : DirReq) : DirOut :=
  if 0xF000 ≤ r.index then (match lookUp s who r false with
    | .error (st, _) => ⟨s, answer r st, none⟩
    | .ok _ => ⟨s, answer r dsNoIndex, none⟩)
  else match nextReadable s who 8192 (256 * r.index + r.sub) with
    | some p => ⟨s, answer { r with index := p / 256, sub := p % 256 } dsOk, none⟩
    | none => ⟨s, answer r dsNoIndex, none⟩

/-- The checks of WRITE and GUARD as they are received (R44), and then the entry staged or committed (R42). DESIGN CHOICE (log entry 16): a
GUARD, which only compares, needs the read right; the spec does not say which right it needs. -/
def opStage (s : State) (who : Session) (r : DirReq) (t : Option Txn) (guard : Bool) : DirOut :=
  match lookUp s who r (!guard) with
  | .error (st, inst) => ⟨s, answer { r with inst } st, none⟩
  | .ok (d, inst) =>
    let r1 := { r with inst }
    let e : Entry := ⟨guard, r.index, r.sub, inst, r.val % 256 ^ d.size, d.size⟩
    if !guard && decide (d.acc = .ro) then ⟨s, answer r1 dsReadOnly, none⟩
    else if r.len ≠ d.size then ⟨s, answer r1 dsType, none⟩
    else match t with
    | some t =>
      if 64 ≤ t.entries.length ∨ 16384 < stagedBytes t + d.size then ⟨s, answer r1 dsTxnFull, none⟩
      else ⟨{ s with dir.txns := s.dir.txns.map (fun x => if x.num = t.num then { x with entries := x.entries ++ [e] } else x) }, answer r1 dsOk, none⟩
    | none =>
      let c := commit who s [e]
      ⟨c.state, answer r1 c.status, c.reset⟩

/-- TXN_OPEN (R43). -/
def opOpen (s : State) (who : Session) (r : DirReq) : DirOut :=
  if 4 ≤ s.dir.txns.countP (fun t => decide (t.owner = who)) ∨ 256 ≤ s.dir.txns.length then ⟨s, answer r dsBusy, none⟩
  else match freeNumber s with
  | none => ⟨s, answer r dsBusy, none⟩
  | some n =>
    ⟨{ s with dir.txns := s.dir.txns ++ [{ num := n, owner := who, lastOp := s.time.clock }], dir.opened := s.dir.opened + 1,
              dir.usedAt := sput s.dir.usedAt n (s.dir.opened + 1) }, answer { r with txn := n } dsOk, none⟩

/-- TXN_COMMIT (R45): the transaction ends, applied or not. -/
def opCommit (s : State) (who : Session) (r : DirReq) (t : Txn) : DirOut :=
  let c := commit who (closeTxn s r.txn) t.entries
  match c.at_ with
  | some e => ⟨c.state, answer { r with index := e.index, sub := e.sub, inst := e.inst } c.status, c.reset⟩
  | none => ⟨c.state, answer r c.status, c.reset⟩

/-- One operation of a session that reaches the directory (R38, R42, R44, R53, Table 3-7). -/
def runOp (s0 : State) (who : Session) (r : DirReq) : DirOut :=
  if !s0.boot.seedDone || s0.und.takingOver then ⟨s0, answer r dsUnavailable, none⟩
  else if s0.dir.lost.contains who then ⟨{ s0 with dir.lost := s0.dir.lost.filter (· ≠ who) }, answer r dsTxnLost, none⟩
  else if notManager s0 who then ⟨s0, answer r dsDenied, none⟩
  else
    let t := txnOf s0 who r.txn
    let s := touchTxn s0 who r.txn
    match r.op with
    | 0x10 => opOpen s0 who r
    | 0x11 => (match t with
      | some t => opCommit s who r t
      | none => ⟨s, answer r (goneTxn s who r.txn true), none⟩)
    | 0x12 => (match t with
      | some _ => ⟨closeTxn s r.txn, answer r dsOk, none⟩
      | none => ⟨s, answer r (goneTxn s who r.txn true), none⟩)
    | op =>
      if !decide (1 ≤ op ∧ op ≤ 5) then ⟨s, answer r dsBadOp, none⟩
      else if t.isNone ∧ (r.txn ≠ 0 ∨ op = 0x03) then ⟨s, answer r (goneTxn s who r.txn false), none⟩
      else match op with
        | 0x01 => opRead s who r
        | 0x02 => opStage s who r t false
        | 0x03 => opStage s who r t true
        | 0x04 => opNext s who r
        | _ => opDescribe s who r

/-- An operation as it arrives: its response is kept, and the reset that its commit asks for follows. A session that does not reach the
directory sends nothing. -/
def runDir (s : State) (who : Session) (r : DirReq) : State × Option Rsp :=
  if !reaches s who then (s, none)
  else
    let o := runOp s who r
    let s1 := endReset { o.state with dir.rsp := some o.rsp } o.reset
    (s1, s1.dir.rsp)

/-- A header's operation. -/
def reqOf (op : Nat) (h : Hdr) (val : Nat) : DirReq := ⟨op, h.index.toNat, h.sub.toNat, h.inst.toNat, h.txn.toNat, h.len.toNat, val⟩

/-- A write of one parameter that commits at once (R42). -/
def writeOne (s : State) (who : Session) (idx sub inst val : Nat) : State :=
  (runDir s who { op := 0x02, index := idx, sub, inst, len := ((findParam idx sub).map (·.size)).getD 0, val }).1

/-! ## Rows of the directory -/

/-- READ (R41). -/
def execReadParam (who : Session) (h : Hdr) (s : State) : Out := .next (runDir s who (reqOf 0x01 h 0)).1

/-- WRITE (R42). -/
def execWriteParam (who : Session) (h : Hdr) (val : Nat) (s : State) : Out := .next (runDir s who (reqOf 0x02 h val)).1

/-- GUARD (R42, R45). -/
def execGuardParam (who : Session) (h : Hdr) (val : Nat) (s : State) : Out := .next (runDir s who (reqOf 0x03 h val)).1

/-- NEXT (R41). -/
def execNextParam (who : Session) (h : Hdr) (s : State) : Out := .next (runDir s who (reqOf 0x04 h 0)).1

/-- DESCRIBE (R41). -/
def execDescribeParam (who : Session) (h : Hdr) (s : State) : Out := .next (runDir s who (reqOf 0x05 h 0)).1

/-- TXN_OPEN (R43). -/
def execTxnOpen (who : Session) (s : State) : Out := .next (runDir s who { op := 0x10 }).1

/-- TXN_COMMIT (R45). -/
def execTxnCommit (who : Session) (txn : BitVec 16) (s : State) : Out := .next (runDir s who { op := 0x11, txn := txn.toNat }).1

/-- TXN_ABORT (R47). -/
def execTxnAbort (who : Session) (txn : BitVec 16) (s : State) : Out := .next (runDir s who { op := 0x12, txn := txn.toNat }).1

/-- TXN_TIMEOUT_EXPIRY: no operation for TXN_TIMEOUT (R47). -/
def execTxnTimeoutExpiry (txn : BitVec 16) (s : State) : Out :=
  .next (match s.dir.txns.find? (fun t => decide (t.num = txn.toNat)) with
  | none => s
  | some t =>
    if s.time.clock < t.lastOp + 1000000 * dparam s 0x0020 4 then s
    else { closeTxn s t.num with dir := { (closeTxn s t.num).dir with dead := ⟨t.num, t.owner, s.time.clock⟩ :: s.dir.dead } })

/-- TXN_NUMBER_RELEASE: 10 s after the abort (R47). -/
def execTxnNumberRelease (txn : BitVec 16) (s : State) : Out :=
  .next { s with dir.dead := s.dir.dead.filter (fun t => !(decide (t.num = txn.toNat) && decide (t.abortedAt + 10000000000 ≤ s.time.clock))) }

/-- RESTORE_DEFAULTS (R52). -/
def execRestoreDefaults (who : Session) (s : State) : Out := .next (writeOne s who 0x0020 2 devInst 0xD5F0)

/-! ## Rows that are one write of one parameter -/

/-- RESET_REQ_COLD (R119). -/
def execResetReqCold (who : Session) (s : State) : Out := .next (writeOne s who 0x1400 4 devInst 0xC01D)

/-- RESET_REQ_WARM (R119). -/
def execResetReqWarm (who : Session) (s : State) : Out := .next (writeOne s who 0x1400 4 devInst 0x7A11)

/-- PART_RESET (R120). -/
def execPartReset (who : Session) (part : BitVec 8) (s : State) : Out := .next (writeOne s who 0x1410 1 part.toNat 0x9C3E)

/-- CT_OPEN (R118). -/
def execCtOpen (who : Session) (len : BitVec 32) (s : State) : Out := .next (writeOne s who 0x1420 1 devInst len.toNat)

/-- CT_DATA (R118): the last chunk is padded with zeros. -/
def execCtData (who : Session) (chunk : List Byte) (s : State) : Out := .next (writeOne s who 0x1420 2 devInst (leNat (chunk.take 4096)))

/-- CT_COMMIT (R118). -/
def execCtCommit (who : Session) (s : State) : Out := .next (writeOne s who 0x1420 4 devInst 1)

/-- ROLE_SWAP (R65). -/
def execRoleSwap (who : Session) (s : State) : Out := .next (writeOne s who 0x0040 4 devInst 0x5A3D)

/-- WARDEN_RESTART (R72). -/
def execWardenRestart (who : Session) (wd : Fin 2) (s : State) : Out := .next (writeOne s who 0x0040 5 devInst wd)

/-- HOLDOFF_COMMIT: HOLDOFF_g = 0 opens the group (R89). -/
def execHoldoffCommit (who : Session) (g : Fin 64) (s : State) : Out := .next (writeOne s who 0x1128 (g + 1) devInst 0)

/-- GROVE_ENABLE_COMMIT (R98). -/
def execGroveEnableCommit (who : Session) (die : Fin 6) (mask : BitVec 72) (s : State) : Out :=
  .next (writeOne s who 0x1230 (die + 1) devInst mask.toNat)

/-- POWER_STATE_REQ_IDLE (R102). -/
def execPowerStateReqIdle (who : Session) (s : State) : Out := .next (writeOne s who 0x1240 2 devInst 2)

/-- POWER_STATE_REQ_DORMANT (R102). -/
def execPowerStateReqDormant (who : Session) (s : State) : Out := .next (writeOne s who 0x1240 2 devInst 3)

/-- POWER_STATE_REQ_WAKE (R104). -/
def execPowerStateReqWake (who : Session) (s : State) : Out := .next (writeOne s who 0x1240 2 devInst 0)

/-- The instance whose committed value a row of one field keeps: the session's own partition for a VF (R35). -/
def ownInst (s : State) (who : Session) (part : Nat) : Nat := (sessionPart s who).getD part

/-- RING_ENABLE: ENABLE set in the committed RING_CFG (R125). -/
def execRingEnable (who : Session) (part : BitVec 8) (l : Fin 4096) (s : State) : Out :=
  .next (writeOne s who (0x2100 + l / 128) (l % 128 + 1) part.toNat (putBit (ringCfg s (ownInst s who part.toNat) l) 200 true))

/-- RING_DISABLE: ENABLE cleared (R126). -/
def execRingDisable (who : Session) (part : BitVec 8) (l : Fin 4096) (s : State) : Out :=
  .next (writeOne s who (0x2100 + l / 128) (l % 128 + 1) part.toNat (putBit (ringCfg s (ownInst s who part.toNat) l) 200 false))

/-- HTAB_RESIZE (R132). -/
def execHtabResize (who : Session) (part : BitVec 8) (size : BitVec 32) (s : State) : Out := .next (writeOne s who 0x2003 1 part.toNat size.toNat)

/-- GRAPH_ABORT (R164). -/
def execGraphAbort (who : Session) (part : BitVec 8) (l : BitVec 32) (seq : BitVec 64) (s : State) : Out :=
  .next (writeOne s who 0x2601 3 part.toNat (l.toNat + seq.toNat * 2 ^ 64))

/-- TABLE_VALID_CLEAR: VALID cleared in the committed TABLE_DESC (R211). -/
def execTableValidClear (who : Session) (part : BitVec 8) (slot : Fin 256) (s : State) : Out :=
  .next (writeOne s who (0x3810 + slot / 128) (slot % 128 + 1) part.toNat (putBit (tableDesc s (ownInst s who part.toNat) slot) 58 false))

/-- ROUTE_FLIP (R273). -/
def execRouteFlip (who : Session) (ep : BitVec 8) (s : State) : Out := .next (writeOne s who 0x5004 1 devInst ep.toNat)

/-- FR_GO (R270). -/
def execFrGo (who : Session) (s : State) : Out := .next (writeOne s who 0x5008 3 devInst 1)

/-- PART_MEM_CHANGE (R287). -/
def execPartMemChange (who : Session) (part : BitVec 8) (mem : BitVec 64) (s : State) : Out := .next (writeOne s who 0x5803 1 part.toNat mem.toNat)

/-- UNIT_FENCE_CMD (R307). -/
def execUnitFenceCmd (who : Session) (s : State) : Out := .next (writeOne s who 0x6004 3 devInst 0xFE01)

/-- UNIT_RETURN_CMD (R312). -/
def execUnitReturnCmd (who : Session) (s : State) : Out := .next (writeOne s who 0x6004 3 devInst 0xFE02)

/-- UNIT_UNRETIRE_CMD (R309). -/
def execUnitUnretireCmd (who : Session) (s : State) : Out := .next (writeOne s who 0x6004 3 devInst 0xFE03)

/-- UNIT_CLEAR_STRIKES_CMD (R308). -/
def execUnitClearStrikesCmd (who : Session) (s : State) : Out := .next (writeOne s who 0x6004 3 devInst 0xFE04)

/-- SURVEY_NOW (R316). -/
def execSurveyNow (who : Session) (s : State) : Out := .next (writeOne s who 0x6006 2 devInst 1)

/-- TIME_SET (R328). -/
def execTimeSet (who : Session) (secs : BitVec 64) (s : State) : Out := .next (writeOne s who 0x7001 2 devInst secs.toNat)

/-- GCTR_CLEAR (R340). -/
def execGctrClear (who : Session) (part : BitVec 8) (sel : BitVec 16) (s : State) : Out := .next (writeOne s who 0x7402 3 part.toNat sel.toNat)

/-- DIE_CTR_CLEAR (R340). -/
def execDieCtrClear (who : Session) (dies : BitVec 8) (s : State) : Out := .next (writeOne s who 0x7412 1 devInst dies.toNat)

/-- TRACKS_RESUME (R342). -/
def execTracksResume (who : Session) (dies : BitVec 8) (s : State) : Out := .next (writeOne s who 0x7420 3 devInst dies.toNat)

end Sys2Proof.Machine
end

