-- ==== Sys2Proof/Machine/Events.lean ====
section
/-! DEFINITION. Event delivery and moderation: occurrences, MSI-X delivery, coalescing, hold-off expiry, EOI and masks (chapter 5). -/
namespace Sys2Proof.Machine

/-- EVENT_OCCURRENCE (R83). -/
def execEventOccurrence (src : Fin 1024) (s : State) : Out := .next (raise s src)

/-- The late delivery of a source that a mask or route write met in the arbiter, when one is still open for a target and can issue over its
old route (R84, R87). -/
def lateFor (s : State) (target : Nat) : Option Late :=
  s.ev.late.find? (fun l => decide (routeTarget l.route = target) && decide (s.time.clock ≤ l.until_) && s.ev.pending.getLsbD l.src && canIssue s l.route)

/-- The eligible source a port would serve next, delivered (R84, R85). -/
def deliverBest (s : State) (port : Nat) : State :=
  match bestFor s (port + 3) with
  | some src => issueMsix (delivered s src (port + 3)) (evRoute s src)
  | none => settleBursts s

/-- MSIX_DELIVERY: one management cycle of a host port's delivery engine (R84, R85). Whether a selected source that has just been
masked still issues is an open value (R87). -/
def execMsixDelivery (port : Fin 2) (s : State) : Out :=
  match lateFor s (port.val + 3) with
  | some l =>
    let (b, s1) := drawFree s 1
    let s2 := { s1 with ev.late := s1.ev.late.filter (fun x => x.src ≠ l.src) }
    if b = 1 then .next (issueMsix (delivered s2 l.src (port.val + 3)) l.route) else .next (deliverBest s2 port)
  | none => .next (deliverBest s port)

/-- COALESCE_TIMEOUT: TIME µs after the first undelivered occurrence (R88). -/
def execCoalesceTimeout (src : Fin 1024) (s : State) : Out :=
  .next (if 0x200 ≤ src.val ∧ (sfind s.ev.due src).any (fun t => decide (t ≤ s.time.clock)) then { s with ev.met := insertNat s.ev.met src } else s)

/-- HOLDOFF_EXPIRY: the hold-off of a group has run its time (R89). -/
def execHoldoffExpiry (g : Fin 64) (s : State) : Out :=
  .next (if (sfind s.ev.held g).any (fun h => decide (h.until_ ≤ s.time.clock)) then openGroup s g else s)

/-- EV_EOI (R86). -/
def execEvEoi (_wd : Fin 2) (val : BitVec 32) (s : State) : Out := .next (endOfEvent s val.toNat)

/-- EV_MASK_WRITE: a Warden's store to one word of the MASK bitmap, as the event controller accepts it (R87). -/
def execEvMaskWrite (_wd : Fin 2) (word : Fin 32) (val : BitVec 32) (s : State) : Out := .next (setMaskWord s word val.toNat)

/-! ## Configuration space (R85, R233) -/

/-- A BAR size that the Resizable BAR capabilities advertise: a power of two from 256 MiB to 2 TiB. -/
def barSizeOk (mib : Nat) : Bool := (List.range 14).any (fun k => decide (mib = 256 * 2 ^ k))

/-- CONFIG_SPACE_WRITE: a host write to BAR2 sizes, SR-IOV and MSI-X, on a port in L0 (R85, R109, R233, R285). -/
def execConfigSpaceWrite (port : Fin 2) (fn : Fin 73) (op : CfgOp) (s : State) : Out :=
  let f := 73 * port.val + fn.val
  .next (if !lget false s.boot.hostL0 port then s
  else match op with
  | .bar2Size mib => if fn.val = 0 ∧ barSizeOk mib then { s with pcie.bar2 := lset s.pcie.bar2 port mib } else s
  | .vfBar2Size mib => if fn.val = 0 ∧ barSizeOk mib then { s with pcie.vfBar2 := lset s.pcie.vfBar2 port mib } else s
  | .vfEnable n => if fn.val = 0 then { s with pcie.vfs := lset s.pcie.vfs port n.val } else s
  | .msixEnable on => flushPba { s with ev.msixEnable := if on then insertNat s.ev.msixEnable f else s.ev.msixEnable.filter (· ≠ f) }
  | .fnMask on => flushPba { s with ev.fnMask := if on then insertNat s.ev.fnMask f else s.ev.fnMask.filter (· ≠ f) }
  | .vecMask v on =>
    let k := 320 * f + v.val
    if fn.val ≠ 0 ∧ 24 ≤ v.val then s
    else flushPba { s with ev.vecUnmasked := if on then s.ev.vecUnmasked.filter (· ≠ k) else insertNat s.ev.vecUnmasked k })

end Sys2Proof.Machine
end

