-- ==== Sys2Proof/Machine/Wardens.lean ====
section
/-!
DEFINITION. The BAR0 mailbox and the Wardens' directory ports, the Wardens' instructions and traps, and takeover by the standby island
(R60, R61, R63, R65–R73, R86).
-/
namespace Sys2Proof.Machine

/-! ## Mailboxes (R60, R61) -/

/-- The request that a mailbox holds (Table 3-3). -/
def mailReq (m : Mailbox) : DirReq :=
  let h := m.reqHdr.toNat
  { op := field h 7 0, index := field h 31 16, sub := field h 39 32, inst := field h 47 40, txn := field h 63 48, len := field h 79 64, val := m.reqValue }

/-- A response header (R40). -/
def rspHeader (r : Rsp) : Nat :=
  pack [(1, r.op), (1, 0), (2, r.index), (1, r.sub), (1, r.inst), (2, r.txn), (2, r.len), (1, r.status), (1, 0)]

/-- A function's mailbox. -/
def mailbox (s : State) (port fn : Nat) : Mailbox := sget {} s.dir.mailboxes (73 * port + fn)

/-- A function's mailbox changed. -/
def setMailbox (s : State) (port fn : Nat) (m : Mailbox) : State := { s with dir.mailboxes := sset {} s.dir.mailboxes (73 * port + fn) m }

/-- The session of a function. -/
def sessionOf (port : Fin 2) (fn : Fin 73) : Session :=
  if h : fn.val = 0 then .pf port else .vf port ⟨fn.val - 1, by omega⟩

/-- The mailbox event of a function (Table 5-1). -/
def mailSource (port fn : Nat) : Nat := if fn = 0 then 0x0C0 + port else 0x0C4 + 72 * port + (fn - 1)

/-- A mailbox: that of a function of a host port, or a Warden's directory port (R60, R63). -/
inductive MbSource where
  | host (port : Fin 2) (fn : Fin 73)
  | warden (w : Fin 2)
  deriving DecidableEq, Repr

/-- The mailbox that a row names. -/
def mbSource (unit : Fin 2) : MbUser → MbSource
  | .fn n => .host unit n
  | .warden => .warden unit

/-- The mailbox of a function, or the directory port of a Warden, which is laid out alike (R63, Table 4-2). -/
def mbOf (s : State) : MbSource → Mailbox
  | .host port fn => mailbox s port fn
  | .warden w => (wardenAt s w).port

/-- That mailbox changed. -/
def setMb (s : State) (src : MbSource) (m : Mailbox) : State :=
  match src with
  | .host port fn => setMailbox s port fn m
  | .warden w => modWarden s w (fun x => { x with port := m })

/-- The session that its requests belong to. -/
def mbSession : MbSource → Session
  | .host port fn => sessionOf port fn
  | .warden w => .warden w

/-- The bits of a request header that the request area holds: FLAGS, byte 11 and bytes 15:12 are reserved (R3, Tables 3-3 and 3-8). -/
def hdrMask : Nat := ones 88 - 0xFF00

/-- Bytes written to a mailbox at an offset (R60, R61, Table 3-8), and the TAG that they write to MB_GO. While BUSY is set the request area and
MB_GO ignore them and DROPPED sets; MB_GO takes a write of its four bytes; DROPPED clears by a 1; all else ignores writes. -/
def mbStore (m : Mailbox) (o : Nat) (bs : List Byte) : Mailbox × Option (BitVec 16) :=
  let upEnd := o + bs.length
  let area := decide (o < 0x1010)
  let go := decide (o ≤ 0x2000) && decide (0x2004 ≤ upEnd)
  let m1 := if o ≤ 0x4010 ∧ 0x4010 < upEnd ∧ bitOf (lget 0 bs (0x4010 - o)).toNat 2 then { m with dropped := false } else m
  if m.busy then (if area || go then { m1 with dropped := true } else m1, none)
  else
    let hdr := if o < 0x10 then putField m.reqHdr.toNat (8 * Nat.min upEnd 0x10 - 1) (8 * o) (leNat (bs.take (0x10 - o))) &&& hdrMask else m.reqHdr.toNat
    let from_ := Nat.max o 0x10
    let upTo := Nat.min upEnd 0x1010
    let value := if from_ < upTo then putField m.reqValue (8 * (upTo - 0x10) - 1) (8 * (from_ - 0x10)) (leNat ((bs.drop (from_ - o)).take (upTo - from_))) else m.reqValue
    (if area then { m1 with reqHdr := BitVec.ofNat 128 hdr, reqValue := value } else m1,
      if go then some (BitVec.ofNat 16 (leNat ((bs.drop (0x2000 - o)).take 2))) else none)

/-- MB_GO (R49, R61): BUSY sets and DONE clears, and the request is executed in its turn; its answer waits for the completion. A host's
mailbox request is work (R102). -/
def submitMb (s : State) (src : MbSource) (tag : BitVec 16) : State :=
  let m : Mailbox := { mbOf s src with busy := true, done := false }
  let s1 := setMb s src m
  let (s2, r) := runDir (match src with
    | .host _ _ => workArrives s1
    | .warden _ => s1) (mbSession src) (mailReq m)
  match r with
  | none => s2
  | some r => if (mbOf s2 src).busy then setMb s2 src { mbOf s2 src with waiting := some (tag, r) } else s2

/-- A mailbox with the response to its request written: then BUSY clears, then DONE and TAG are set (R61). -/
def mailDone (m : Mailbox) (tag : BitVec 16) (r : Rsp) : Mailbox :=
  { m with rspHdr := BitVec.ofNat 128 (rspHeader r), rspValue := mergeBits m.rspValue r.value (ones (8 * r.len)), busy := false, done := true, tag,
           waiting := none }

/-- The request submitted last completes: its response is written, and a function's mailbox event is raised (R61). -/
def completeMb (s : State) (src : MbSource) : State :=
  match (mbOf s src).waiting with
  | none => s
  | some (tag, r) =>
    let s1 := setMb s src (mailDone (mbOf s src) tag r)
    match src with
    | .host port fn => raise s1 (mailSource port fn)
    | .warden _ => s1

/-- Bytes written to a mailbox, and the request that they submit. -/
def writeMb (s : State) (src : MbSource) (o : Nat) (bs : List Byte) : State :=
  let (m, go) := mbStore (mbOf s src) o bs
  match go with
  | some tag => submitMb (setMb s src m) src tag
  | none => setMb s src m

/-- A byte of a mailbox or directory port (Table 3-8); offsets it does not name, and WO ones, read 0. -/
def portByte (m : Mailbox) (o : Nat) : Nat :=
  if o < 0x10 then field m.reqHdr.toNat (8 * o + 7) (8 * o)
  else if o < 0x1010 then field m.reqValue (8 * (o - 0x10) + 7) (8 * (o - 0x10))
  else if 0x3000 ≤ o ∧ o < 0x3010 then field m.rspHdr.toNat (8 * (o - 0x3000) + 7) (8 * (o - 0x3000))
  else if 0x3010 ≤ o ∧ o < 0x4010 then field m.rspValue (8 * (o - 0x3010) + 7) (8 * (o - 0x3010))
  else if o = 0x4010 then bitAt m.busy 0 + bitAt m.done 1 + bitAt m.dropped 2
  else if o = 0x4012 then field m.tag.toNat 7 0
  else if o = 0x4013 then field m.tag.toNat 15 8
  else 0

/-- A byte of the ledger read window of a function (R332): LEDGER_STATE, and the ring, in a VF's window its own partition's batches alone. -/
def windowByte (s : State) (port : Fin 2) (fn : Fin 73) (o : Nat) : Nat :=
  if o < 32 then (lget 0 (ledgerState s) o).toNat
  else if o < 2 ^ 24 ∨ s.look.writePtr = 0 then 0
  else
    let last := s.look.writePtr - 1
    let back := (last + 2 ^ 24 - o % 2 ^ 24) % 2 ^ 24
    if last < back then 0
    else if fn.val = 0 then (ledgerByte s none (last - back)).toNat
    else match partOfVf s port fn with
      | some p => (ledgerByte s (some p) (last - back)).toNat
      | none => 0

/-- A byte of a function's BAR0 (R60, Table 3-8): doorbell pages are WO (R127), the reserved range reads 0. -/
def bar0Byte (s : State) (port : Fin 2) (fn : Fin 73) (o : Nat) : Nat :=
  if o < 0x1000000 then 0
  else if o < 0x1010000 then portByte (mailbox s port fn) (o - 0x1000000)
  else if o < 0x2000000 then 0
  else windowByte s port fn (o - 0x2000000)

/-- MB_GO (R60, R61): a request written and submitted, its completion, or a host's write or read of BAR0. A function reaches its BAR0 while its
host port is in L0 and takes requests (R103, R109). -/
def execMbGo (unit : Fin 2) (user : MbUser) (tag : BitVec 16) (hdr : BitVec 96) (op : MbOp) (s : State) : Out :=
  let src := mbSource unit user
  .next (match src, op with
  | _, .complete => completeMb s src
  | .warden _, _ => s
  | .host port fn, op =>
    if !reaches s (sessionOf port fn) then s
    else match op with
    | .submit val =>
      let m := mbOf s src
      if m.busy then setMb s src { m with dropped := true }
      else submitMb (setMb s src { m with reqHdr := BitVec.ofNat 128 (hdr.toNat &&& hdrMask), reqValue := val % 256 ^ 4096 }) src tag
    | .write off data =>
      if 0x1000000 ≤ off.toNat ∧ off.toNat < 0x1010000 then writeMb s src (off.toNat - 0x1000000) data else s
    | .read off len => { s with pcie.bar0Read := (List.range len.toNat).map (fun k => BitVec.ofNat 8 (bar0Byte s port fn (off.toNat + k))) }
    | .complete => s)

/-! ## Registers (R68, Table 4-3) -/

/-- A register of the window in use, or a common one. -/
def readReg (x : Warden) : WReg → BitVec 32
  | .c n => if n.val = 0 then 0 else lget 0 x.common n
  | .w n => lget 0 x.windows (16 * x.wptr + n)

/-- A register written; c0 ignores writes. -/
def writeReg (x : Warden) (r : WReg) (v : BitVec 32) : Warden :=
  match r with
  | .c n => if n.val = 0 then x else { x with common := lset x.common n v }
  | .w n => { x with windows := lset x.windows (16 * x.wptr + n) v }

/-- A control register. -/
def readCtl (x : Warden) : WCtl → BitVec 32
  | .wptr => BitVec.ofNat 32 x.wptr
  | .wres => BitVec.ofNat 32 x.wres
  | .spilled => x.spilled.setWidth 32
  | .spillPtr => x.spillPtr
  | .spillLimit => x.spillLimit
  | .trapPc => x.trapPc
  | .trapWptr => BitVec.ofNat 32 x.trapWptr
  | .trapCause => x.trapCause.setWidth 32
  | .trapInfo => x.trapInfo

/-- A control register written: RO registers ignore it. DESIGN CHOICE (log entry 96): a SPILL_PTR that is not 64-byte aligned is held as
written; the spec gives its alignment and no refusal. -/
def writeCtl (x : Warden) (c : WCtl) (v : BitVec 32) : Warden :=
  match c with
  | .spillPtr => { x with spillPtr := v }
  | .spillLimit => { x with spillLimit := v }
  | .trapPc => { x with trapPc := v }
  | _ => x

/-! ## The address map (Table 4-2) -/

/-- The region of an address: 0 boot ROM, 1 SRAM, 2 directory port, 3 event controller; none outside. -/
def wRegion (a : Nat) : Option Nat :=
  if a < 0x10000 then some 0
  else if 0x10000000 ≤ a ∧ a < 0x10080000 then some 1
  else if 0x20000000 ≤ a ∧ a < 0x20008000 then some 2
  else if 0x30000000 ≤ a ∧ a < 0x30010000 then some 3 else none

/-- A byte of the event controller window (Table 5-6). -/
def eventByte (s : State) (w o : Nat) : Nat :=
  let bits (f : Nat → Bool) (k : Nat) : Nat := ((List.range 8).map (fun i => bitAt (f (8 * k + i)) i)).sum
  if o < 4 then field (lget 0 s.ev.lastTaken w) (8 * o + 7) (8 * o)
  else if 0x1000 ≤ o ∧ o < 0x1080 then bits (fun n => bitOf (evConfig s n) 0) (o - 0x1000)
  else if 0x2000 ≤ o ∧ o < 0x2080 then bits (fun n => s.ev.pending.getLsbD n) (o - 0x2000)
  else if 0x3000 ≤ o ∧ o < 0x3080 then bits (fun n => s.ev.inService.getLsbD n) (o - 0x3000)
  else 0

/-- A byte that a load reads. -/
def wByte (s : State) (w a : Nat) : Nat :=
  match wRegion a with
  | some 0 => (Config.bootRom a).toNat
  | some 1 => (sget 0 (wardenAt s w).sram (a - 0x10000000)).toNat
  | some 2 => portByte (wardenAt s w).port (a - 0x20000000)
  | some _ => eventByte s w (a - 0x30000000)
  | none => 0

/-- Bytes of a load, little-endian. -/
def wLoad (s : State) (w a n : Nat) : Nat := pack ((List.range n).map (fun k => (1, wByte s w (a + k))))

/-- A 4-byte store to the event controller window (Table 5-6); the rest of it ignores writes. -/
def storeEvent (s : State) (o v : Nat) : State :=
  if o = 4 then endOfEvent s v
  else if 0x1000 ≤ o ∧ o < 0x1080 then setMaskWord s ((o - 0x1000) / 4) v
  else if 0x2000 ≤ o ∧ o < 0x2080 then clearPendingWord s ((o - 0x2000) / 4) v
  else s

/-- A store of `n` bytes to the directory port (R61, R63, Table 4-2). -/
def storePort (s : State) (w o n v : Nat) : State := writeMb s (.warden (if w = 0 then 0 else 1)) o (leBytes n v)

/-- A store leaves the store buffer: address, size, value. -/
def commitStore (s : State) (w : Nat) (q : Nat × Nat × Nat) : State :=
  match wRegion q.1 with
  | some 1 => modWarden s w (fun x => { x with sram := memWrite x.sram (q.1 - 0x10000000) (leBytes q.2.1 q.2.2) })
  | some 2 => storePort s w (q.1 - 0x20000000) q.2.1 q.2.2
  | some 3 => if q.2.1 = 4 then storeEvent s (q.1 - 0x30000000) q.2.2 else s
  | _ => s

/-- The oldest store of the buffer commits (R67). -/
def drainStore (s : State) (w : Nat) : State :=
  match (wardenAt s w).stores with
  | [] => s
  | q :: l => commitStore (modWarden s w (fun x => { x with stores := l })) w q

/-- Every store of the buffer commits, oldest first. -/
def drainStores (w : Nat) : Nat → State → State
  | 0, s => s
  | n + 1, s => drainStores w n (drainStore s w)

/-! ## Traps (R70, R71, R73) -/

/-- A synchronous trap: older stores commit; in window 7 it is a double trap and the Warden halts. DESIGN CHOICE (log entry 96): TRAP_INFO,
the faulting address or source number (Table 4-3), is 0 for the traps that have neither: window traps, ILLEGAL, SPILL_BOUNDS and SYSCALL. -/
def trap (s0 : State) (w : Nat) (cause : Nat) (info : BitVec 32) : State :=
  let s := drainStores w 8 s0
  let x := wardenAt s w
  if x.wptr = 7 then haltWarden s w cause x.pc info
  else modWarden s w (fun x => { x with trapWptr := x.wptr, trapPc := x.pc, trapCause := BitVec.ofNat 8 cause, trapInfo := info, wptr := 7,
                                        pc := BitVec.ofNat 32 (0x10000000 + 16 * cause) })

/-- The Warden goes on to the next instruction, 4 bytes further. -/
def onward (s : State) (w : Nat) : State := modWarden s w (fun x => { x with pc := x.pc + 4 })

/-- An instruction of a Warden that runs. -/
def instruction (s : State) (w : Nat) (f : State → State) : Out := .next (if (wardenAt s w).halted then s else f s)

/-- The reference window W of the window transfers (R69). -/
def refWindow (x : Warden) : Nat := if x.wptr = 7 then x.trapWptr else x.wptr

/-- WOPEN (R69). -/
def execWopen (wd : Fin 2) (s : State) : Out :=
  instruction s wd (fun s =>
    let x := wardenAt s wd
    if x.wptr = 7 then trap s wd 0x05 0
    else if 7 ≤ x.wres then trap s wd 0x01 0
    else onward (modWarden s wd (fun x => { x with wptr := (x.wptr + 1) % 7, wres := x.wres + 1 })) wd)

/-- WCLOSE (R69). -/
def execWclose (wd : Fin 2) (s : State) : Out :=
  instruction s wd (fun s =>
    let x := wardenAt s wd
    if x.wptr = 7 then trap s wd 0x05 0
    else if x.wres ≤ 1 then trap s wd (if x.spilled ≠ 0 then 0x02 else 0x03) 0
    else onward (modWarden s wd (fun x => { x with wptr := (x.wptr + 6) % 7, wres := x.wres - 1 })) wd)

/-- The trap of an access of `n` bytes: MISALIGNED, or BUS_ERROR outside Table 4-2 and for a store to the boot ROM (Table 4-4). DESIGN CHOICE
(log entry 96): an access that is both is MISALIGNED; the spec gives no order of the two. -/
def accessTrap (a n : Nat) (store : Bool) : Option Nat :=
  if a % n ≠ 0 then some 0x06
  else match wRegion a with
  | none => some 0x07
  | some 0 => if store then some 0x07 else none
  | some _ => none

/-- The trap of a window transfer of 16 words. -/
def windowTrap (a : Nat) (store : Bool) : Option Nat := (List.range 16).findSome? (fun k => accessTrap ((a + 4 * k) % 2 ^ 32) 4 store)

/-- WSPILL (R69). -/
def execWspill (wd : Fin 2) (s : State) : Out :=
  instruction s wd (fun s =>
    let x := wardenAt s wd
    if x.wres ≤ 1 then trap s wd 0x05 0
    else if x.spillLimit.toNat < x.spillPtr.toNat + 64 then trap s wd 0x04 0
    else match windowTrap x.spillPtr.toNat true with
    | some c => trap s wd c x.spillPtr
    | none =>
      let win := (refWindow x + 8 - x.wres) % 7
      let s1 := (List.range 16).foldl (fun s k =>
        commitStore s wd ((x.spillPtr.toNat + 4 * k) % 2 ^ 32, 4, (lget 0 x.windows (16 * win + k)).toNat)) (drainStores wd 8 s)
      onward (modWarden s1 wd (fun y => { y with spillPtr := y.spillPtr + 64, wres := y.wres - 1, spilled := y.spilled + 1 })) wd)

/-- WFILL (R69). -/
def execWfill (wd : Fin 2) (s : State) : Out :=
  instruction s wd (fun s =>
    let x := wardenAt s wd
    if x.spilled = 0 ∨ 7 ≤ x.wres then trap s wd 0x05 0
    else
      let a := (x.spillPtr - 64).toNat
      match windowTrap a false with
      | some c => trap s wd c (x.spillPtr - 64)
      | none =>
        let s1 := drainStores wd 8 s
        let win := (refWindow x + 7 - x.wres) % 7
        let vs := (List.range 16).map (fun k => BitVec.ofNat 32 (wLoad s1 wd ((a + 4 * k) % 2 ^ 32) 4))
        onward (modWarden s1 wd (fun y => { y with
          windows := vs.zipIdx.foldl (fun m q => lset m (16 * win + q.2) q.1) y.windows,
          spillPtr := y.spillPtr - 64, wres := y.wres + 1, spilled := y.spilled - 1 })) wd)

/-- TRAP: SYSCALL (R70). -/
def execTrapSys (wd : Fin 2) (s : State) : Out := instruction s wd (fun s => trap s wd 0x08 0)

/-- RDCTL (R68). -/
def execRdctl (wd : Fin 2) (ctl : WCtl) (dst : WReg) (s : State) : Out :=
  instruction s wd (fun s => onward (modWarden s wd (fun x => writeReg x dst (readCtl x ctl))) wd)

/-- WRCTL (R68). -/
def execWrctl (wd : Fin 2) (ctl : WCtl) (src : WReg) (s : State) : Out :=
  instruction s wd (fun s => onward (modWarden s wd (fun x => writeCtl x ctl (readReg x src))) wd)

/-- Bytes of a load or store. -/
def accBytes : AccSize → Nat
  | .byte => 1
  | .half => 2
  | .word => 4

/-- WARDEN_LOAD (R67, R73): older stores commit first. -/
def execWardenLoad (wd : Fin 2) (addr : BitVec 32) (size : AccSize) (dst : WReg) (s : State) : Out :=
  instruction s wd (fun s => match accessTrap addr.toNat (accBytes size) false with
    | some c => trap s wd c addr
    | none =>
      let s1 := drainStores wd 8 s
      onward (modWarden s1 wd (fun x => writeReg x dst (BitVec.ofNat 32 (wLoad s1 wd addr.toNat (accBytes size))))) wd)

/-- WARDEN_STORE (R67): into the store buffer; a full buffer commits its oldest store first. -/
def execWardenStore (wd : Fin 2) (addr : BitVec 32) (size : AccSize) (src : WReg) (s : State) : Out :=
  instruction s wd (fun s => match accessTrap addr.toNat (accBytes size) true with
    | some c => trap s wd c addr
    | none =>
      let v := (readReg (wardenAt s wd) src).toNat % 256 ^ accBytes size
      let s1 := if 8 ≤ (wardenAt s wd).stores.length then drainStore s wd else s
      onward (modWarden s1 wd (fun x => { x with stores := x.stores ++ [(addr.toNat, accBytes size, v)] })) wd)

/-- An EVENT trap of a source: every store before it commits, PENDING clears, IN_SERVICE sets (R70, R73, R86). -/
def enterEvent (s : State) (w src : Nat) : State :=
  modWarden (takeByWarden (drainStores w 8 s) w src) w (fun x =>
    { x with trapWptr := x.wptr, trapPc := x.pc, trapCause := 0x10, trapInfo := BitVec.ofNat 32 src, wptr := 7, pc := 0x10000100 })

/-- The lowest-numbered eligible source routed to a Warden is taken. -/
def takeBest (s : State) (w : Nat) : State :=
  match bestFor s (w + 1) with
  | some src => enterEvent s w src
  | none => settleBursts s

/-- An event taken between two instructions, never in window 7 (R70, R86). Whether a selected source that has just been masked still traps is
an open value (R87). -/
def takeEvent (s : State) (w : Nat) : State :=
  if (wardenAt s w).wptr = 7 then s
  else match lateFor s (w + 1) with
    | some l =>
      let (b, s1) := drawFree s 1
      let s2 := { s1 with ev.late := s1.ev.late.filter (fun x => x.src ≠ l.src) }
      if b = 1 then enterEvent s2 w l.src else takeBest s2 w
    | none => takeBest s w

/-- EVENT_TRAP (R70, R86). -/
def execEventTrap (wd : Fin 2) (s : State) : Out := instruction s wd (fun s => takeEvent s wd)

/-- TEXIT (R70): back to the window and PC of the trap; an event that waited is taken before the next instruction. DESIGN CHOICE (log entry
96): outside window 7 it does the same; the spec is silent. -/
def execTexit (wd : Fin 2) (s : State) : Out :=
  instruction s wd (fun s => takeEvent (modWarden s wd (fun x => { x with wptr := x.trapWptr, pc := x.trapPc })) wd)

/-! ## Takeover (R65, R66) -/

/-- STANDBY_TAKEOVER: the cause holds and the standby is ready. Before READY the new primary starts again at stage 2 as at a cold start
(chapter 7, crossings), without the PATCH container that a warm reset or a DORMANT exit keeps (R180). -/
def execStandbyTakeover (cause : TakeoverCause) (s : State) : Out :=
  .next (if !takeoverDue s cause then s
  else
    let s1 := takeover s
    if 2 ≤ s.boot.stage ∧ s.boot.stage < 10 ∧ s.power.mode ≠ .dormant then
      { s1 with boot := { s1.boot with stage := 2, error := 0, kind := .cold, slotsTried := [], candidate := none, recovery := false, image := none,
                                       stored := [], digestPending := false, seedDone := false },
                gr.micro := { s1.gr.micro with kept := [] }, fieldBus.started := false }
    else s1)

end Sys2Proof.Machine
end

