-- ==== Sys2Proof/Machine/FieldBus.lean ====
section
/-!
DEFINITION. The Understory protocol on CAN FD: requests, segments, acknowledgements, NODE frames and the bus state (R54–R59).
-/
namespace Sys2Proof.Machine

/-! ## Frames (Tables 3-7a and 3-3) -/

/-- Fields of an identifier. -/
def canPri (f : CanFrame) : Nat := field f.id.toNat 28 26
def canKind (f : CanFrame) : Nat := field f.id.toNat 25 23
def canDst (f : CanFrame) : Nat := field f.id.toNat 22 16
def canSrc (f : CanFrame) : Nat := field f.id.toNat 15 9
def canXfer (f : CanFrame) : Nat := field f.id.toNat 8 0

/-- An identifier. -/
def canId (pri kind dst src xfer : Nat) : BitVec 29 :=
  BitVec.ofNat 29 ((pri % 8) <<< 26 ||| (kind % 8) <<< 23 ||| (dst % 128) <<< 16 ||| (src % 128) <<< 9 ||| xfer % 512)

/-- A byte of a frame. -/
def canByte (f : CanFrame) (k : Nat) : Nat := field f.data.toNat (8 * k + 7) (8 * k)

/-- The device takes part on a bus (R54, R57): started, not listen-only, enabled, not off. -/
def busOn (s : State) (b : Nat) : Bool :=
  s.fieldBus.started && !s.fieldBus.listenOnly && bitOf (dparam s 0x0030 5) b && decide (lget 0 s.fieldBus.busState b ≠ 2)

/-- A frame that the device ignores: classic, remote, 11-bit identifier, DLC below 15 (R54). -/
def canIgnored (f : CanFrame) : Bool := !f.fd || f.remote || !f.ext || decide (f.dlc ≠ 15)

/-- FRAME_IGNORED set. -/
def flagIgnored (s : State) : State := { s with fieldBus.frameIgnored := true }

/-- A frame queued for sending. -/
def queueFrame (s : State) (b : Fin 2) (id : BitVec 29) (data : Nat) : State :=
  { s with fieldBus.out := s.fieldBus.out ++ [⟨b, id, BitVec.ofNat 512 data, false⟩] }

/-! ## Responses (R55, R56) -/

/-- Segments of a value of `len` bytes beyond the 52 of its first frame. -/
def segments (len : Nat) : Nat := ceilDiv (len - 52) 63

/-- A SEG frame of a value: its number and 63 bytes. -/
def segData (value : List Byte) (n : Nat) : Nat := n % 256 + 256 * leNat (bytesAt value (52 + 63 * (n - 1)) 63)

/-- The segments after the acknowledged one are sent, at most 8 beyond it (R56). -/
def sendSegs (s : State) (t : CanTx) : State :=
  let ns := (List.range 8).map (t.acked + 1 + ·) |>.filter (fun n => n ≤ t.total)
  let s1 := ns.foldl (fun s n => queueFrame s t.bus (canId t.pri 2 t.dst (nodeId s) t.xfer) (segData t.value n)) s
  { s1 with fieldBus.tx := s1.fieldBus.tx.map (fun x =>
      if x.bus = t.bus ∧ x.dst = t.dst ∧ x.xfer = t.xfer then { t with sent := t.acked + ns.length } else x) }

/-- A response sent on the request's bus with its PRI: the RSP frame, and SEG frames for a longer value (R55, R59). -/
def sendRsp (s : State) (b : Fin 2) (pri dst xfer : Nat) (r : Rsp) : State :=
  let value := leBytes r.len r.value
  let seg := decide (52 < r.len)
  let s1 := queueFrame s b (canId pri 1 dst (nodeId s) xfer) (putBit (rspHeader r) 8 seg + leNat (value.take 52) * 2 ^ 96)
  if seg then
    let t : CanTx := { bus := b, dst, xfer, pri, value, total := segments r.len, acked := 0, sent := 0, resends := 0 }
    sendSegs { s1 with fieldBus.tx := s1.fieldBus.tx.filter (fun x => !(decide (x.bus = b) && decide (x.dst = dst) && decide (x.xfer = xfer))) ++ [t] } t
  else s1

/-! ## Requests (R55–R59) -/

/-- A whole request: answered with the first response where the other bus brought the same within 100 ms, otherwise executed (R59). -/
def runRequest (s : State) (b : Fin 2) (pri src xfer : Nat) (hdr : Nat) (value : List Byte) : State :=
  let content := hdr + leNat value * 2 ^ 96
  match s.fieldBus.done.find? (fun d => decide (d.bus ≠ b) && decide (d.src = src) && decide (d.xfer = xfer) && decide (d.content = content) &&
      decide (s.time.clock ≤ d.at_ + 100000000)) with
  | some d => sendRsp s b pri src xfer d.rsp
  | none =>
    let req : DirReq := { op := field hdr 7 0, index := field hdr 31 16, sub := field hdr 39 32, inst := field hdr 47 40,
                          txn := field hdr 63 48, len := field hdr 79 64, val := leNat value }
    let (s0, r) := runDir s (.field b (BitVec.ofNat 7 src)) req
    let s1 := if (s0.fieldBus.ratePending && !s.fieldBus.ratePending) || decide (s0.und.mioDeferred ≠ s.und.mioDeferred)
      then { s0 with fieldBus.carrying := some (b, src, xfer) } else s0
    match r with
    | none => s1
    | some r =>
      let keep := s1.fieldBus.done.filter (fun d => decide (s1.time.clock ≤ d.at_ + 100000000))
      sendRsp { s1 with fieldBus.done := ⟨b, src, xfer, content, s1.time.clock, r⟩ :: keep } b pri src xfer r

/-- CAN_REQ_FRAME (R54, R55, R58, R59): a reused tag abandons the earlier transfer; a broadcast is executed for READ, NEXT and DESCRIBE
alone. DESIGN CHOICE (log entry 27): a REQ with SEG clear and a LENGTH above 52 is executed with the 52 bytes that it carries, extended with
zeros; the spec does not say. -/
def execCanReqFrame (f : CanFrame) (s : State) : Out :=
  .next (if !busOn s f.bus then s
  else if canIgnored f then flagIgnored s
  else if canKind f ≠ 0 ∨ (canDst f ≠ nodeId s ∧ canDst f ≠ 0x7F) then s
  else
    let hdr := field f.data.toNat 95 0
    let op := field hdr 7 0
    let len := field hdr 79 64
    let first := leBytes 52 (field f.data.toNat 511 96)
    let s1 := { s with fieldBus.rx := s.fieldBus.rx.filter (fun x =>
      !(decide (x.bus = f.bus) && decide (x.src = canSrc f) && decide (x.xfer = canXfer f))) }
    if canDst f = 0x7F ∧ !([0x01, 0x04, 0x05].contains op) then flagIgnored s1
    else if bitOf hdr 8 ∧ 52 < len then
      { s1 with fieldBus.rx := s1.fieldBus.rx ++ [⟨f.bus, canSrc f, canXfer f, canPri f, hdr, first, 0⟩] }
    else runRequest s1 f.bus (canPri f) (canSrc f) (canXfer f) hdr (first.take len))

/-- A transfer given up, with its status (R56, Table 3-7). -/
def giveUp (s : State) (b : Fin 2) (peer xfer status : Nat) : State :=
  { s with fieldBus.abandoned := ⟨b, peer, xfer, status⟩ :: s.fieldBus.abandoned }

/-- An ACK frame: the highest consecutive segment, 1 to abort, and a status (R56). -/
def sendAck (s : State) (b : Fin 2) (pri dst xfer n abort status : Nat) : State :=
  queueFrame s b (canId pri 3 dst (nodeId s) xfer) (n + abort * 256 + status * 65536)

/-- CAN_SEG_FRAME (R55, R56, Table 3-7). -/
def execCanSegFrame (f : CanFrame) (s : State) : Out :=
  .next (if !busOn s f.bus then s
  else if canIgnored f then flagIgnored s
  else if canKind f ≠ 2 ∨ canDst f ≠ nodeId s then s
  else
    let n := canByte f 0
    let mine (x : CanRx) : Bool := decide (x.bus = f.bus) && decide (x.src = canSrc f) && decide (x.xfer = canXfer f)
    match s.fieldBus.rx.find? mine with
    | none => sendAck (giveUp s f.bus (canSrc f) (canXfer f) 0x13) f.bus (canPri f) (canSrc f) (canXfer f) 0 1 0x13
    | some x =>
      let total := segments (field x.hdr 79 64)
      if 65 < n then
        sendAck (giveUp { s with fieldBus.rx := s.fieldBus.rx.filter (fun y => !mine y) } f.bus (canSrc f) (canXfer f) 0x13) f.bus (canPri f) (canSrc f) (canXfer f) x.segs 1 0x13
      else if n ≠ x.segs + 1 then sendAck s f.bus (canPri f) (canSrc f) (canXfer f) x.segs 0 0
      else
        let x1 := { x with value := x.value ++ leBytes 63 (field f.data.toNat 511 8), segs := n }
        let s1 := if n % 8 = 0 ∨ n = total then sendAck s f.bus (canPri f) (canSrc f) (canXfer f) n 0 0 else s
        if n = total then
          runRequest { s1 with fieldBus.rx := s1.fieldBus.rx.filter (fun y => !mine y) } f.bus x.pri (canSrc f) (canXfer f) x.hdr
            (x1.value.take (field x.hdr 79 64))
        else { s1 with fieldBus.rx := s1.fieldBus.rx.map (fun y => if mine y then x1 else y) })

/-- CAN_ACK_FRAME (R56): an aborted response is discarded; otherwise the sender goes on after the acknowledged segment. An ACK of no transfer,
and one above 65, is a SEG_ERROR (Table 3-7), which an aborting ACK tells the peer unless the ACK itself aborts (log entry 27). -/
def execCanAckFrame (f : CanFrame) (s : State) : Out :=
  .next (if !busOn s f.bus then s
  else if canIgnored f then flagIgnored s
  else if canKind f ≠ 3 ∨ canDst f ≠ nodeId s then s
  else
    let n := canByte f 0
    let mine (x : CanTx) : Bool := decide (x.bus = f.bus) && decide (x.dst = canSrc f) && decide (x.xfer = canXfer f)
    let wrong (s : State) : State :=
      let s1 := giveUp s f.bus (canSrc f) (canXfer f) 0x13
      if canByte f 1 = 1 then s1 else sendAck s1 f.bus (canPri f) (canSrc f) (canXfer f) 0 1 0x13
    match s.fieldBus.tx.find? mine with
    | none => wrong s
    | some t =>
      let gone := { s with fieldBus.tx := s.fieldBus.tx.filter (fun y => !mine y) }
      if 65 < n then wrong gone
      else if canByte f 1 = 1 then giveUp gone f.bus (canSrc f) (canXfer f) (canByte f 2)
      else if n = t.total then gone
      else if t.sent < n ∨ n < t.acked then s
      else
        let t1 := { t with acked := n, resends := if t.acked < n then 0 else t.resends }
        sendSegs s t1)

/-- CAN_ACK_TIMEOUT: 20 ms without an ACK (R56): three resends, then the transfer is abandoned with SEG_TIMEOUT. -/
def execCanAckTimeout (bus : Fin 2) (peer : BitVec 7) (xfer : BitVec 9) (s : State) : Out :=
  let mine (x : CanTx) : Bool := decide (x.bus = bus) && decide (x.dst = peer.toNat) && decide (x.xfer = xfer.toNat)
  .next (match s.fieldBus.tx.find? mine with
  | none => s
  | some t =>
    if 3 ≤ t.resends then giveUp { s with fieldBus.tx := s.fieldBus.tx.filter (fun y => !mine y) } bus peer.toNat xfer.toNat 0x12
    else sendSegs s { t with resends := t.resends + 1 })

/-! ## NODE frames (R57) -/

/-- Bytes 10:1 of a NODE frame: the serial number, the power state, and the flags. -/
def nodeBytes (s : State) : Nat := pack [(8, s.fuses.serial.toNat), (1, powerState s), (1, bitAt (isReady s) 0)]

/-- A NODE frame on every bus that is on: broadcast, PRI 7. -/
def sendNode (s : State) (data : Nat) : State :=
  ([0, 1] : List (Fin 2)).foldl (fun s (b : Fin 2) => if busOn s b then queueFrame s b (canId 7 4 0x7F (nodeId s) 0) data else s) s

/-- NODEID_CONFLICT: listen-only on both buses until a cold reset, and recorded (R57, Table 19-7). -/
def conflict (s : State) (bus serial : Nat) : State :=
  record { s with fieldBus.nodeConflict := true, fieldBus.conflicted := true, fieldBus.listenOnly := true } 0x0012 0 0xFF 0xFF (bus + serial * 256)

/-- ANNOUNCE (R57): on start of the field bus, unless it is listen-only; a third bit error is a conflict. -/
def execAnnounce (bitErrors : Nat) (s : State) : Out :=
  .next (if !s.fieldBus.started || s.fieldBus.listenOnly || s.fieldBus.announced then s
  else if 3 ≤ bitErrors then conflict s 0 0
  else sendNode { s with fieldBus.announced := true, fieldBus.listenUntil := s.time.clock + 50000000 } (0x01 + nodeBytes s * 256))

/-- NODE_FRAME (R57): within the 50 ms after ANNOUNCE, the device's own node ID with another serial number is a conflict. -/
def execNodeFrame (f : CanFrame) (s : State) : Out :=
  .next (if !busOn s f.bus then s
  else if canIgnored f then flagIgnored s
  else if canKind f = 4 ∧ s.fieldBus.announced ∧ s.time.clock ≤ s.fieldBus.listenUntil ∧ canSrc f = nodeId s ∧ field f.data.toNat 71 8 ≠ s.fuses.serial.toNat then
    conflict s f.bus (field f.data.toNat 71 8)
  else s)

/-- HEARTBEAT: every FIELD_HEARTBEAT period, unless it is 0 (R57). -/
def execHeartbeat (s : State) : Out :=
  .next (if s.fieldBus.announced && decide (dparam s 0x0030 4 ≠ 0) then
    sendNode s (0x02 + nodeBytes s * 256 + (s.dir.commits % 2 ^ 64) * 256 ^ 11) else s)

/-! ## Bus state and rate (R54) -/

/-- FIELD_RATE_CHANGE: once the response to the commit has been sent, the new rates are in force (R54). -/
def execFieldRateChange (s : State) : Out :=
  .next (if s.fieldBus.ratePending && !responseWaits s then
    { s with fieldBus.arbRate := dparam s 0x0030 1, fieldBus.dataRate := dparam s 0x0030 2, fieldBus.ratePending := false } else s)

/-- FIELD_BUS_STATE_CHANGE: error confinement, or bus-off recovery (R54, Table 5-1). -/
def execFieldBusStateChange (bus : Fin 2) (st : BusState) (s : State) : Out :=
  let v := match st with
    | .active => 0
    | .passive => 1
    | .off => 2
  .next (if lget 0 s.fieldBus.busState bus = v then s
  else raise { s with fieldBus.busState := lset s.fieldBus.busState bus v } (0x011 + bus))

end Sys2Proof.Machine
end

