-- ==== Sys2Proof/Machine/FabricOps.lean ====
section
/-!
DEFINITION. Fabric operations at their destination, flits at a transit device, and what a device sends: remote rings, tokens of remote OUTPUT
nodes, COPY tasks, resolutions of tickets (R138, R140, R156, R159, R238, R240, R270–R282, R292, R293, R303).
-/
namespace Sys2Proof.Machine

/-! ## Dedup windows (R278) -/

/-- What an arrived operation gives: the state, the status and value of its ANSWER; `unseen` when its sequence number stays unseen
(R279). -/
structure OpRes where
  state : State
  status : Nat
  value : List Byte := []
  unseen : Bool := false

/-- The fabric of the device is there: not Solo, not DORMANT, stage 8 complete. -/
def fabricOn (s : State) : Bool := !solo s && decide (s.power.mode ≠ .dormant) && decide (8 ≤ s.boot.stage)

/-- The window of a source with an operation entered; entries below the last 1,024 leave. -/
def windowPut (w : Window) (oseq : Nat) (d : Dedup) : Window :=
  let h := Nat.max w.high oseq
  { w with high := h, seen := (sput w.seen oseq d).filter (fun q => decide (h < q.1 + 1024)) }

/-- The window for an arrival: the source's, cleared for a newer incarnation; none when the arrival's incarnation is older. -/
def windowFor (s : State) (m : OpMsg) : Option Window :=
  match sfind s.fab.windows m.src.toNat with
  | none => some { inc := m.sinc }
  | some w =>
    if m.sinc = w.inc then some w
    else if (m.sinc - w.inc).toNat ≤ 32767 then some { inc := m.sinc }
    else none

/-- An operation that executes again when it is repeated: READ, PROBE and directory READ, NEXT and DESCRIBE. -/
def repeats (opc : Nat) (m : OpMsg) : Bool :=
  decide (opc = 0x05) || decide (opc = 0x0D) ||
  (decide (opc = 0x07) && (decide (leAt m.data 0 1 = 1) || decide (leAt m.data 0 1 = 4) || decide (leAt m.data 0 1 = 5)))

/-- Bytes of the stored answer value of an operation: a window entry holds 8, of a directory response its first 8. -/
def storedLen (opc status : Nat) : Nat :=
  if opc = 0x07 ∨ ((opc = 0x01 ∨ opc = 0x06) ∧ status = stOk) then 8 else 0

/-! ## SUBMIT and DOORBELL (R140) -/

/-- A ring that a fabric operation may name: enabled, REMOTE_OK, and for SUBMIT LOCAL. -/
def remoteRing (s : State) (r : Nat) (submit : Bool) : Option Ring :=
  match ringOf s r with
  | some x => if (x.state = 1 ∨ x.state = 3) ∧ x.remoteOk ∧ (x.isLocal ∨ !submit) then some x else none
  | none => none

/-- SUBMIT at its destination: SEQ stamped, the entry written at SQ_TAIL, SQ_TAIL advanced. -/
def submitHere (s : State) (m : OpMsg) : OpRes :=
  let r := field m.arg.toNat 11 0
  match remoteRing s r true with
  | none => { state := s, status := stRemoteDenied }
  | some x =>
    if depth x ≤ (x.sqTail - x.sqHead).toNat then { state := s, status := stRingFull }
    else
      let bs := leBytes 8 x.appendSeq.toNat ++ bytesAt m.data 8 56
      let s1 := writeMem s (x.sqBase + 64 * (x.sqTail.toNat % depth x)) bs
      let y := { x with appendSeq := x.appendSeq + 1 }
      { state := (applyTail (modRing s1 r (fun _ => y)) r y (x.sqTail + 1)).1, status := stOk, value := leBytes 8 x.appendSeq.toNat }

/-- DOORBELL at its destination: an ordinary doorbell; an invalid one stops the ring. -/
def doorbellHere (s : State) (m : OpMsg) : OpRes :=
  let r := field m.arg.toNat 11 0
  match remoteRing s r false with
  | none => { state := s, status := stRemoteDenied }
  | some x =>
    let (s1, ok) := applyTail s r x (BitVec.ofNat 32 (leAt m.data 0 4))
    { state := s1, status := if ok then stOk else stRemoteDenied }

/-! ## WRITE, READ and ATOMIC (R240, R276) -/

/-- The handle of an operation relocated in the partition PART, with REMOTE required: its device address, or a handle status. -/
def remoteReloc (s : State) (m : OpMsg) (rd wr : Bool) (len : Nat) : Except Nat Nat :=
  let p := m.part.toNat
  let h := leAt m.data 0 4
  let off := leAt m.data 4 8
  if 72 ≤ p then .error stBadHandle
  else match relocate s p h [kBuffer] rd wr 0 0 with
    | .error e => .error e.1
    | .ok e =>
      if !bitOf e.rights 2 then .error stRights
      else match relocate s p h [kBuffer] rd wr off len with
        | .error e => .error e.1
        | .ok e => .ok (e.base + off)

/-- WRITE at its destination. -/
def writeHere (s : State) (m : OpMsg) : OpRes :=
  let d := m.data.drop 12
  if m.data.length < 12 ∨ 4096 < d.length then { state := s, status := stBadField }
  else match remoteReloc s m false true d.length with
    | .error st => { state := s, status := st }
    | .ok a => { state := if d.isEmpty then s else writeMem s a d, status := stOk }

/-- READ at its destination. -/
def readHere (s : State) (m : OpMsg) : OpRes :=
  let n := leAt m.data 12 4
  if 4096 < n then { state := s, status := stBadField }
  else match remoteReloc s m true false n with
    | .error st => { state := s, status := st }
    | .ok a => match readMem s a n with
      | (s1, .error _) => { state := s1, status := stMemoryError }
      | (s1, .ok bs) => { state := s1, status := stOk, value := bs }

/-- Operand and compare value of an atomic in 32 bytes: CAS has its compare value first (R238). -/
def atomOperands (code bits v : Nat) : Nat × Nat :=
  if code = 0x0F ∨ code = 0x10 then (field v (2 * bits - 1) bits, v % 2 ^ bits) else (v % 2 ^ bits, 0)

/-- ATOMIC at its destination, performed at the home. -/
def atomicHere (s : State) (m : OpMsg) : OpRes :=
  let c := leAt m.data 12 1
  let code := c % 128
  match atomSize code with
  | none => { state := s, status := stBadField }
  | some n =>
    if !fetchOk code (bitOf c 7) then { state := s, status := stBadField }
    else match remoteReloc s m (bitOf c 7) true n with
      | .error st => { state := s, status := st }
      | .ok a =>
        if a % n ≠ 0 then { state := s, status := stBadField }
        else
          let (v, w) := atomOperands code (8 * n) (leAt m.data 13 32)
          match performAtom s code a v w with
          | (s1, .error _) => { state := s1, status := stMemoryError }
          | (s1, .ok old) => { state := s1, status := stOk, value := leBytes 8 (if bitOf c 7 then old else 0) }

/-! ## Tokens from other devices (R159, R279–R282) -/

/-- Every token received from a device, in queues, on its way and taken, changed. -/
def mapReceived (s : State) (src : Nat) (f : Inst → Token → Token) : State :=
  { s with root.insts := s.root.insts.map (fun q =>
      let g (t : Token) : Token := if t.src = some src then f q.2 t else t
      (q.1, { q.2 with queues := q.2.queues.map (fun y => { y with tokens := y.tokens.map g, flight := y.flight.map g }),
                       nodes := q.2.nodes.map (fun y => { y with firings := y.firings.map (fun z => { z with taken := z.taken.map g }) }) })) }

/-- Staged tokens of a device changed. -/
def mapStaged (s : State) (src : Nat) (f : StagedTok → StagedTok) : State :=
  { s with root.staging := s.root.staging.map (fun t => if t.src = src then f t else t) }

/-- A token goes to the staging of its die (R159): where that is full, only one that its INPUT node takes at once is accepted. -/
def stageToken (s : State) (t : StagedTok) : Option State :=
  let s1 := { s with root.staging := s.root.staging ++ [t] }
  if (s.root.staging.filter (fun u => decide (u.die = t.die))).length < 4096 then some s1
  else match s.root.insts.find? (fun q => decide (q.2.part = t.part) && decide (q.2.key = t.key)) with
    | none => none
    | some (i, x) => match nodeOf x t.node with
      | none => none
      | some y => if y.ent.kind = 5 ∧ canFire s1 x t.node y ∧ stagedFor s1 x t.node = some t then some (fireNode s1 i t.node x y) else none

/-- The correction of a retracted token takes its place, confirmed, wherever that stands (R282); one with no place is a later one, and is
discarded (R303). -/
def correctToken (s : State) (src ticket part key node : Nat) (d : BitVec 128) : State :=
  let st (x : TokSt) : Bool := match x with
    | .confirmed => false
    | .prov k => decide (k = ticket)
    | .retracted k => decide (k = ticket)
  let s1 := mapReceived s src (fun x t => if x.part = part ∧ x.key = key ∧ t.node = node ∧ st t.st then { t with data := d, st := .confirmed } else t)
  let s2 := mapStaged s1 src (fun t => if t.part = part ∧ t.key = key ∧ t.node = node ∧ st t.st then { t with data := d, st := .confirmed } else t)
  let s3 := { s2 with fb.provRx := s2.fb.provRx.filter (fun r =>
    !(decide (r.src = src) && decide (r.ticket = ticket) && decide (r.part = part) && decide (r.key = key) && decide (r.slot = node))) }
  s3.root.insts.foldl (fun s q => replaceReturned s q.1) s3

/-- TOKEN at its destination (R159, R279, R281, R282). -/
def tokenHere (s : State) (m : OpMsg) : OpRes :=
  let src := m.src.toNat
  let k := leAt m.data 0 4
  let node := field m.arg.toNat 15 0
  let d := BitVec.ofNat 128 (leAt m.data 4 16)
  if bitOf m.arg.toNat 16 then { state := correctToken s src m.ticket.toNat m.part.toNat k node d, status := stOk }
  else
    let t : StagedTok := { die := (src - 1) % 6, part := m.part.toNat, key := k, node, data := d, src,
                           st := if m.prov then .prov m.ticket.toNat else .confirmed }
    match stageToken s t with
    | none => { state := { s with fab.refusedTokens := if s.fab.refusedTokens.contains src then s.fab.refusedTokens else s.fab.refusedTokens ++ [src] },
                status := stRingFull, unseen := true }
    | some s1 =>
      { state := if m.prov then
          { s1 with fb.provRx := s1.fb.provRx ++ [{ src, ticket := m.ticket.toNat, part := m.part.toNat, key := k, slot := node, since := s.time.clock }] }
        else s1, status := stOk }

/-- Provisional tokens of a source and ticket committed; those whose window has expired are answered TIMEOUT and counted late (R282,
R303). -/
def confirmReceived (s : State) (src ticket : Nat) : State × Bool :=
  let mine (r : ProvRx) : Bool := decide (r.src = src) && decide (r.ticket = ticket)
  let s1 := mapReceived s src (fun _ t => if t.st = .prov ticket then { t with st := .confirmed } else t)
  let s2 := mapStaged s1 src (fun t => if t.st = .prov ticket then { t with st := .confirmed } else t)
  let late := s.fb.provRx.any (fun r => mine r && decide (r.state = 1))
  let s3 := { s2 with fb.provRx := s2.fb.provRx.filter (fun r => !(mine r && decide (r.state = 0))) }
  let s4 := s3.root.insts.foldl (fun s q => replaceReturned s q.1) s3
  (if late then fabStat s4 7 else s4, late)

/-- Provisional tokens of a source and ticket retracted: they keep their places, and the firings that took them are to be undone (R160,
R184, R282). -/
def retractReceived (s : State) (src ticket : Nat) : State :=
  let s1 := mapReceived s src (fun _ t => if t.st = .prov ticket then { t with st := .retracted ticket } else t)
  let s2 := mapStaged s1 src (fun t => if t.st = .prov ticket then { t with st := .retracted ticket } else t)
  let s3 : State := { s2 with fb.provRx := s2.fb.provRx.map (fun (r : ProvRx) => if r.src = src ∧ r.ticket = ticket then { r with state := 1 } else r) }
  { s3 with root.insts := s3.root.insts.map (fun (q : Nat × Inst) => (q.1, { q.2 with nodes := q.2.nodes.map (fun y => { y with firings := y.firings.map (fun z =>
      if z.taken.any isRetracted && !z.returned && z.undoDue.isNone then { z with undoDue := some 0, badInput := true }
      else if z.taken.any isRetracted then { z with badInput := true } else z) }) })) }

/-- The tickets that a CONFIRM, RETRACT or RESEND_REQ carries. -/
def ticketsOf (m : OpMsg) : List Nat := (List.range (Nat.min 22 (m.data.length / 4))).map (fun i => leAt m.data (4 * i) 3)

/-- CONFIRM at a receiver. -/
def confirmHere (s : State) (m : OpMsg) : OpRes :=
  let (s1, late) := (ticketsOf m).foldl (fun a t =>
    let (s2, l) := confirmReceived a.1 m.src.toNat t
    (s2, a.2 || l)) (s, false)
  { state := s1, status := if late then stTimeout else stOk }

/-- RETRACT at a receiver. -/
def retractHere (s : State) (m : OpMsg) : OpRes :=
  { state := (ticketsOf m).foldl (fun s t => retractReceived s m.src.toNat t) s, status := stOk }

/-- RESEND_REQ at the owner (R303): a confirmed ticket's token is sent as a correction at once; an unresolved one's destination is marked. -/
def resendHere (s : State) (m : OpMsg) : OpRes :=
  let t := ((ticketsOf m).head?).getD 0
  let d := m.src.toNat
  let mine (e : ProvEntry) : Bool := decide (e.ticket = t) && e.dests.any (fun x => decide (x.dest = d) && decide (x.state ≠ 1))
  { state := (s.fb.store.filter mine).foldl (fun s e =>
      if e.resolved = 1 then sendCorrection s e d
      else if e.resolved = 0 then
        { s with fb.store := s.fb.store.map (fun z => if z = e then
            { z with dests := z.dests.map (fun x => if x.dest = d then { x with state := 2 } else x) } else z) }
      else s) s, status := stOk }

/-! ## MGMT, PROBE, ROUTE_NOTICE (R270, R274, R277) -/

/-- A directory operation carried in an operation's data, run for a manager's address; its response. -/
def mgmtRun (s : State) (addr : BitVec 16) (data : List Byte) : State × Option Rsp :=
  runDir s (.fabricMgr addr) { op := leAt data 0 1, index := leAt data 2 2, sub := leAt data 4 1, inst := leAt data 5 1, txn := leAt data 6 2,
                               len := leAt data 8 2, val := leNat (data.drop 12) }

/-- The bytes of a directory response. -/
def rspBytes (r : Rsp) : List Byte := leBytes 12 (rspHeader r) ++ leBytes r.len r.value

/-- The DENIED response to a directory operation (R270). -/
def deniedRsp (data : List Byte) : Rsp :=
  { op := leAt data 0 1 ||| 0x80, index := leAt data 2 2, sub := leAt data 4 1, inst := leAt data 5 1, txn := leAt data 6 2, len := 0, status := dsDenied, value := 0 }

/-- MGMT at its destination: none when a reset that it asks for leaves no answer. -/
def mgmtHere (s : State) (m : OpMsg) : State × Option (List Byte) :=
  if m.src = 0 then (s, some (rspBytes (deniedRsp m.data)))
  else
    let (s1, r) := mgmtRun s m.src m.data
    (s1, r.map rspBytes)

/-- An operation of Table 17-4 executed at its destination; none: no answer. -/
def runFabricOp (s : State) (opc : Nat) (m : OpMsg) : Option OpRes × State :=
  let one (r : OpRes) : Option OpRes × State := (some r, r.state)
  match opc with
  | 0x01 => one (submitHere s m)
  | 0x02 => one (doorbellHere s m)
  | 0x03 => one (tokenHere s m)
  | 0x04 => one (writeHere s m)
  | 0x05 => one (readHere s m)
  | 0x06 => one (atomicHere s m)
  | 0x07 => (match mgmtHere s m with
    | (s1, some v) => one { state := s1, status := stOk, value := v }
    | (s1, none) => (none, s1))
  | 0x08 => one (confirmHere s m)
  | 0x09 => one (retractHere s m)
  | 0x0A => one (resendHere s m)
  | 0x0C => one { state := { s with fab.notices := (m.src.toNat, leAt m.data 0 1, leAt m.data 1 1) :: s.fab.notices }, status := stOk }
  | 0x0D => one { state := s, status := stOk, value := leBytes 2 s.seed.incarnation.toNat }
  | _ => (none, { s with fab.discarded := s.fab.discarded + 1 })

/-- An operation with codes of Table 17-4 that an ANSWER follows. -/
def answered? (opc : Nat) : Bool := decide (1 ≤ opc ∧ opc ≤ 0x0A) || decide (opc = 0x0C) || decide (opc = 0x0D)

/-- An operation executed, its answer sent and entered in the window of its source. -/
def performArrived (s : State) (opc : Nat) (m : OpMsg) (w : Window) : State :=
  let src := m.src.toNat
  let s1 := fabStat { s with fab.windows := sput s.fab.windows src (windowPut w m.oseq.toNat .running) } 1
  match runFabricOp s1 opc m with
  | (none, s2) => s2
  | (some r, s2) =>
    let v := leNat (r.value.take (storedLen opc r.status))
    let w2 := if r.unseen then w else windowPut w m.oseq.toNat (.answered r.status v)
    sendAnswer { s2 with fab.windows := sput s2.fab.windows src w2 } src m.oseq r.status r.value

/-- An operation as it has arrived whole for this device (R277, R278). -/
def arriveOp (s0 : State) (opc : Nat) (m : OpMsg) : State :=
  if !fabricOn s0 then s0
  else if m.src = 0 ∨ 4096 < m.src.toNat ∨ !answered? opc then { s0 with fab.discarded := s0.fab.discarded + 1 }
  else
    let s := workArrives s0
    match windowFor s m with
    | none => fabStat s 4
    | some w =>
      -- the window of a newer incarnation is adopted whatever follows
      let s1 := { s with fab.windows := sput s.fab.windows m.src.toNat w }
      if opc ≠ 0x0D ∧ m.dinc ≠ s.seed.incarnation then sendAnswer s1 m.src.toNat m.oseq stUnreachable []
      else if m.oseq.toNat + 1024 ≤ w.high then fabStat s1 3
      else match sfind w.seen m.oseq.toNat with
        | none => performArrived s opc m w
        | some .running => fabStat s1 2
        | some (.answered st v) =>
          if repeats opc m then performArrived (fabStat s 2) opc m w
          else sendAnswer (fabStat s1 2) m.src.toNat m.oseq st (leBytes (storedLen opc st) v)

/-! ## Source-routed operations (R270) -/

/-- A source-routed operation: passed on, or at the end of its route executed for the serial of the current manager alone; the answer
returns along the recorded path. -/
def arriveDisc (s : State) (m : OpMsg) (d : Disc) : State :=
  if !fabricOn s then s
  else match d.route with
    | q :: rest =>
      if (fport s q).state = 2 ∧ d.path.length + 1 < dparam s 0x5001 4 then
        sendDiscFlit s q (.disc q (rest.map (·.val)) ((d.path ++ [d.port]).map (·.val)) d.serial.toNat m.oseq.toNat m.data)
      else s
    | [] =>
      let s0 := workArrives s
      let back (s : State) (r : Rsp) : State :=
        sendDiscFlit s d.port (.discRsp d.port (d.path.reverse.map (·.val)) m.oseq.toNat stOk (rspBytes r))
      if (s0.fab.manager.map (·.serial)) = some d.serial.toNat then
        (match mgmtRun s0 (BitVec.ofNat 16 (managerNow s0)) m.data with
          | (s1, some r) => back s1 r
          | (s1, none) => s1)
      else back s0 (deniedRsp m.data)

/-! ## Rows: operations as they arrive -/

/-- SUBMIT (R140, R275). -/
def execSubmit (m : OpMsg) (s : State) : Out := .next (arriveOp s 0x01 m)
/-- DOORBELL (R140, R275). -/
def execDoorbell (m : OpMsg) (s : State) : Out := .next (arriveOp s 0x02 m)
/-- TOKEN (R159, R275). -/
def execTokenOp (m : OpMsg) (s : State) : Out := .next (arriveOp s 0x03 m)
/-- WRITE (R275, R276). -/
def execFabWrite (m : OpMsg) (s : State) : Out := .next (arriveOp s 0x04 m)
/-- READ (R275, R276). -/
def execFabRead (m : OpMsg) (s : State) : Out := .next (arriveOp s 0x05 m)
/-- ATOMIC (R240, R276). -/
def execAtomic (m : OpMsg) (s : State) : Out := .next (arriveOp s 0x06 m)
/-- MGMT, routed or source-routed (R270). -/
def execMgmt (m : OpMsg) (s : State) : Out :=
  .next (match m.disc with
  | some d => arriveDisc s m d
  | none => arriveOp s 0x07 m)
/-- CONFIRM (R282, R303). -/
def execConfirm (m : OpMsg) (s : State) : Out := .next (arriveOp s 0x08 m)
/-- RETRACT (R282). -/
def execRetract (m : OpMsg) (s : State) : Out := .next (arriveOp s 0x09 m)
/-- RESEND_REQ (R303). -/
def execResendReq (m : OpMsg) (s : State) : Out := .next (arriveOp s 0x0A m)
/-- ROUTE_NOTICE: what it reports is kept for the manager (R274). -/
def execRouteNotice (m : OpMsg) (s : State) : Out := .next (arriveOp s 0x0C m)
/-- PROBE (R277). -/
def execProbe (m : OpMsg) (s : State) : Out := .next (arriveOp s 0x0D m)

/-- ANSWER (R142, R272, R275): one to a source-routed operation goes on along the recorded path. -/
def execAnswer (m : AnsMsg) (s : State) : Out :=
  .next (if !fabricOn s then s else match m.path with
  | q :: rest =>
    if (fport s q).state = 2 then sendDiscFlit s q (.discRsp q (rest.map (·.val)) m.oseq.toNat m.status.toNat m.value) else s
  | [] => takeAnswer s m.src.toNat m.oseq m.status.toNat m.transit m.value)

/-! ## Flits at this device (R268, R271, R272, R275) -/

/-- An operation whose flits are all there; a TIME came by `hops` links and has been in the device for `stay` ns. -/
def deliver (s : State) (port stay hops : Nat) (a : Assembly) : State :=
  let h := a.bytes
  let opc := leAt h 8 1
  let data := bytesAt h 24 (leAt h 12 2)
  let arg := leAt h 20 4
  if opc = 0x80 then takeAnswer s a.src a.oseq (field arg 7 0) (bitOf arg 8) data
  else if opc = 0x0B then takeTime s port (leAt data 0 8 + (fport s port).linkDelay + stay) hops
  else arriveOp s opc { src := BitVec.ofNat 16 a.src, sinc := BitVec.ofNat 16 (leAt h 14 2), dinc := BitVec.ofNat 16 (leAt h 16 2), oseq := a.oseq,
                        part := BitVec.ofNat 8 (leAt h 9 1), arg := BitVec.ofNat 32 arg, prov := a.prov, ticket := BitVec.ofNat 24 a.ticket, data, disc := none }

/-- A flit that is taken locally: the first of an operation begins it, the others complete it. -/
def takeLocal (s : State) (port stay f : Nat) : State :=
  let hops := dparam s 0x5001 4 + 1 - flHops f
  let src := flSrc f
  let pl := flPayload f
  if flFirst f then
    let n := leAt pl 10 2
    let a : Assembly := { src, vc := flVc f, oseq := BitVec.ofNat 64 (leAt pl 0 8), nflits := n, got := 1, prov := flProv f, ticket := flTicket f, bytes := pl }
    if n = 0 ∨ 37 < n then { s with fab.discarded := s.fab.discarded + 1 }
    else if n = 1 then deliver s port stay hops a
    else { s with fab.assembly := a :: s.fab.assembly }
  else match s.fab.assembly.find? (fun a => decide (a.src = src) && decide (a.vc = flVc f)) with
    | none => s
    | some a =>
      let b := { a with got := a.got + 1, bytes := a.bytes ++ pl }
      let s1 := { s with fab.assembly := s.fab.assembly.erase a }
      if b.got = b.nflits then deliver s1 port stay hops b else { s1 with fab.assembly := b :: s1.fab.assembly }

/-- A flit of a transit queue moves: it is taken locally, goes on by its own epoch's table with HOPS decremented, is discarded where it would
go on with HOPS = 0, or meets no route (R271, R272). None while the port it goes on by cannot send it. -/
def moveFlit (s : State) (p : Nat) (t : Transit) : Option State :=
  let s1 := takeTransit s p t
  let f := t.flit.toNat
  let g := BitVec.ofNat 1024 (putField f 111 104 (flHops f - 1))
  if flDst f = 0 ∨ routePort s1 (flEpoch f) (flDst f) = some 14 then some (takeLocal s1 (if t.port = 14 then p else t.port) (s.time.clock - t.at_) f)
  else if flHops f ≤ 1 then some (fabStat (forgetFlit s1 f) 6)
  else match routePort s1 (flEpoch f) (flDst f) with
    | none => some (rerouteFlit (forgetFlit s1 f) g)
    | some q =>
      let x := fport s1 q
      if x.state = 2 ∧ x.retry.length < 512 ∧ flitMayGo x ⟨0, g, none, 0⟩ then routeFlit s1 (flEpoch f) g else none

/-- The flits at the head of a transit queue, one for each virtual channel: answers never wait behind requests (R266). -/
def transitHeads (x : FPort) : List Transit :=
  (x.transit.zipIdx.filter (fun q => !(x.transit.take q.2).any (fun t => decide (flVc t.flit.toNat = flVc q.1.flit.toNat)))).map (·.1)

/-- FLIT_FORWARD: the first head of a transit queue that can move does (R266, R271). -/
def execFlitForward (p : Fin 12) (s : State) : Out :=
  .next (match (transitHeads (fport s p)).findSome? (moveFlit s p) with
  | some s1 => idleIfDue s1 p
  | none => s)

/-! ## Commands over the fabric (R138, R140) -/

/-- A command's operation sent, with the command marked; UNREACHABLE where no route is left. -/
def commandOp (s : State) (ring : Nat) (seq : BitVec 64) (d opc arg : Nat) (data : List Byte) : State :=
  if !hasRoute s d then finish s ring seq ⟨stUnreachable, 0, 0⟩
  else issueOp (modCmd s ring seq (fun c => { c with begun := true, overFabric := true })) d opc 0xFF arg 0 false data (.cmd ring seq)

/-- REMOTE_SUBMIT (R140). -/
def execRemoteSubmit (ring : Fin 4096) (seq : BitVec 64) (src : HostRead) (s : State) : Out :=
  .next (match begin? s ring seq 0x50 with
  | (s1, none) => s1
  | (s1, some c) =>
    let e := c.entry.toNat
    match relocAt c 20 with
    | none => s1
    | some h => match srcRead s1 h (cf e 31 24) 64 src with
      | (s2, .error aux) => finish s2 ring seq ⟨stMemoryError, aux, 0⟩
      | (s2, .ok bs) => commandOp s2 ring seq (cf e 17 16) 0x01 (cf e 19 18 % 4096) bs)

/-- REMOTE_DOORBELL (R140). -/
def execRemoteDoorbell (ring : Fin 4096) (seq : BitVec 64) (s : State) : Out :=
  .next (match begin? s ring seq 0x51 with
  | (s1, none) => s1
  | (s1, some c) =>
    let e := c.entry.toNat
    commandOp s1 ring seq (cf e 17 16) 0x02 (cf e 19 18 % 4096) (leBytes 4 (cf e 23 20)))

/-! ## Remote OUTPUT nodes (R156, R159, R280, R281, R302, R303) -/

/-- The token of a remote OUTPUT node sent: confirmed, or provisional with an entry in the ticket store. -/
def sendToken (s : State) (ins node : Nat) (x : Inst) (y : Node) (t : Token) : State :=
  let d := lget 0 y.ent.outQ 0
  let slot := lget 0 y.ent.outQ 1
  let x1 := freeSlots (takeAndReserve x y.ent) y.ent
  let x2 := setNode { x1 with remote := x1.remote + 1 } node (fun z => { z with started := z.started + 1, fired := z.fired + 1, since := s.time.clock })
  let s1 := modInst s ins (fun _ => x2)
  let data := leBytes 4 x.key ++ leBytes 16 t.data.toNat
  match t.st with
  | .prov k =>
    let e : ProvEntry := { ticket := k, part := x.part, ins := some ins, node := t.node, firing := t.firing, out := t.out, slot, key := x.key,
                           token := t.data, dests := [{ dest := d }] }
    let s2 := if s1.fb.store.any (fun z => decide (z.ticket = k)) then s1 else fbStat s1 x.part 4 1
    issueOp { s2 with fb.store := s2.fb.store ++ [e] } d 0x03 x.part slot k true data (.token ins node)
  | _ => issueOp s1 d 0x03 x.part slot 0 false data (.token ins node)

/-- REMOTE_OUTPUT_SEND: with no route the command, or every step, completes with UNREACHABLE (R280). -/
def execRemoteOutputSend (ins : Fin 16384) (node : Fin 4096) (s : State) : Out :=
  .next (match instOf s ins with
  | none => s
  | some x => match nodeOf x node with
    | none => s
    | some y =>
      if y.ent.kind ≠ 6 ∨ !y.ent.remote ∨ y.ent.firings ≤ y.started then s
      else match headTokens x y.ent with
        | some (t :: _) =>
          if !isConfirmed t && !provMayLeave s x y.ent t then s
          else if !hasRoute s (lget 0 y.ent.outQ 0) then freezeInst s ins stUnreachable 0 false .plain
          else sendToken s ins node x y t
        | _ => s)

/-! ## Resolution of tickets (R282, R303) -/

/-- Destinations of a ticket with a state. -/
def destsIn (s : State) (ticket st : Nat) : List Nat :=
  ((s.fb.store.filter (fun e => decide (e.ticket = ticket))).flatMap (fun e => (e.dests.filter (fun d => decide (d.state = st))).map (·.dest))).eraseDups

/-- A destination of a ticket told, or asked for a correction, of the resolution. -/
def toldDest (s : State) (ticket dest : Nat) : State :=
  { s with fb.store := s.fb.store.map (fun e => if e.ticket = ticket then
      { e with dests := e.dests.map (fun d => if d.dest = dest ∧ d.state ≠ 1 then { d with state := 3 } else d) } else e) }

/-- An operation about tickets; with no route it ends at once. -/
def ticketOp (s : State) (d opc : Nat) (ts : List Nat) : State :=
  if hasRoute s d then issueOp s d opc 0xFF 0 0 false (ts.flatMap (leBytes 4)) (.ticket ts)
  else ts.foldl (fun s t => ticketAnswered s stUnreachable d t) s

/-- A destination is told of a ticket's resolution, with up to 21 others that were resolved alike and that it has not been told of. -/
def tellDest (s : State) (ticket how dest : Nat) : State :=
  let more := (s.fb.tickets.filter (fun t => decide (t.resolved = how) && decide (t.num ≠ ticket) && (destsIn s t.num 0).contains dest)).map (·.num)
  let ts := ticket :: more.take 21
  ticketOp (ts.foldl (fun s t => toldDest s t dest) s) dest (if how = 1 then 0x08 else 0x09) ts

/-- TICKET_RESOLVE: CONFIRM or RETRACT to every destination of a resolved ticket; one that has asked for a resend gets a correction in place of
CONFIRM (R303). -/
def execTicketResolve (ticket : BitVec 24) (s : State) : Out :=
  .next (match s.fb.tickets.find? (fun t => decide (t.num = ticket.toNat)) with
  | none => s
  | some t =>
    if t.resolved = 0 then s
    else
      let s1 := (destsIn s t.num 0).foldl (fun s d => tellDest s t.num t.resolved d) s
      (destsIn s1 t.num 2).foldl (fun s d =>
        if t.resolved = 1 then (s.fb.store.filter (fun e => decide (e.ticket = t.num) && e.dests.any (fun z => decide (z.dest = d) && decide (z.state = 2)))).foldl
            (fun s e => sendCorrection s e d) (toldDest s t.num d)
        else tellDest s t.num 2 d) s1)

/-- PROV_WINDOW_EXPIRY: a provisional token with neither CONFIRM nor RETRACT is treated as retracted, and RESEND_REQ goes to its owner
(R282). -/
def execProvWindowExpiry (src : BitVec 16) (ticket : BitVec 24) (s : State) : Out :=
  let due := s.fb.provRx.filter (fun r => decide (r.src = src.toNat) && decide (r.ticket = ticket.toNat) && decide (r.state = 0))
  .next (if !due.isEmpty then
    let s1 := retractReceived (((due.map (·.part)).eraseDups).foldl (fun s p => fbStat s p 6 1) s) src.toNat ticket.toNat
    if hasRoute s1 src.toNat then issueOp s1 src.toNat 0x0A 0xFF 0 0 false (leBytes 4 ticket.toNat) .other else s1
  else s)

/-! ## COPY tasks (R280, R281, R292, R293) -/

/-- A COPY token (Table 18-2): the remote handle, the offsets, the length in bytes and the kind. -/
structure CopyTok where
  dest : Nat
  handle : Nat
  loff : Nat
  roff : Nat
  len : Nat
  kind : Nat

/-- A token as a COPY, with a peer entry replaced by its address. -/
def copyTok (s : State) (p : Nat) (d : Nat) : CopyTok :=
  let a := field d 15 0
  { dest := if 0xF000 ≤ a ∧ a < 0xF040 then field (param s 0x5804 1 p) (16 * (a - 0xF000) + 15) (16 * (a - 0xF000)) else a,
    handle := field d 47 16, loff := field d 79 48, roff := field d 111 80, len := 64 * field d 125 112, kind := field d 127 126 }

/-- A token outside Table 18-2: KIND 3, no length, a misaligned offset, bytes beyond OP_LEN, an address that is none, or an empty peer entry
(R293). -/
def copyBad (c : CopyTok) (d opLen : Nat) : Bool :=
  decide (c.kind = 3) || decide (c.len = 0) || decide (c.loff % 64 ≠ 0) || decide (c.roff % 64 ≠ 0) || decide (opLen < c.loff + c.len) ||
  decide (4096 < c.dest) || (decide (c.dest = 0) && decide (field d 15 0 ≠ 0))

/-- The records of an ATOMIC copy: operand and code. -/
def copyRecords (bs : List Byte) (n : Nat) : List (Nat × Nat) := (List.range n).map (fun i => (leAt bs (64 * i) 32, leAt bs (64 * i + 32) 1))

/-- A code that an ATOMIC copy may carry: of Table 15-5, without FETCH. -/
def copyCode (c : Nat) : Bool := (atomSize c).isSome && fetchOk c false

/-- The atomics of a local copy, one after another; an AUX where one meets poison. -/
def localAtoms (a : Nat) : List ((Nat × Nat) × Nat) → State → State × Option Nat
  | [], s => (s, none)
  | ((v, code), i) :: rest, s =>
    match performAtom s code (a + 32 * i) (v % 2 ^ (8 * (atomSize code).getD 0)) 0 with
    | (s1, .error aux) => (s1, some aux)
    | (s1, .ok _) => localAtoms a rest s1

/-- A copy inside the device: RHANDLE in the partition's own table (R293). -/
def localCopy (s : State) (ins node : Nat) (x : Inst) (f : Firing) (c : CopyTok) (a : Nat) : State :=
  let n := c.len / 64
  let span := if c.kind = 2 then 32 * n else c.len
  match relocate s x.part c.handle [kBuffer] (decide (c.kind = 1)) (decide (c.kind ≠ 1)) c.roff span with
  | .error e => freezeInst s ins e.1 e.2 (decide (e.1 = stMemoryError)) .fault
  | .ok h =>
    let b := h.base + c.roff
    let done (s : State) : State := retireSingle s ins node f.num (fun _ => BitVec.ofNat 128 c.len)
    let broken (s : State) (aux : Nat) : State := freezeInst s ins stMemoryError aux true .fault
    if c.kind = 1 then (match readMem s b c.len with
      | (s1, .error aux) => broken s1 aux
      | (s1, .ok bs) => done (writeMem s1 a bs))
    else match readMem s a c.len with
      | (s1, .error aux) => broken s1 aux
      | (s1, .ok bs) =>
        if c.kind = 0 then done (writeMem s1 b bs)
        else
          let rs := copyRecords bs n
          if !rs.all (fun r => copyCode r.2) then freezeInst s1 ins stUnitFault (faultAux 0x01 1023 0) true .fault
          else match localAtoms b rs.zipIdx s1 with
            | (s2, some aux) => broken s2 aux
            | (s2, none) => done s2

/-- A copy to or from another device: operations of at most 4,096 bytes in ascending offset, or one ATOMIC per record (R293). -/
def remoteCopy (s : State) (ins node : Nat) (x : Inst) (f : Firing) (c : CopyTok) (a : Nat) : State :=
  let op (s : State) (opc loc : Nat) (data : List Byte) : State :=
    issueOp s c.dest opc x.part 0 0 false data (.copy ins node f.num loc c.len)
  let chunks := (List.range ((c.len + 4095) / 4096)).map (fun k => (4096 * k, Nat.min 4096 (c.len - 4096 * k)))
  let head (off : Nat) : List Byte := leBytes 4 c.handle ++ leBytes 8 (c.roff + off)
  if c.kind = 1 then chunks.foldl (fun s k => op s 0x05 (a + k.1) (head k.1 ++ leBytes 4 k.2)) s
  else match readMem s a c.len with
    | (s1, .error aux) => freezeInst s1 ins stMemoryError aux true .fault
    | (s1, .ok bs) =>
      if c.kind = 0 then chunks.foldl (fun s k => op s 0x04 0 (head k.1 ++ bytesAt bs k.1 k.2)) s1
      else
        let rs := copyRecords bs (c.len / 64)
        if !rs.all (fun r => copyCode r.2) then freezeInst s1 ins stUnitFault (faultAux 0x01 1023 0) true .fault
        else rs.zipIdx.foldl (fun s r => op s 0x06 0 (head (32 * r.2) ++ leBytes 1 r.1.2 ++ leBytes 32 r.1.1)) s1

/-- Operations of a copy have no answer yet. -/
def copyOut (s : State) (ins node k : Nat) : Bool :=
  s.fab.out.any (fun o => match o.owner with
    | .copy i n l _ _ => decide (i = ins) && decide (n = node) && decide (l = k)
    | _ => false)

/-- COPY_TASK: only once every token its firing took is confirmed (R281, R292, R293). -/
def execCopyTask (ins : Fin 16384) (node : Fin 4096) (s : State) : Out :=
  .next (match instOf s ins with
  | none => s
  | some x => match nodeOf x node with
    | none => s
    | some y => if y.ent.kind ≠ 4 then s else match sliceTask y with
      | none => s
      | some f =>
        if copyOut s ins node f.num then s
        else
          let d := (lget 0 (f.taken.map (fun (t : Token) => t.data)) 0).toNat
          let c := copyTok s x.part d
          match y.operand with
          | none => freezeInst s ins stUnitFault (faultAux 0x01 1023 0) true .fault
          | some h =>
            let a := h.base + y.ent.opOff + c.loff
            if copyBad c d y.ent.opLen then freezeInst s ins stUnitFault (faultAux 0x01 1023 0) true .fault
            -- the local side that the copy reads or writes needs that right (R134)
            else if !bitOf h.rights (if c.kind = 1 then 1 else 0) then freezeInst s ins stRights 0 false .fault
            else if c.dest = 0 ∨ c.dest = fabAddr s then localCopy s ins node x f c a
            else if !hasRoute s c.dest then freezeInst s ins stUnreachable 0 false .plain
            else remoteCopy s ins node x f c a)

end Sys2Proof.Machine
end

