-- ==== Sys2Proof/Machine/Steps.lean ====
section
/-!
DEFINITION. Step boundaries and step lists, with what a boundary applies, and the 100 µs share windows (R98, R147–R151, R167, R205, R207, R224,
R291, R310).
-/
namespace Sys2Proof.Machine

/-! ## What a boundary applies at cycle 1 (Table 9-4) -/

/-- A GRAPH_RUN instance of the partition is admitted. -/
def graphRuns (s : State) (p : Nat) : Bool :=
  s.root.insts.any (fun q => decide (q.2.part = p) && (match q.2.owner with
    | .run _ _ => true
    | .list _ => false))

/-- A change of GROVE_SPLIT may take effect (R167). -/
def splitDue (s : State) (p : Nat) : Bool := (sfind s.gr.split p).isSome && !graphRuns s p

/-- A pending GROVE_SPLIT takes effect: each grove of the partition writes back its dirty lines, and its scratch is lost (R167). -/
def applySplit (s : State) (p : Nat) : State :=
  if !splitDue s p then s
  else
    let gs := (List.range 432).filter (serves s p)
    let s1 := gs.foldl (fun s g => loseScratch (flushGrove s g) g) s
    { s1 with gr.split := sdel s1.gr.split p }

/-- A grove taken into a set, and out of the set of a disabled partition, as one journal entry (R310). -/
def takeGrove (s : State) (p g : Nat) : State :=
  let sub := g / 72 + 1
  let put (s : State) (q : Nat) (b : Bool) : State :=
    let v := putBit (param s 0x5802 sub q) (g % 72) b
    journalPut (setParam s 0x5802 sub q v) 0x5802 sub q v
  let owners := (List.range 72).filter (fun q => decide (q ≠ p) && inPartSet s q g)
  regrove s (put (owners.foldl (fun s q => put s q false) s) p true) g

/-- Dies on which an enabled partition has lost its last SERVING grove get the lowest free one (R310). -/
def replaceGroves (s : State) (p : Nat) : State :=
  if !partEnabled s p || !(s.seed.writable && s.seed.copyOk.any (· = true)) then s
  else (List.range 6).foldl (fun s d =>
    if ((List.range 72).map (72 * d + ·)).any (fun g => inPartSet s p g && groveEnabled s g && serving s (unitGrove g)) then s
    else match replacement s d with
      | some g => takeGrove s p g
      | none => s) s

/-- ADJ of a layer, from −16 to +15, and a layer with another. -/
def layerAdj (v : Nat) : Int := if 128 ≤ field v 71 64 then (field v 71 64 : Int) - 256 else field v 71 64
def withAdj (v : Nat) (a : Int) : Nat := putField v 71 64 ((a + 256).toNat % 256)

/-- PEAK is at or above one quarter of its format's largest finite value (R207). -/
def peakHigh (k : Peak) : Bool := !fltV (fdec fp32 k.bits) (fmul (outMax k.ofmt) (.fin false 1 (-2)))

/-- ADAPT of one layer by what it saw since the last boundary (R207). -/
def adaptLayer (s : State) (p l : Nat) : State :=
  let v := param s 0x3410 (l + 1) p
  let q := sget {} s.gr.qstat (64 * p + l)
  let next (s : State) (w : Nat) (lim : Nat) : State :=
    modQ s p l (fun z => { z with tripNow := false, peak := none, window := w, adaptLimit := (z.adaptLimit + lim) % 2 ^ 64 })
  let adj (a : Int) : State := setParam s 0x3410 (l + 1) p (withAdj v a)
  if layerMode v ≠ 1 then next s q.window 0
  else if q.tripNow then
    (if layerAdj v < 15 then next (adj (layerAdj v + 1)) 0 0 else next s 0 1)
  else if q.peak.isNone then next s q.window 0
  else if q.peak.any peakHigh then next s 0 0
  else if q.window + 1 < param s 0x3401 1 p then next s (q.window + 1) 0
  else if -16 < layerAdj v then next (adj (layerAdj v - 1)) 0 0 else next s 0 0

/-- The ADAPT updates of a boundary: layers 1 to 63. -/
def adaptAll (s : State) (p : Nat) : State := (List.range 63).foldl (fun s l => adaptLayer s p (l + 1)) s

/-- Groves of the partition wait for admission, or are to leave it. -/
def grovesDue (s : State) (p : Nat) : Bool :=
  s.groves.joining.any (fun q => decide (q.2 = .waiting) && decide (groveTarget s q.1 = some p)) ||
  (mayLeave s p && s.groves.leaving.any (fun q => decide (q.2 = p)))

/-- A model flip of the partition is pending (R151). -/
def flipDue (s : State) (p : Nat) : Bool := s.stands.switches.any (fun w => decide (w.part = p) && w.old.isSome && !w.loading)

/-- Everything that takes effect at cycle 1. -/
def boundaryApply (s : State) (p : Nat) : State :=
  let s1 := admitGroves (replaceGroves (leaveGroves s p) p) p
  let s2 := applySplit (flipModels s1 p) p
  let s3 := prefetchBoundary (adaptAll s2 p) p
  { s3 with stands.due := s3.stands.due.filter (· ≠ p) }

/-! ## The list (R147, R148) -/

/-- Ready stands come in ascending DEADLINE, then fetch order, then stand number (R147). -/
def stepBefore (a b : Nat × Stand) : Bool :=
  decide (a.2.deadline < b.2.deadline) || (decide (a.2.deadline = b.2.deadline) && (decide (a.2.order < b.2.order) ||
  (decide (a.2.order = b.2.order) && decide (a.1 < b.1))))

/-- A stand put in its place. -/
def stepInsert (a : Nat × Stand) : List (Nat × Stand) → List (Nat × Stand)
  | [] => [a]
  | b :: l => if stepBefore a b then a :: b :: l else b :: stepInsert a l

/-- The ready stands of a partition in list order. -/
def readySet (s : State) (p : Nat) : List (Nat × Stand) :=
  (s.stands.stands.filter (fun q => decide (q.2.part = p) && standReady s q.2)).foldl (fun l q => stepInsert q l) []

/-- The fill condition (R147): enough stands, one that has waited FILL_WAIT, or a deadline within the stand's last step. -/
def fillMet (s : State) (p : Nat) (l : List (Nat × Stand)) : Bool :=
  decide (param s 0x2402 2 p ≤ l.length) ||
  l.any (fun q => decide (q.2.readyAt + 1000 * param s 0x2402 3 p ≤ s.time.clock) || decide (q.2.deadline ≤ s.time.dev + 1000 * q.2.lastStep))

/-- A step listed (R147, R148); one listed during a switch's LOAD or in the first list after a flip is marked (R323). -/
def listStand (s : State) (p : Nat) (sw : Bool) (q : Nat × Stand) : State :=
  let s1 := modStand s q.1 (fun x => { x with listed := true, listedAt := s.time.clock })
  let s2 := if sw then modCmd s1 q.2.ring q.2.stepSeq (fun c => { c with switched := true }) else s1
  if q.2.deadline < s.time.dev then { s2 with stands.lateSteps := sset 0 s2.stands.lateSteps p (sget 0 s2.stands.lateSteps p + 1) } else s2

/-- A list of a partition built and handed to Rootwork (R147, R154, R205). The argument block of a list is open. -/
def buildList (s : State) (p m : Nat) (l : List (Nat × Stand)) : State :=
  let sw := inLoad s p || s.stands.flipped.contains p
  let s1 := l.foldl (fun s q => listStand s p sw q) s
  let k := sget 0 s1.stands.stepLists p + 1
  let lst : StepList := { stands := l.map (·.1), model := m, startedAt := s1.time.clock, key := k % 2 ^ 32 }
  let s2 := { s1 with stands.stepLists := sput s1.stands.stepLists p k, stands.lists := sput s1.stands.lists p lst,
                      stands.flipped := s1.stands.flipped.filter (· ≠ p) }
  match relocate s2 p (slotGraph s2 p m) [kGraph] true false 0 0 with
  | .error e => endList s2 p ⟨e.1, e.2, 0⟩ false
  | .ok h =>
    let args := (List.range 4096).map (fun i => BitVec.ofNat 8 (Config.openByte s2.free i))
    { s2 with free := s2.free + 1,
              root.requests := s2.root.requests ++ [{ part := p, owner := .list p, graph := h, args, layers := layerTable s2 p, checks := checkTable s2 p,
                                                      deadline := ((l.head?).map (·.2.deadline)).getD 0, key := k % 2 ^ 32 }] }

/-- The list of a boundary, if the fill condition holds (R147): the model of the first stand, up to STEP_MAX stands that name it. -/
def fillList (s : State) (p : Nat) : State :=
  let l := readySet s p
  match l with
  | [] => s
  | q :: _ =>
    if !partEnabled s p || !fillMet s p l then s
    else buildList s p q.2.model ((l.filter (fun z => decide (z.2.model = q.2.model))).take (param s 0x2402 1 p))

/-- STEP_BOUNDARY: after a list, or with none running when a stand is ready or a change of the partition is pending (R147). -/
def execStepBoundary (part : Fin 72) (s : State) : Out :=
  .next (if (sfind s.stands.lists part).isSome then s
  else if s.stands.due.contains part.val || !(readySet s part).isEmpty || grovesDue s part || flipDue s part || splitDue s part then
    fillList (boundaryApply s part) part
  else s)

/-- FILL_WAIT_EXPIRY: the earliest ready step of a partition without a running list has waited FILL_WAIT, and the fill condition is evaluated again
(R147). -/
def execFillWaitExpiry (part : Fin 72) (s : State) : Out :=
  .next (if (sfind s.stands.lists part).isNone &&
      (readySet s part).any (fun q => decide (q.2.readyAt + 1000 * param s 0x2402 3 part ≤ s.time.clock)) then fillList s part else s)

/-! ## Shares (R149) -/

/-- A partition has gathers outstanding: a GATHER command, or a THICKET task on an engine. -/
def gathers (s : State) (p : Nat) : Bool :=
  s.trail.cmds.any (fun c => decide (c.part = p) && decide (opcodeOf c.entry.toNat = 0x30) && !c.dup && c.result.isNone) ||
  s.root.insts.any (fun q => decide (q.2.part = p) && q.2.nodes.any (fun y => y.firings.any (fun f => f.tasks.any (fun t => match t.place with
    | .engine _ => true
    | _ => false))))

/-- SHARE_WINDOW: each 100 µs, partitions with gathers outstanding share the memory engines in proportion to PART_SHARE (R149). -/
def execShareWindow (s : State) : Out :=
  let ps := (List.range 72).filter (gathers s)
  let total := (ps.map (fun p => param s 0x2403 1 p)).sum
  .next { s with stands.shares := ps.map (fun p => (p, 1000 * param s 0x2403 1 p / total)) }

end Sys2Proof.Machine
end

