-- ==== Sys2Proof/Machine/Dispatch.lean ====
section
/-! DEFINITION. Which meaning a command has: one arm per row of the table, in the table's order. -/
namespace Sys2Proof.Machine

/-- The effect of one command on everything but the queue. -/
def exec (i : Instr) (s : State) : Host.Outcome State Fault Refusal :=
  match i with
  | .pwrokRise straps => Sys2Proof.Machine.execPwrokRise straps s
  | .mainpwrEnPowerOn => Sys2Proof.Machine.execMainpwrEnPowerOn s
  | .pwrokFall => Sys2Proof.Machine.execPwrokFall s
  | .powerLoss => Sys2Proof.Machine.execPowerLoss s
  | .coldrstNAssert => Sys2Proof.Machine.execColdrstNAssert s
  | .railFault rail => Sys2Proof.Machine.execRailFault rail s
  | .refclkLoss => Sys2Proof.Machine.execRefclkLoss s
  | .pllUnlock die => Sys2Proof.Machine.execPllUnlock die s
  | .thermtrip die sensor => Sys2Proof.Machine.execThermtrip die sensor s
  | .thermalStepRaise die tj => Sys2Proof.Machine.execThermalStepRaise die tj s
  | .thermalStepLower die tj => Sys2Proof.Machine.execThermalStepLower die tj s
  | .powerSample watts => Sys2Proof.Machine.execPowerSample watts s
  | .capStepRaise => Sys2Proof.Machine.execCapStepRaise s
  | .capStepLower => Sys2Proof.Machine.execCapStepLower s
  | .autogateStop dom => Sys2Proof.Machine.execAutogateStop dom s
  | .autogateWake dom => Sys2Proof.Machine.execAutogateWake dom s
  | .romBoot d0 d3 => Sys2Proof.Machine.execRomBoot d0 d3 s
  | .spiNorRead image => Sys2Proof.Machine.execSpiNorRead image s
  | .containerVerification => Sys2Proof.Machine.execContainerVerification s
  | .recoveryBoot => Sys2Proof.Machine.execRecoveryBoot s
  | .seedbankRecovery c0 c3 writable => Sys2Proof.Machine.execSeedbankRecovery c0 c3 writable s
  | .lpddrTraining res => Sys2Proof.Machine.execLpddrTraining res s
  | .imageDigestCheck => Sys2Proof.Machine.execImageDigestCheck s
  | .microcodeLoad => Sys2Proof.Machine.execMicrocodeLoad s
  | .bootSurvey fails => Sys2Proof.Machine.execBootSurvey fails s
  | .linkTraining => Sys2Proof.Machine.execLinkTraining s
  | .readyStage => Sys2Proof.Machine.execReadyStage s
  | .hostLinkL0 port => Sys2Proof.Machine.execHostLinkL0 port s
  | .resetReqCold who => Sys2Proof.Machine.execResetReqCold who s
  | .resetReqWarm who => Sys2Proof.Machine.execResetReqWarm who s
  | .perstFall port => Sys2Proof.Machine.execPerstFall port s
  | .pfFlr port => Sys2Proof.Machine.execPfFlr port s
  | .pcieHotReset port down => Sys2Proof.Machine.execPcieHotReset port down s
  | .vfFlr port vf => Sys2Proof.Machine.execVfFlr port vf s
  | .partReset who part => Sys2Proof.Machine.execPartReset who part s
  | .ctOpen who len => Sys2Proof.Machine.execCtOpen who len s
  | .ctData who chunk => Sys2Proof.Machine.execCtData who chunk s
  | .ctCommit who => Sys2Proof.Machine.execCtCommit who s
  | .patchSwitch kind unit => Sys2Proof.Machine.execPatchSwitch kind unit s
  | .readParam who h => Sys2Proof.Machine.execReadParam who h s
  | .writeParam who h val => Sys2Proof.Machine.execWriteParam who h val s
  | .guardParam who h val => Sys2Proof.Machine.execGuardParam who h val s
  | .nextParam who h => Sys2Proof.Machine.execNextParam who h s
  | .describeParam who h => Sys2Proof.Machine.execDescribeParam who h s
  | .txnOpen who => Sys2Proof.Machine.execTxnOpen who s
  | .txnCommit who txn => Sys2Proof.Machine.execTxnCommit who txn s
  | .txnAbort who txn => Sys2Proof.Machine.execTxnAbort who txn s
  | .txnTimeoutExpiry txn => Sys2Proof.Machine.execTxnTimeoutExpiry txn s
  | .txnNumberRelease txn => Sys2Proof.Machine.execTxnNumberRelease txn s
  | .restoreDefaults who => Sys2Proof.Machine.execRestoreDefaults who s
  | .mbGo unit user tag hdr op => Sys2Proof.Machine.execMbGo unit user tag hdr op s
  | .canReqFrame f => Sys2Proof.Machine.execCanReqFrame f s
  | .canSegFrame f => Sys2Proof.Machine.execCanSegFrame f s
  | .canAckFrame f => Sys2Proof.Machine.execCanAckFrame f s
  | .canAckTimeout bus peer xfer => Sys2Proof.Machine.execCanAckTimeout bus peer xfer s
  | .announce bitErrors => Sys2Proof.Machine.execAnnounce bitErrors s
  | .nodeFrame f => Sys2Proof.Machine.execNodeFrame f s
  | .heartbeat => Sys2Proof.Machine.execHeartbeat s
  | .fieldRateChange => Sys2Proof.Machine.execFieldRateChange s
  | .livenessBeacon => Sys2Proof.Machine.execLivenessBeacon s
  | .standbyTakeover cause => Sys2Proof.Machine.execStandbyTakeover cause s
  | .islandSelfTest pass => Sys2Proof.Machine.execIslandSelfTest pass s
  | .roleSwap who => Sys2Proof.Machine.execRoleSwap who s
  | .wardenRestart who wd => Sys2Proof.Machine.execWardenRestart who wd s
  | .wopen wd => Sys2Proof.Machine.execWopen wd s
  | .wclose wd => Sys2Proof.Machine.execWclose wd s
  | .wspill wd => Sys2Proof.Machine.execWspill wd s
  | .wfill wd => Sys2Proof.Machine.execWfill wd s
  | .texit wd => Sys2Proof.Machine.execTexit wd s
  | .trapSys wd => Sys2Proof.Machine.execTrapSys wd s
  | .rdctl wd ctl dst => Sys2Proof.Machine.execRdctl wd ctl dst s
  | .wrctl wd ctl src => Sys2Proof.Machine.execWrctl wd ctl src s
  | .eventTrap wd => Sys2Proof.Machine.execEventTrap wd s
  | .evEoi wd val => Sys2Proof.Machine.execEvEoi wd val s
  | .evMaskWrite wd word val => Sys2Proof.Machine.execEvMaskWrite wd word val s
  | .mioFuncSwitch sw => Sys2Proof.Machine.execMioFuncSwitch sw s
  | .fieldPinSwitchDeferred => Sys2Proof.Machine.execFieldPinSwitchDeferred s
  | .eventOccurrence src => Sys2Proof.Machine.execEventOccurrence src s
  | .msixDelivery port => Sys2Proof.Machine.execMsixDelivery port s
  | .coalesceTimeout src => Sys2Proof.Machine.execCoalesceTimeout src s
  | .holdoffExpiry g => Sys2Proof.Machine.execHoldoffExpiry g s
  | .holdoffCommit who g => Sys2Proof.Machine.execHoldoffCommit who g s
  | .groveEnableCommit who die mask => Sys2Proof.Machine.execGroveEnableCommit who die mask s
  | .groveLeave g => Sys2Proof.Machine.execGroveLeave g s
  | .grovePowerUpDone g => Sys2Proof.Machine.execGrovePowerUpDone g s
  | .groveZeroed g => Sys2Proof.Machine.execGroveZeroed g s
  | .idleDelayExpiry => Sys2Proof.Machine.execIdleDelayExpiry s
  | .powerStateReqIdle who => Sys2Proof.Machine.execPowerStateReqIdle who s
  | .powerStateReqDormant who => Sys2Proof.Machine.execPowerStateReqDormant who s
  | .powerStateReqWake who => Sys2Proof.Machine.execPowerStateReqWake who s
  | .sleepCommitPoint => Sys2Proof.Machine.execSleepCommitPoint s
  | .dormantEntry => Sys2Proof.Machine.execDormantEntry s
  | .workWake => Sys2Proof.Machine.execWorkWake s
  | .perstWake port => Sys2Proof.Machine.execPerstWake port s
  | .gpioWake pin rising => Sys2Proof.Machine.execGpioWake pin rising s
  | .wakeTimerExpiry => Sys2Proof.Machine.execWakeTimerExpiry s
  | .dormantExit => Sys2Proof.Machine.execDormantExit s
  | .sqTailDoorbell d => Sys2Proof.Machine.execSqTailDoorbell d s
  | .cqHeadDoorbell d => Sys2Proof.Machine.execCqHeadDoorbell d s
  | .commandFetch ring data => Sys2Proof.Machine.execCommandFetch ring data s
  | .stopRecordWrite ring => Sys2Proof.Machine.execStopRecordWrite ring s
  | .runAheadDecode ring => Sys2Proof.Machine.execRunAheadDecode ring s
  | .completionWrite ring seq => Sys2Proof.Machine.execCompletionWrite ring seq s
  | .ringEnable who part l => Sys2Proof.Machine.execRingEnable who part l s
  | .ringDisable who part l => Sys2Proof.Machine.execRingDisable who part l s
  | .htabResize who part size => Sys2Proof.Machine.execHtabResize who part size s
  | .nopCmd ring seq => Sys2Proof.Machine.execNopCmd ring seq s
  | .handleSet ring seq => Sys2Proof.Machine.execHandleSet ring seq s
  | .handleClear ring seq => Sys2Proof.Machine.execHandleClear ring seq s
  | .standOpen ring seq => Sys2Proof.Machine.execStandOpen ring seq s
  | .standStep ring seq => Sys2Proof.Machine.execStandStep ring seq s
  | .standPark ring seq => Sys2Proof.Machine.execStandPark ring seq s
  | .standClose ring seq => Sys2Proof.Machine.execStandClose ring seq s
  | .modelSwitch ring seq => Sys2Proof.Machine.execModelSwitch ring seq s
  | .modelLoadDone part slot src => Sys2Proof.Machine.execModelLoadDone part slot src s
  | .graphRun ring seq args => Sys2Proof.Machine.execGraphRun ring seq args s
  | .gather ring seq => Sys2Proof.Machine.execGather ring seq s
  | .rowUpdate ring seq src => Sys2Proof.Machine.execRowUpdate ring seq src s
  | .hotRefresh ring seq => Sys2Proof.Machine.execHotRefresh ring seq s
  | .copyCmd ring seq src => Sys2Proof.Machine.execCopyCmd ring seq src s
  | .remoteSubmit ring seq src => Sys2Proof.Machine.execRemoteSubmit ring seq src s
  | .remoteDoorbell ring seq => Sys2Proof.Machine.execRemoteDoorbell ring seq s
  | .opTimeoutExpiry dest oseq => Sys2Proof.Machine.execOpTimeoutExpiry dest oseq s
  | .stepBoundary part => Sys2Proof.Machine.execStepBoundary part s
  | .fillWaitExpiry part => Sys2Proof.Machine.execFillWaitExpiry part s
  | .shareWindow => Sys2Proof.Machine.execShareWindow s
  | .instanceAdmit => Sys2Proof.Machine.execInstanceAdmit s
  | .nodeFire ins node => Sys2Proof.Machine.execNodeFire ins node s
  | .refusalReevaluate ins q => Sys2Proof.Machine.execRefusalReevaluate ins q s
  | .taskDispatch die => Sys2Proof.Machine.execTaskDispatch die s
  | .tokenLand ins q => Sys2Proof.Machine.execTokenLand ins q s
  | .remoteOutputSend ins node => Sys2Proof.Machine.execRemoteOutputSend ins node s
  | .deadlock ins => Sys2Proof.Machine.execDeadlock ins s
  | .instanceComplete ins => Sys2Proof.Machine.execInstanceComplete ins s
  | .graphAbort who part l seq => Sys2Proof.Machine.execGraphAbort who part l seq s
  | .wordIssue core => Sys2Proof.Machine.execWordIssue core s
  | .waitStuck core => Sys2Proof.Machine.execWaitStuck core s
  | .jump core target => Sys2Proof.Machine.execJump core target s
  | .bz core target => Sys2Proof.Machine.execBz core target s
  | .bnz core target => Sys2Proof.Machine.execBnz core target s
  | .loopOp core target => Sys2Proof.Machine.execLoopOp core target s
  | .callOp core target => Sys2Proof.Machine.execCallOp core target s
  | .returnOp core => Sys2Proof.Machine.execReturnOp core s
  | .endTask core => Sys2Proof.Machine.execEndTask core s
  | .pjump core target => Sys2Proof.Machine.execPjump core target s
  | .add core sd sa sb => Sys2Proof.Machine.execAdd core sd sa sb s
  | .sub core sd sa sb => Sys2Proof.Machine.execSub core sd sa sb s
  | .andOp core sd sa sb => Sys2Proof.Machine.execAndOp core sd sa sb s
  | .orOp core sd sa sb => Sys2Proof.Machine.execOrOp core sd sa sb s
  | .xorOp core sd sa sb => Sys2Proof.Machine.execXorOp core sd sa sb s
  | .shl core sd sa sb => Sys2Proof.Machine.execShl core sd sa sb s
  | .shr core sd sa sb => Sys2Proof.Machine.execShr core sd sa sb s
  | .cmp core sa sb => Sys2Proof.Machine.execCmp core sa sb s
  | .li core sd imm => Sys2Proof.Machine.execLi core sd imm s
  | .seta core sd imm => Sys2Proof.Machine.execSeta core sd imm s
  | .adda core sd sa => Sys2Proof.Machine.execAdda core sd sa s
  | .setlc core imm => Sys2Proof.Machine.execSetlc core imm s
  | .setf core imm => Sys2Proof.Machine.execSetf core imm s
  | .clrf core imm => Sys2Proof.Machine.execClrf core imm s
  | .barrier core imm => Sys2Proof.Machine.execBarrier core imm s
  | .ld core m => Sys2Proof.Machine.execLd core m s
  | .st core m => Sys2Proof.Machine.execSt core m s
  | .dld core m => Sys2Proof.Machine.execDld core m s
  | .dst core m => Sys2Proof.Machine.execDst core m s
  | .mld core m mop x => Sys2Proof.Machine.execMld core m mop x s
  | .atom core m imm => Sys2Proof.Machine.execAtom core m imm s
  | .vadd core v => Sys2Proof.Machine.execVadd core v s
  | .vsub core v => Sys2Proof.Machine.execVsub core v s
  | .vmul core v => Sys2Proof.Machine.execVmul core v s
  | .vfma core v => Sys2Proof.Machine.execVfma core v s
  | .vmin core v => Sys2Proof.Machine.execVmin core v s
  | .vmax core v => Sys2Proof.Machine.execVmax core v s
  | .vand core v => Sys2Proof.Machine.execVand core v s
  | .vor core v => Sys2Proof.Machine.execVor core v s
  | .vxor core v => Sys2Proof.Machine.execVxor core v s
  | .vshl core v => Sys2Proof.Machine.execVshl core v s
  | .vshr core v => Sys2Proof.Machine.execVshr core v s
  | .vcmp core v => Sys2Proof.Machine.execVcmp core v s
  | .vcvt core v => Sys2Proof.Machine.execVcvt core v s
  | .vbcast core v => Sys2Proof.Machine.execVbcast core v s
  | .vmovs core v => Sys2Proof.Machine.execVmovs core v s
  | .vperm core v => Sys2Proof.Machine.execVperm core v s
  | .vcompress core v => Sys2Proof.Machine.execVcompress core v s
  | .vexpand core v => Sys2Proof.Machine.execVexpand core v s
  | .vcpop core v => Sys2Proof.Machine.execVcpop core v s
  | .vscan core v => Sys2Proof.Machine.execVscan core v s
  | .vsegscan core v => Sys2Proof.Machine.execVsegscan core v s
  | .vscanx core v => Sys2Proof.Machine.execVscanx core v s
  | .vreduce core v => Sys2Proof.Machine.execVreduce core v s
  | .vkop core v => Sys2Proof.Machine.execVkop core v s
  | .vkmov core v => Sys2Proof.Machine.execVkmov core v s
  | .vmovk core v => Sys2Proof.Machine.execVmovk core v s
  | .panel core x m => Sys2Proof.Machine.execPanel core x m s
  | .mma core x m => Sys2Proof.Machine.execMma core x m s
  | .drain core x => Sys2Proof.Machine.execDrain core x s
  | .zeroBlock core x => Sys2Proof.Machine.execZeroBlock core x s
  | .rerunTrigger ins node => Sys2Proof.Machine.execRerunTrigger ins node s
  | .checkResult ins node task => Sys2Proof.Machine.execCheckResult ins node task s
  | .shadowRelease ins node task => Sys2Proof.Machine.execShadowRelease ins node task s
  | .shadowUndo ins node => Sys2Proof.Machine.execShadowUndo ins node s
  | .checkerSelfTest g pass => Sys2Proof.Machine.execCheckerSelfTest g pass s
  | .ticketResolve ticket => Sys2Proof.Machine.execTicketResolve ticket s
  | .thicketTask ins node task => Sys2Proof.Machine.execThicketTask ins node task s
  | .idxld eng t => Sys2Proof.Machine.execIdxld eng t s
  | .rowrd eng t => Sys2Proof.Machine.execRowrd eng t s
  | .hotlk eng t => Sys2Proof.Machine.execHotlk eng t s
  | .pfrd eng t => Sys2Proof.Machine.execPfrd eng t s
  | .outwr eng t => Sys2Proof.Machine.execOutwr eng t s
  | .stwr eng t => Sys2Proof.Machine.execStwr eng t s
  | .rowRead part slot base row refresh => Sys2Proof.Machine.execRowRead part slot base row refresh s
  | .prefetchFill stand => Sys2Proof.Machine.execPrefetchFill stand s
  | .tableValidClear who part slot => Sys2Proof.Machine.execTableValidClear who part slot s
  | .stagingAllocate at_ => Sys2Proof.Machine.execStagingAllocate at_ s
  | .rowCommit ring seq => Sys2Proof.Machine.execRowCommit ring seq s
  | .epochAdvance die => Sys2Proof.Machine.execEpochAdvance die s
  | .writeBackStart ent => Sys2Proof.Machine.execWriteBackStart ent s
  | .writeBackDone ent => Sys2Proof.Machine.execWriteBackDone ent s
  | .entryRelease ent => Sys2Proof.Machine.execEntryRelease ent s
  | .rdS g line => Sys2Proof.Machine.execRdS g line s
  | .rdX g line => Sys2Proof.Machine.execRdX g line s
  | .upg g line => Sys2Proof.Machine.execUpg g line s
  | .evictD g line => Sys2Proof.Machine.execEvictD g line s
  | .evictC g line => Sys2Proof.Machine.execEvictC g line s
  | .snpSh g line => Sys2Proof.Machine.execSnpSh g line s
  | .snpInv g line => Sys2Proof.Machine.execSnpInv g line s
  | .evicting g line => Sys2Proof.Machine.execEvicting g line s
  | .evictAck g line => Sys2Proof.Machine.execEvictAck g line s
  | .rspD g line => Sys2Proof.Machine.execRspD g line s
  | .rspS g line => Sys2Proof.Machine.execRspS g line s
  | .rspI g line => Sys2Proof.Machine.execRspI g line s
  | .dataE g line => Sys2Proof.Machine.execDataE g line s
  | .dataS g line => Sys2Proof.Machine.execDataS g line s
  | .dataX g line => Sys2Proof.Machine.execDataX g line s
  | .upgAck g line => Sys2Proof.Machine.execUpgAck g line s
  | .add32 a => Sys2Proof.Machine.execAdd32 a s
  | .add64 a => Sys2Proof.Machine.execAdd64 a s
  | .fadd32 a => Sys2Proof.Machine.execFadd32 a s
  | .min32 a => Sys2Proof.Machine.execMin32 a s
  | .max32 a => Sys2Proof.Machine.execMax32 a s
  | .umin32 a => Sys2Proof.Machine.execUmin32 a s
  | .umax32 a => Sys2Proof.Machine.execUmax32 a s
  | .min64 a => Sys2Proof.Machine.execMin64 a s
  | .max64 a => Sys2Proof.Machine.execMax64 a s
  | .and64 a => Sys2Proof.Machine.execAnd64 a s
  | .or64 a => Sys2Proof.Machine.execOr64 a s
  | .xor64 a => Sys2Proof.Machine.execXor64 a s
  | .swap32 a => Sys2Proof.Machine.execSwap32 a s
  | .swap64 a => Sys2Proof.Machine.execSwap64 a s
  | .cas32 a => Sys2Proof.Machine.execCas32 a s
  | .cas64 a => Sys2Proof.Machine.execCas64 a s
  | .fmin32 a => Sys2Proof.Machine.execFmin32 a s
  | .fmax32 a => Sys2Proof.Machine.execFmax32 a s
  | .raddF32 a => Sys2Proof.Machine.execRaddF32 a s
  | .raddBf16 a => Sys2Proof.Machine.execRaddBf16 a s
  | .rmaxF32 a => Sys2Proof.Machine.execRmaxF32 a s
  | .rminF32 a => Sys2Proof.Machine.execRminF32 a s
  | .raddI32 a => Sys2Proof.Machine.execRaddI32 a s
  | .rmaxBf16 a => Sys2Proof.Machine.execRmaxBf16 a s
  | .canopyTask ins node => Sys2Proof.Machine.execCanopyTask ins node s
  | .bar2Access port fn off acc => Sys2Proof.Machine.execBar2Access port fn off acc s
  | .deselect port m => Sys2Proof.Machine.execDeselect port m s
  | .act port m => Sys2Proof.Machine.execAct port m s
  | .rd32 port m ecc => Sys2Proof.Machine.execRd32 port m ecc s
  | .wr32 port m data => Sys2Proof.Machine.execWr32 port m data s
  | .mwr32 port m data mask => Sys2Proof.Machine.execMwr32 port m data mask s
  | .pre port m => Sys2Proof.Machine.execPre port m s
  | .prea port m => Sys2Proof.Machine.execPrea port m s
  | .refpb port m => Sys2Proof.Machine.execRefpb port m s
  | .refab port m => Sys2Proof.Machine.execRefab port m s
  | .rfm port m => Sys2Proof.Machine.execRfm port m s
  | .mrw port m => Sys2Proof.Machine.execMrw port m s
  | .mrr port m => Sys2Proof.Machine.execMrr port m s
  | .sre port m => Sys2Proof.Machine.execSre port m s
  | .srx port m => Sys2Proof.Machine.execSrx port m s
  | .pde port m => Sys2Proof.Machine.execPde port m s
  | .pdx port m => Sys2Proof.Machine.execPdx port m s
  | .casWs port m => Sys2Proof.Machine.execCasWs port m s
  | .zqLatch port m => Sys2Proof.Machine.execZqLatch port m s
  | .rdc port m => Sys2Proof.Machine.execRdc port m s
  | .wff port m data => Sys2Proof.Machine.execWff port m data s
  | .rff port m => Sys2Proof.Machine.execRff port m s
  | .mpc port m => Sys2Proof.Machine.execMpc port m s
  | .refreshRateRead port report rfmAt => Sys2Proof.Machine.execRefreshRateRead port report rfmAt s
  | .oscillatorCheck port ch driftPct retuneOk => Sys2Proof.Machine.execOscillatorCheck port ch driftPct retuneOk s
  | .patrolScrub port line ecc => Sys2Proof.Machine.execPatrolScrub port line ecc s
  | .sliceEccError die bank at_ ue => Sys2Proof.Machine.execSliceEccError die bank at_ ue s
  | .reservedUe die bank at_ => Sys2Proof.Machine.execReservedUe die bank at_ s
  | .dirEpochFlip die => Sys2Proof.Machine.execDirEpochFlip die s
  | .portTrain p res => Sys2Proof.Machine.execPortTrain p res s
  | .flitReceive p f cw => Sys2Proof.Machine.execFlitReceive p f cw s
  | .replay p => Sys2Proof.Machine.execReplay p s
  | .linkLost p => Sys2Proof.Machine.execLinkLost p s
  | .flitForward p => Sys2Proof.Machine.execFlitForward p s
  | .transitTimeout p => Sys2Proof.Machine.execTransitTimeout p s
  | .opAssemblyTimeout src oseq => Sys2Proof.Machine.execOpAssemblyTimeout src oseq s
  | .hello rx => Sys2Proof.Machine.execHello rx s
  | .beacon rx => Sys2Proof.Machine.execBeacon rx s
  | .managerTimeout => Sys2Proof.Machine.execManagerTimeout s
  | .routeFlip who ep => Sys2Proof.Machine.execRouteFlip who ep s
  | .frGo who => Sys2Proof.Machine.execFrGo who s
  | .submit m => Sys2Proof.Machine.execSubmit m s
  | .doorbell m => Sys2Proof.Machine.execDoorbell m s
  | .tokenOp m => Sys2Proof.Machine.execTokenOp m s
  | .fabWrite m => Sys2Proof.Machine.execFabWrite m s
  | .fabRead m => Sys2Proof.Machine.execFabRead m s
  | .atomic m => Sys2Proof.Machine.execAtomic m s
  | .mgmt m => Sys2Proof.Machine.execMgmt m s
  | .confirm m => Sys2Proof.Machine.execConfirm m s
  | .retract m => Sys2Proof.Machine.execRetract m s
  | .resendReq m => Sys2Proof.Machine.execResendReq m s
  | .timeOp p t residency hops => Sys2Proof.Machine.execTimeOp p t residency hops s
  | .timeSend => Sys2Proof.Machine.execTimeSend s
  | .routeNotice m => Sys2Proof.Machine.execRouteNotice m s
  | .probe m => Sys2Proof.Machine.execProbe m s
  | .answer m => Sys2Proof.Machine.execAnswer m s
  | .tokenRetry dest oseq => Sys2Proof.Machine.execTokenRetry dest oseq s
  | .provWindowExpiry src ticket => Sys2Proof.Machine.execProvWindowExpiry src ticket s
  | .copyTask ins node => Sys2Proof.Machine.execCopyTask ins node s
  | .partMemChange who part mem => Sys2Proof.Machine.execPartMemChange who part mem s
  | .hardFault unit cause => Sys2Proof.Machine.execHardFault unit cause s
  | .clearDone unit => Sys2Proof.Machine.execClearDone unit s
  | .regrowDone unit pass entry => Sys2Proof.Machine.execRegrowDone unit pass entry s
  | .unitFenceCmd who => Sys2Proof.Machine.execUnitFenceCmd who s
  | .unitReturnCmd who => Sys2Proof.Machine.execUnitReturnCmd who s
  | .unitUnretireCmd who => Sys2Proof.Machine.execUnitUnretireCmd who s
  | .unitClearStrikesCmd who => Sys2Proof.Machine.execUnitClearStrikesCmd who s
  | .surveyRound => Sys2Proof.Machine.execSurveyRound s
  | .surveyNow who => Sys2Proof.Machine.execSurveyNow who s
  | .secondBoundary => Sys2Proof.Machine.execSecondBoundary s
  | .batchSeal cls => Sys2Proof.Machine.execBatchSeal cls s
  | .ppsEdge => Sys2Proof.Machine.execPpsEdge s
  | .timeSourceLost => Sys2Proof.Machine.execTimeSourceLost s
  | .timeSet who secs => Sys2Proof.Machine.execTimeSet who secs s
  | .counterWrap c => Sys2Proof.Machine.execCounterWrap c s
  | .gctrClear who part sel => Sys2Proof.Machine.execGctrClear who part sel s
  | .dieCtrClear who dies => Sys2Proof.Machine.execDieCtrClear who dies s
  | .tracksIntervalEnd g => Sys2Proof.Machine.execTracksIntervalEnd g s
  | .tracksSampleWrite g => Sys2Proof.Machine.execTracksSampleWrite g s
  | .tracksResume who dies => Sys2Proof.Machine.execTracksResume who dies s
  | .fieldBusStateChange bus st => Sys2Proof.Machine.execFieldBusStateChange bus st s
  | .perstRise port => Sys2Proof.Machine.execPerstRise port s
  | .configSpaceWrite port fn op => Sys2Proof.Machine.execConfigSpaceWrite port fn op s
  | .rowReadComplete rd => Sys2Proof.Machine.execRowReadComplete rd s
  | .wardenLoad wd addr size dst => Sys2Proof.Machine.execWardenLoad wd addr size dst s
  | .wardenStore wd addr size src => Sys2Proof.Machine.execWardenStore wd addr size src s

end Sys2Proof.Machine
end

