-- ==== Sys2Proof/Machine/Idle.lean ====
section
/-!
DEFINITION. What one management cycle does of itself: the step of an empty queue (R67, R76, R175, R248, R328, Table 6-1).
-/
namespace Sys2Proof.Machine

/-- The oldest frame queued for a field bus that is not off goes out, with ESI set where the bus is error-passive (R54). -/
def sendFrame (s : State) : State :=
  match s.fieldBus.out.findIdx? (fun f => decide (lget 0 s.fieldBus.busState f.bus ≠ 2)) with
  | none => s
  | some k => match s.fieldBus.out[k]? with
    | none => s
    | some f => { s with fieldBus.out := s.fieldBus.out.eraseIdx k,
                         fieldBus.sent := { f with esi := decide (lget 0 s.fieldBus.busState f.bus = 1) } :: s.fieldBus.sent }

/-- Time by one management cycle of 5 ns; device time runs while the block is powered up. -/
def tickTime (s : State) : State :=
  let s1 := { s with time.clock := s.time.clock + 5 }
  if s.pins.pwrok then advanceTime s1 (s.time.dev + 5) false else s1

/-- What happens to the LPDDR cells of itself in a cycle, which is open: a line's error is corrected at its next read, or no longer
can be (R248). -/
def tickArray (s : State) : State :=
  match Config.upset s.time.clock with
  | some (line, ue) =>
    if 64 * line < usable s then
      { s with mem.latent := sput s.mem.latent line (if ue || (sfind s.mem.latent line).isSome then Ecc.uncorrectable else Ecc.corrected) }
    else s
  | none => s

/-- The running paced programs go on by one word each, engines before ports (R175). -/
def tickPaced (s : State) : State :=
  let s1 := (s.thk.engines.filter (fun q => q.2.seq.running)).foldl (fun s q => thkStep s q.1) s
  (s1.ports.filter (fun q => q.2.seq.running)).foldl (fun s q => memStep s q.1) s1

/-- One management cycle: time, the pin switches, one frame, the oldest buffered store of each Warden, the LPDDR cells and the paced
programs. -/
def tick (s : State) : State := tickPaced (tickArray (drainStore (drainStore (sendFrame (tickPins (tickTime s))) 0) 1))

end Sys2Proof.Machine
end

