-- ==== Sys2Proof/Safety.lean ====
section
/-! DEFINITION. What counts as a safe run: every command completes, and memory keeps its canonical form. -/
namespace Sys2Proof.Safety

open Sys2Proof.Machine

/-- An outcome in which the block goes on. -/
def completes (o : Host.Outcome State Fault Refusal) : Prop := ∃ t, o = .next t

/-- The contents of memory are in their one canonical form. -/
def memoryCanonical (s : State) : Prop := Memory.wf s.mem.bytes = true

/-- A run of `n` steps from a state is safe. -/
def safeRun (n : Nat) (s : State) : Prop := ∃ t, Sys2Proof.core.run n s = .next t

end Sys2Proof.Safety
end

