-- ==== Sys2Proof/Certificates/Slice0/Obligations.lean ====
section
/-!
DEFINITION. The statements for the provers. Each says what commands of the table do: what the next state holds, and that everything the
statement does not name is as it was. `Answers c s P` is: `exec c s` answers a next state, and `P` holds of it.
-/
namespace Sys2Proof.Claims
open Sys2Proof.Machine

/-- The command answers a next state, of which `P` holds. -/
def Answers (c : Instr) (s : State) (P : State → Prop) : Prop := ∃ t, Sys2Proof.Machine.exec c s = .next t ∧ P t

/-- Source `n` occurs between `s` and `t`: with its ENABLE set it is PENDING afterwards (R83). -/
def Occurs (s t : State) (n : Nat) : Prop := bitOf (evConfig s n) 1 = true → t.ev.pending.getLsbD n = true

end Sys2Proof.Claims

open Sys2Proof Sys2Proof.Machine Sys2Proof.Claims

/-! ## The machine -/

/-- A step of the block with the command `c` at the front of its queue is `exec c` on the block with the queue's rest. -/
def Obligations.StepRunsTheFrontCommand : Prop :=
  ∀ (c : Instr) (rest : List Instr) (s : State), s.pending = c :: rest → step s = exec c { s with pending := rest }

/-- With no command waiting a step is one management cycle (DESIGN CHOICE, log entry 2). While no Warden has a buffered store and no paced program
runs, 5 ns pass, device time runs while PWROK is high, and registers, tables and memories that no cycle drives are as they were, the bytes of memory
with them: only the outcome of a later check of an LPDDR line may change. -/
def Obligations.IdleStepIsOneManagementCycle : Prop :=
  ∀ s : State, s.pending = [] → ∃ t, step s = .next t ∧ t.pending = [] ∧ t.fuses = s.fuses ∧
    ((∀ w < 2, (wardenAt s w).stores = []) → (∀ q ∈ s.thk.engines, q.2.seq.running = false) → (∀ q ∈ s.ports, q.2.seq.running = false) →
      t.time.clock = s.time.clock + 5 ∧ (s.pins.pwrok = true → t.time.dev = s.time.dev + 5) ∧ (s.pins.pwrok = false → t.time.dev = s.time.dev) ∧
      t.pins = s.pins ∧ t.boot = s.boot ∧ t.power = s.power ∧ t.mem = { s.mem with latent := t.mem.latent } ∧ t.root = s.root ∧ t.gr = s.gr ∧
      t.thk = s.thk ∧ t.ports = s.ports ∧ t.trail = s.trail ∧ t.stands = s.stands ∧ t.canopy = s.canopy)

/-- Every command has a meaning in every state: `exec` always answers a next state, and it leaves the queue and the fuses as they were. -/
def Obligations.EveryCommandAnswersAndKeepsQueueAndFuses : Prop :=
  ∀ (c : Instr) (s : State), ∃ t, exec c s = .next t ∧ t.pending = s.pending ∧ t.fuses = s.fuses

/-- What reset leaves, as the spec gives it: no stage of start-up reached, PWROK low, no transaction, no ring, no handle VALID, no stand
in use, no event pending or in service, no instance, every fabric port OFF, all of MIO0–MIO39 at function 3 (off), MIN_SVN 0, no command waiting,
and device time 0. -/
def Sys2Proof.Claims.ResetLeavesTheBlockIdle : Prop :=
  State.reset.boot.stage = 0 ∧ State.reset.pins.pwrok = false ∧ State.reset.dir.txns = [] ∧ State.reset.dir.params = [] ∧
  State.reset.trail.rings = [] ∧ State.reset.trail.handles = [] ∧ State.reset.stands.stands = [] ∧ State.reset.ev.pending = 0 ∧
  State.reset.ev.inService = 0 ∧ State.reset.root.insts = [] ∧ (∀ p, (sget {} State.reset.fab.ports p).state = 0) ∧
  State.reset.und.mioFunc = List.replicate 40 3 ∧ State.reset.seed.minSvn = [0, 0, 0, 0] ∧ State.reset.pending = [] ∧ State.reset.time.dev = 0

/-- The bytes of memory are in canonical form at reset. -/
def Sys2Proof.Claims.MemoryIsCanonicalAtReset : Prop := Memory.wf State.reset.mem.bytes = true

/-- Every step keeps the bytes of memory in their canonical form: addresses strictly rising, no entry equal to what an unlisted byte reads as. -/
def Obligations.EveryStepKeepsMemoryCanonical : Prop :=
  ∀ s t : State, Memory.wf s.mem.bytes = true → step s = .next t → Memory.wf t.mem.bytes = true

/-- Nothing a principal, a container or a reset does lowers MIN_SVN: after every step each of the four counters is at least what it was (R116). -/
def Obligations.MinSvnNeverFalls : Prop :=
  ∀ (s t : State) (k : Nat), step s = .next t → lget 0 s.seed.minSvn k ≤ lget 0 t.seed.minSvn k

/-! ## Power (chapters 2 and 6) -/

/-- Power-on and the pins (R20, R21, R27, R106). A rising PWROK samples the straps, completes stage 1 and counts a cold start; the power-on
circuit drives MAINPWR_EN while PWROK is low; a fall of PWROK holds the part in reset, and the rails that DORMANT removed are required again; a loss of power clears all but Seedbank. Seedbank and the
fuses are kept by each. -/
def Sys2Proof.Claims.PowerOnSamplesTheStraps : Prop := ∀ s : State,
  (∀ straps, s.pins.pwrok = false → Answers (.pwrokRise straps) s fun t =>
    t.boot.stage = 1 ∧ t.boot.cause = 0 ∧ t.pins.pwrok = true ∧ t.pins.straps = straps ∧ t.pins.mainpwrEn = some true ∧
    t.seed = { s.seed with coldStarts := s.seed.coldStarts + 1, incarnation := t.seed.incarnation } ∧ t.seed.incarnation ≠ 0 ∧
    t.time.dev = 0 ∧ t.dir.params = [] ∧ t.trail.rings = [] ∧ t.root.insts = [] ∧ t.fuses = s.fuses) ∧
  (s.pins.pwrok = false → exec .mainpwrEnPowerOn s = .next { s with pins.mainpwrEn := some true }) ∧
  (s.pins.pwrok = true → Answers .pwrokFall s fun t =>
    t.pins = { s.pins with pwrok := false, mainpwrEn := t.pins.mainpwrEn } ∧
    t.pins.mainpwrEn = (if s.pins.mainpwrEn = some false ∧ s.pins.tripped = false then some true else s.pins.mainpwrEn) ∧ t.boot.stage = 0 ∧ t.seed = s.seed ∧ t.fuses = s.fuses ∧ t.trail.rings = [] ∧ t.dir.params = []) ∧
  Answers .powerLoss s fun t =>
    t.pins = {} ∧ t.boot.stage = 0 ∧ t.seed = s.seed ∧ t.fuses = s.fuses ∧ t.trail.rings = [] ∧ t.dir.params = []

namespace Sys2Proof.Claims

/-- `t` is `s` after a cold reset with a cause (R119, Table 7-4): start-up begins after stage 1, one more cold start is counted, the rest of
Seedbank is `kept`, the straps are as sampled, and everything volatile is at its reset value; open transactions are remembered as lost. -/
def ColdStarted (s t : State) (cause : Nat) (kept : Seedbank) : Prop :=
  t.boot.stage = 1 ∧ t.boot.cause = cause ∧ t.boot.kind = .cold ∧ t.pins.straps = s.pins.straps ∧ t.pins.pwrok = s.pins.pwrok ∧
  t.seed = { kept with coldStarts := s.seed.coldStarts + 1, incarnation := t.seed.incarnation } ∧ t.seed.incarnation ≠ 0 ∧
  t.dir = { lost := s.dir.txns.map (·.owner) ++ s.dir.lost } ∧ t.trail = {} ∧ t.stands = {} ∧ t.root = {} ∧ t.thk = {} ∧ t.rows = {} ∧
  t.mem = {} ∧ t.ports = [] ∧ t.fab = {} ∧ t.power = {} ∧ t.und = {} ∧ t.ev.pending = 0 ∧ t.time.dev = 0 ∧ t.fuses = s.fuses

/-- The record that Seedbank's log takes next. -/
def nextRecord (s : State) (type unit fromS toS detail : Nat) : HistRec :=
  ⟨type, unit, s.seed.coldStarts % 65536, fromS, toS, s.time.dev, s.seed.histNext, detail⟩

/-- Seedbank with one record more at the head of its log, which holds 8,192 (R317). -/
def withRecord (s : State) (type unit fromS toS detail : Nat) : Seedbank :=
  { s.seed with hist := (nextRecord s type unit fromS toS detail :: s.seed.hist).take 8192, histNext := s.seed.histNext + 1 }

end Sys2Proof.Claims

/-- The hardware triggers of a cold reset, while PWROK is high (R18, R23, R90, R119): each restarts the part with its RESET_CAUSE; a rail fault
and a loss of PLL lock are recorded first, with the rail and the die; a loss of REFCLK is recorded after the restart. -/
def Sys2Proof.Claims.HardwareFaultsResetTheDeviceCold : Prop := ∀ s : State, s.pins.pwrok = true →
  (Answers .coldrstNAssert s fun t => ColdStarted s t 1 s.seed) ∧
  (∀ rail, Answers (.railFault rail) s fun t => ColdStarted s t 6 (withRecord s 0x0020 0 0xFF 0xFF rail)) ∧
  (∀ die, Answers (.pllUnlock die) s fun t => ColdStarted s t 5 (withRecord s 0x0022 0 0xFF 0xFF die)) ∧
  Answers .refclkLoss s fun t => ColdStarted s t 4 s.seed ∧ t.boot.refclkLossPending = true

/-- A sensor at 118 °C (R28, R30, R21): THERMTRIP_N and MAINPWR_EN go low, the die and sensor are recorded, TJ_MAX of the die reports at least
118 °C, and every clock but the islands' stops: groves, Canopy, links, rings and stands lose what they hold, and LPDDR its contents. The directory,
the islands, the field buses, Lookout and device time are as they were. -/
def Sys2Proof.Claims.ThermalTripStopsTheClocks : Prop := ∀ (s : State) (die : Fin 6) (sensor : Fin 12), s.pins.pwrok = true →
  Answers (.thermtrip die sensor) s fun t =>
    t.pins = { s.pins with thermtripLow := true, mainpwrEn := some false, tripped := true } ∧
    t.seed = withRecord s 0x0023 0 0xFF 0xFF (die + (sensor.val <<< 8)) ∧
    t.power.tj = lset s.power.tj die (if (lget 0 s.power.tj die).toInt < 1888 then 1888 else lget 0 s.power.tj die) ∧
    (∀ n, n ≠ 542 → n ≠ 543 → domainGated t n = true) ∧
    t.boot.stage = 0 ∧ t.boot.hostL0 = [false, false] ∧ t.root.insts = [] ∧ t.gr.cores = [] ∧ t.canopy.lines = [] ∧ t.mem.bytes = [] ∧
    t.trail = {} ∧ t.stands = {} ∧ t.dir = s.dir ∧ t.fieldBus = s.fieldBus ∧ t.und = s.und ∧ t.look = s.look ∧ t.time = s.time ∧ t.pcie = s.pcie ∧
    t.fb = s.fb ∧ t.fuses = s.fuses

/-- THERMAL_STEP (R101): it rises by one up to 5 when the hottest sensor exceeds TJ_THROTTLE, and falls by one when that sensor is below
TJ_THROTTLE − 3 °C; THERMAL_LIMITING is set while it is above 0. Only the step, the flag, the reading and the event of the rise change. -/
def Sys2Proof.Claims.ThermalStepFollowsTheHottestSensor : Prop := ∀ (s : State) (die : Fin 6) (tj : BitVec 16),
  let read := { s with power.tj := lset s.power.tj die tj }
  (throttle s < hottest read → s.power.thermStep < 5 → Answers (.thermalStepRaise die tj) s fun t =>
    t = { s with power := { read.power with thermStep := s.power.thermStep + 1, thermLimiting := true }, ev := t.ev } ∧
    (s.power.thermLimiting = false → Occurs s t 0x003)) ∧
  (hottest read < throttle s - 48 → 0 < s.power.thermStep → Answers (.thermalStepLower die tj) s fun t =>
    t.power = { read.power with thermStep := s.power.thermStep - 1, thermLimiting := decide (1 < s.power.thermStep) } ∧
    t = { s with power := t.power, ev := t.ev } ∧ (s.power.thermLimiting = true → t.ev = s.ev))

/-- The power cap (R99, R100): each sample enters the average of the last 100; CAP_STEP rises by one up to 5 while the average exceeds POWER_CAP,
and with every grove and every Thicket pair at its slowest CAP_UNATTAINABLE is set; CAP_STEP falls by one below 97 % of the cap; a sample above
1,020 W raises it at once. -/
def Sys2Proof.Claims.CapStepHoldsTheAverageAtTheCap : Prop := ∀ s : State,
  (dparam s 0x1220 1 < s.power.powerNow → s.power.capStep < 5 → Answers .capStepRaise s fun t =>
    t = { s with power := { s.power with capStep := s.power.capStep + 1, capLimiting := true,
                                         capUnattainable := s.power.capUnattainable || atSlowest s }, ev := t.ev } ∧
    (s.power.capLimiting = false → Occurs s t 0x004)) ∧
  (dparam s 0x1220 1 < s.power.powerNow → 5 ≤ s.power.capStep →
    exec .capStepRaise s = .next { s with power := { s.power with capUnattainable := s.power.capUnattainable || atSlowest s } }) ∧
  (100 * s.power.powerNow < 97 * dparam s 0x1220 1 → 0 < s.power.capStep → Answers .capStepLower s fun t =>
    t.power = { s.power with capStep := s.power.capStep - 1, capLimiting := decide (1 < s.power.capStep) } ∧
    t = { s with power := t.power, ev := t.ev } ∧ (s.power.capLimiting = true → t.ev = s.ev)) ∧
  ∀ watts, Answers (.powerSample watts) s fun t =>
    t = { s with power := t.power, ev := t.ev } ∧ t.power.samples = (watts :: s.power.samples).take 100 ∧
    t.power.powerNow * t.power.samples.length ≤ t.power.samples.sum ∧
    t.power.samples.sum < (t.power.powerNow + 1) * t.power.samples.length ∧
    (t.power.powerNow < dparam s 0x1220 1 → t.power.capUnattainable = false) ∧
    (dparam s 0x1220 1 < t.power.powerNow → atSlowest s = true → t.power.capUnattainable = true) ∧
    t.power.capStep = if 1020 < watts ∧ s.power.capStep < 5 then s.power.capStep + 1 else s.power.capStep

/-- Autogating (R95): a grove or Thicket-pair domain with AUTOGATE = 1 stops its clock, and work restarts it; nothing else changes, and the
domains named by neither command stay as they were. -/
def Sys2Proof.Claims.AutogateStopsAndWakesOneDomain : Prop := ∀ (s : State) (d : Fin 544),
  ((isGroveDomain d || isPairDomain d) = true → bitOf (domainCtl s d) 3 = true → Answers (.autogateStop d) s fun t =>
    t = { s with power.autogated := t.power.autogated } ∧ domainGated t d = true ∧
    ∀ e : Nat, e ≠ d → (e ∈ t.power.autogated ↔ e ∈ s.power.autogated)) ∧
  Answers (.autogateWake d) s fun t =>
    t = { s with power.autogated := t.power.autogated } ∧ d.val ∉ t.power.autogated ∧
    ∀ e : Nat, e ≠ d → (e ∈ t.power.autogated ↔ e ∈ s.power.autogated)

/-! ## Start-up and resets (chapter 7) -/

/-- A container that verification accepts has passed every check of R115: its layout, the digest of each section, the signature of the Skozin key
over it and, where an operator key is set, of the operator key; and its SVN is not below MIN_SVN of its KIND. What it hands on is the container. -/
def Sys2Proof.Claims.AcceptedContainersAreSignedAndNotRolledBack : Prop := ∀ (s : State) (b : List Byte) (c : Container),
  verifyContainer s b = .ok c →
    formatOk b = true ∧ c.bytes = b ∧ c.kind = ctKind b ∧ c.svn = ctSvn b ∧ lget 0 s.seed.minSvn (c.kind - 1) ≤ c.svn ∧
    (∀ k, k < ctCount b → sha384 (bytesAt b (ctSection b k).2.1 (ctSection b k).2.2) = beNat (bytesAt b (128 + 64 * k + 16) 48)) ∧
    (∃ r, recordOf b 1 = some r ∧ recordOk b r s.fuses.rootKeyHash.toNat = true) ∧
    (s.seed.operatorKeyHash ≠ 0 → ∃ r, recordOf b 2 = some r ∧ recordOk b r s.seed.operatorKeyHash.toNat = true)

/-- Stages 2 to 5 (R64, R106, R111, R112, R115): the self-test chooses the primary island, the container of the first slot not tried is read, an
accepted BOOT container becomes the image and another slot is tried otherwise, Seedbank recovery discards the journal entries that fail their check
and restores at a cold start the parameters that the others hold, with both copies lost none, and the device waits for a BOOT container where both
slots failed. A DORMANT exit goes from stage 4 to stage 6. Each leaves what it does not name. -/
def Sys2Proof.Claims.StartUpReachesStageFive : Prop := ∀ s : State,
  (∀ a b u v : Bool, s.boot.stage = 1 → (a || b) = true → Answers (.romBoot ⟨a, u⟩ ⟨b, v⟩) s fun t =>
    t.boot.stage = 2 ∧ t.und.primary = (if a then 0 else 3) ∧ t.und.standbyOk = (a && b) ∧ t.seed.copyOk = [a, b] ∧
    t.boot.debugUnlocked = (s.boot.debugUnlocked || u || v) ∧
    t.boot.refclkLossPending = false ∧ t = { s with boot := t.boot, und := t.und, seed := t.seed, ev := t.ev }) ∧
  (∀ image k, norDue s = true → nextSlot s = some k → exec (.spiNorRead image) s =
    .next { s with boot := { s.boot with candidate := some (image.getD []), bootedSlot := k, stage := Nat.max 3 s.boot.stage } }) ∧
  (∀ b c, s.boot.candidate = some b → verifyContainer s b = .ok c → c.kind = 1 → Answers .containerVerification s fun t =>
    t.boot.candidate = none ∧ t.boot.image = some c ∧ t.boot.stage = Nat.max (if s.boot.kind = .dormantLost then 5 else 4) s.boot.stage ∧
    t = { s with boot := t.boot, seed := t.seed } ∧ (s.boot.stage < 6 → t.seed = s.seed)) ∧
  (∀ b e, s.boot.candidate = some b → verifyContainer s b = .error e → Answers .containerVerification s fun t =>
    t.boot.candidate = none ∧ t.boot.image = s.boot.image ∧ t.boot.slotsTried = s.boot.bootedSlot :: s.boot.slotsTried ∧
    t = { s with boot := t.boot, seed := t.seed, ev := t.ev }) ∧
  (∀ a b w j k bad, s.boot.stage = 4 → s.boot.image.isSome = true → ((a || b) = true → ∀ n, n ∈ bad ↔ (a = true → n ∈ j) ∧ (b = true → n ∈ k)) →
    Answers (.seedbankRecovery ⟨a, j⟩ ⟨b, k⟩ w) s fun t =>
    t.boot.stage = 5 ∧ t.boot.seedDone = true ∧ t.seed.writable = w ∧ t.seed.journal = (if a || b then intact s.seed.journal bad else []) ∧
    t.mem = s.mem ∧ t.trail = s.trail ∧ t.dir.params = (if s.boot.kind = .cold then recovered t.seed.journal else s.dir.params) ∧
    ((a || b) = false → s.boot.error = 0 → t.boot.error = 2)) ∧
  (s.boot.image = none → (s.boot.stage = 5 ∧ recoveryBoot s = true ∧ contentsKept s = false ∨
      s.boot.stage = 6 ∧ s.boot.recovery = true ∧ s.boot.digestPending = false) →
    exec .recoveryBoot s = .next { s with boot := { s.boot with recovery := true, bootedSlot := 2 } })

/-- Stages 6 to 10 (R106–R110, R169): training brings LPDDR up with the packages found at a cold start and with the
results in Seedbank otherwise, the stored image is taken when its digest holds, the
control stores and the Warden firmware are loaded from the image, the survey passes when every unit serves and none fails, links train, and
READY starts the work: rings accept doorbells and READY_TIME is the time since the trigger. -/
def Sys2Proof.Claims.StartUpReachesReady : Prop := ∀ s : State,
  (∀ d r n, s.boot.stage = 5 → running s = true → s.pins.tripped = false → (s.boot.image.isSome || contentsKept s) = true →
    (cachedTraining s = none ∧ n = ⟨d.toNat, r.val⟩ ∧ d.toNat ∈ [16, 32, 64] ∧ d.toNat ≤ maxDensity s ∧ r.val ≠ 0 ∨ cachedTraining s = some n) →
    Answers (.lpddrTraining (.ok d r)) s fun t =>
      t.boot.stage = 6 ∧ t.mem.density = n.density ∧ t.mem.ranks = n.ranks ∧ t.canopy.laidOut = true ∧ t.seed.training = some n ∧
      (contentsKept s = true → t.mem.bytes = s.mem.bytes ∧ t.trail = s.trail) ∧ (contentsKept s = false → t.trail.handles = []) ∧
      t.und = s.und ∧ t.pins = s.pins ∧ t.time = s.time) ∧
  (∀ p, s.boot.stage = 5 → running s = true → s.pins.tripped = false → (s.boot.image.isSome || contentsKept s) = true → Answers (.lpddrTraining (.configFault p)) s fun t =>
    t.boot = { s.boot with error := 3 } ∧ t.seed = withRecord s 0x0030 0 0xFF 0xFF p ∧ t = { s with boot := t.boot, seed := t.seed, ev := t.ev }) ∧
  (s.boot.stage = 6 → s.boot.digestPending = true → sha384 s.boot.stored = s.seed.imageDigest.toNat → Answers .imageDigestCheck s fun t =>
    t.boot.digestPending = false ∧ (t.boot.image.map (·.bytes)) = some s.boot.stored ∧ t = { s with boot := t.boot }) ∧
  (s.boot.stage = 6 → s.boot.digestPending = true → sha384 s.boot.stored ≠ s.seed.imageDigest.toNat → exec .imageDigestCheck s =
    .next { s with boot := { s.boot with digestPending := false } }) ∧
  (∀ c, s.boot.image = some c → s.boot.stage = 6 → running s = true → s.boot.digestPending = false → Answers .microcodeLoad s fun t =>
    t.boot = { s.boot with stage := 7 } ∧ t.und = { s.und with firmware := sectionOf c 4 } ∧
    t.gr.micro.stores = [1, 2, 3].map (fun k => loadStore (sectionOf c k) k) ∧ t = { s with boot := t.boot, und := t.und, gr := t.gr }) ∧
  (s.boot.stage = 7 → running s = true → (∀ u, (unitSum s u).state = 0 ∧ (unitSum s u).retired = false) → Answers (.bootSurvey []) s fun t =>
    t.boot = { s.boot with stage := 8 } ∧ t.seed = s.seed ∧ t.ev = s.ev ∧ t.mem = s.mem) ∧
  (s.boot.stage = 8 → Answers .linkTraining s fun t => t.boot = { s.boot with stage := 9 } ∧ t.seed = s.seed ∧ t.mem = s.mem ∧
    (solo s = true → t = { s with boot := t.boot })) ∧
  (s.boot.stage = 9 → s.dir.deferred = [] → Answers .readyStage s fun t =>
    t.boot.stage = 10 ∧ t.boot.readyTime = (s.time.clock - s.boot.trigger) / 1000 ∧ t.trail = { s.trail with halted := false } ∧
    t.power.intakeStopped = false ∧ t.pins = { s.pins with wakeAsserted := false } ∧ t.mem = s.mem ∧ t.dir = s.dir ∧
    (∀ c, s.boot.image = some c → c.svn ≤ lget c.svn t.seed.minSvn (c.kind - 1)))

/-- PERST# and the host links (R109, R121): a rise outside DORMANT lets the port train, the link reaches L0 after stage 2 with PERST# high and no
thermal trip, a fall holds a port that does not train, is held already, or is not yet out of stage 1, and under PERST_SCOPE 0 resets the device cold
with its own cause. -/
def Sys2Proof.Claims.PerstResetsAndLinksTrain : Prop := ∀ (s : State) (port : Fin 2),
  (s.power.mode ≠ .dormant → exec (.perstRise port) s = .next { s with pins := { s.pins with perst := lset s.pins.perst port true } }) ∧
  (2 ≤ s.boot.stage → portTrains s port = true → lget false s.pins.perst port = true → s.power.mode ≠ .dormant → s.pins.tripped = false →
    exec (.hostLinkL0 port) s = .next { s with boot := { s.boot with hostL0 := lset s.boot.hostL0 port true } }) ∧
  ((s.power.mode = .dormant ∨ portTrains s port = false ∨ lget false s.pins.perst port = false ∨ s.boot.stage < 2) →
    exec (.perstFall port) s = .next { s with pins := { s.pins with perst := lset s.pins.perst port false } }) ∧
  (s.power.mode ≠ .dormant → portTrains s port = true → lget false s.pins.perst port = true → 2 ≤ s.boot.stage → dparam s 0x1400 8 = 0 →
    Answers (.perstFall port) s fun t => ColdStarted s t (2 + port) s.seed ∧ lget true t.pins.perst port = false)

/-- The reset of a function or a port (R120, R350): on a link in L0 the function's mailbox is emptied and its session's transactions are gone, and
every RING_CFG that named FUNCTION 0 and the port is back at all zero; a hot reset takes the link out of L0. Stated for a function no partition is mapped to and, for the ports, when no
VF of the port has a partition (with one mapped the partition is reset as well: RequestedResetsClearTheirScope). -/
def Sys2Proof.Claims.FunctionResetsEmptyTheMailbox : Prop := ∀ (s : State) (port : Fin 2), lget false s.boot.hostL0 port = true →
  (partsOfPort s port = [] → Answers (.pfFlr port) s fun t =>
    sfind t.dir.mailboxes (73 * port) = none ∧ (∀ x ∈ t.dir.txns, x.owner ≠ .pf port) ∧ t.boot = s.boot ∧ t.seed = s.seed ∧ t.und = s.und ∧
    ∀ q ∈ pfRings s port, sfind t.dir.params (pkey (0x2100 + q.2 / 128) (q.2 % 128 + 1) q.1) = none) ∧
  (∀ down, partsOfPort s port = [] → Answers (.pcieHotReset port down) s fun t =>
    sfind t.dir.mailboxes (73 * port) = none ∧ (∀ x ∈ t.dir.txns, x.owner ≠ .pf port) ∧ t.seed = s.seed ∧ t.und = s.und ∧
    t.boot = { s.boot with hostL0 := lset s.boot.hostL0 port false }) ∧
  (partsOfPort s port = [] → pfRings s port = [] → Answers (.pfFlr port) s fun t => t = { s with dir := t.dir, ev := t.ev }) ∧
  ∀ vf : Fin 72, partOfVf s port (vf + 1) = none → Answers (.vfFlr port vf) s fun t =>
    sfind t.dir.mailboxes (73 * port + (vf + 1)) = none ∧ (∀ x ∈ t.dir.txns, x.owner ≠ .vf port vf) ∧ t = { s with dir := t.dir, ev := t.ev }

/-! ## The parameter directory (chapter 3) -/

namespace Sys2Proof.Claims

/-- The session's operations are executed (R33, R38, R53, Table 3-7): it reaches the directory, Seedbank recovery is over, no takeover is in
progress, no transaction of it was lost, and it is not another than the elected fabric manager. No transaction has number 0 (R43). -/
def Served (s : State) (who : Session) : Prop :=
  reaches s who = true ∧ s.boot.seedDone = true ∧ s.und.takingOver = false ∧ s.dir.lost.contains who = false ∧ notManager s who = false ∧
  ∀ x ∈ s.dir.txns, x.num ≠ 0

/-- The value a write leaves stored: reserved bits and RO fields keep theirs (R3, R348). -/
def merged (s : State) (d : ParamDef) (idx sub inst val : Nat) : Nat :=
  dropReserved idx (mergeBits (param s idx sub inst % 256 ^ d.size) val (writeMask idx sub d.size))

/-- The journal can take a transaction's values where one of its entries needs it (R50). -/
def Journaled (s : State) (gs : List Staging) : Prop :=
  gs.any needsJournal = true → s.seed.writable = true ∧ s.seed.copyOk.any (· = true) = true

/-- A write of one parameter passes the checks of R44 to R46: the principal may write the instance, the value is valid, the parameter's state
admits it, and Seedbank can take it. `part` is the instance the request names, `inst` the one it reaches (R35). -/
def Accepts (s : State) (who : Session) (idx sub part inst val : Nat) : Prop :=
  Served s who ∧ ∃ d : ParamDef, findParam idx sub = some d ∧ val < 256 ^ d.size ∧
    lookUp s who { op := 2, index := idx, sub := sub, inst := part, len := d.size, val := val } true = .ok (d, inst) ∧
    (let g := layEntry s ⟨false, idx, sub, inst, val, d.size⟩ d
     entryFails who s g.1 g.2 = none ∧ Journaled s [g.2])

/-- The response says OK. -/
def Told (t : State) : Prop := t.dir.rsp.map (·.status) = some 0

/-- The response to an operation without a value. -/
def plainRsp (op : Nat) (h : Hdr) (inst status : Nat) : Rsp :=
  { op := op + 128, index := h.index.toNat, sub := h.sub.toNat, inst, txn := h.txn.toNat, len := 0, status, value := 0 }

end Sys2Proof.Claims

/-- Transaction numbers are 1 to 65,535 (R43), in every state that a step reaches from one where they are. -/
def Obligations.TransactionNumbersStayLegal : Prop :=
  ∀ s t : State, (∀ x ∈ s.dir.txns, 1 ≤ x.num ∧ x.num ≤ 65535) → step s = .next t → ∀ x ∈ t.dir.txns, 1 ≤ x.num ∧ x.num ≤ 65535

/-- The operations that read (R41): READ answers the value of a parameter the principal may read, DESCRIBE its 8 bytes, NEXT the next parameter it
may read, and nothing is stored but the response (and the draw of a value the spec leaves open). -/
def Sys2Proof.Claims.DirectoryReadsAnswerAndStoreNothing : Prop := ∀ (s : State) (who : Session) (h : Hdr), Served s who → h.txn = 0 →
  (∀ d inst, lookUp s who (reqOf 1 h 0) false = .ok (d, inst) → ringBeyond s h.index.toNat h.sub.toNat inst = false →
    Answers (.readParam who h) s fun t =>
      t.dir.rsp = some { plainRsp 1 h inst 0 with len := d.size, value := readValue s h.index.toNat h.sub.toNat inst % 256 ^ d.size } ∧
      t = { s with dir := { s.dir with rsp := t.dir.rsp }, free := t.free }) ∧
  (∀ d inst, lookUp s who (reqOf 5 h 0) false = .ok (d, inst) → Answers (.describeParam who h) s fun t =>
      t.dir.rsp = some { plainRsp 5 h inst 0 with len := 8, value := describe d } ∧ t = { s with dir := { s.dir with rsp := t.dir.rsp } }) ∧
  (∀ p, h.index.toNat < 0xF000 → nextReadable s who 8192 (256 * h.index.toNat + h.sub.toNat) = some p → Answers (.nextParam who h) s fun t =>
      t.dir.rsp = some { plainRsp 4 h h.inst.toNat 0 with index := p / 256, sub := p % 256 } ∧ t = { s with dir := { s.dir with rsp := t.dir.rsp } })

/-- Transactions (R42, R43, R47): TXN_OPEN adds an empty one with the number answered, of which a session has at most 4 and the device 256; WRITE
and GUARD in it stage an entry and change no parameter; TXN_ABORT drops it; after TXN_TIMEOUT idle it is aborted and its number held back, and 10 s
later the number is released. -/
def Sys2Proof.Claims.TransactionsStageWithoutChange : Prop := ∀ (s : State) (who : Session), Served s who →
  (∀ n, freeNumber s = some n → s.dir.txns.countP (fun t => decide (t.owner = who)) < 4 → s.dir.txns.length < 256 → Answers (.txnOpen who) s fun t =>
    t.dir.txns = s.dir.txns ++ [{ num := n, owner := who, lastOp := s.time.clock }] ∧ t.dir.params = s.dir.params ∧ t = { s with dir := t.dir } ∧
    t.dir.rsp.map (fun r => (r.status, r.txn)) = some (0, n)) ∧
  (∀ (h : Hdr) (val : Nat) (x : Txn) (d : ParamDef) (inst : Nat), h.txn ≠ 0 → txnOf s who h.txn.toNat = some x →
    lookUp s who (reqOf 2 h val) true = .ok (d, inst) → d.acc ≠ .ro → h.len.toNat = d.size → x.entries.length < 64 → stagedBytes x + d.size ≤ 16384 →
    Answers (.writeParam who h val) s fun t =>
      (∃ y, txnOf t who h.txn.toNat = some y ∧
        y.entries = x.entries ++ [⟨false, h.index.toNat, h.sub.toNat, inst, val % 256 ^ d.size, d.size⟩]) ∧ Told t ∧
      t.dir.params = s.dir.params ∧ t = { s with dir := t.dir }) ∧
  (∀ (h : Hdr) (val : Nat) (x : Txn) (d : ParamDef) (inst : Nat), h.txn ≠ 0 → txnOf s who h.txn.toNat = some x →
    lookUp s who (reqOf 3 h val) false = .ok (d, inst) → h.len.toNat = d.size → x.entries.length < 64 → stagedBytes x + d.size ≤ 16384 →
    Answers (.guardParam who h val) s fun t =>
      (∃ y, txnOf t who h.txn.toNat = some y ∧
        y.entries = x.entries ++ [⟨true, h.index.toNat, h.sub.toNat, inst, val % 256 ^ d.size, d.size⟩]) ∧ Told t ∧
      t.dir.params = s.dir.params ∧ t = { s with dir := t.dir }) ∧
  (∀ n x, txnOf s who n.toNat = some x → Answers (.txnAbort who n) s fun t =>
    (∀ y ∈ t.dir.txns, y.num ≠ n.toNat) ∧ t.dir.params = s.dir.params ∧ Told t ∧ t = { s with dir := t.dir }) ∧
  (∀ n : BitVec 16, ∀ x, s.dir.txns.find? (fun y => decide (y.num = n.toNat)) = some x → x.lastOp + 1000000 * dparam s 0x0020 4 ≤ s.time.clock →
    Answers (.txnTimeoutExpiry n) s fun t => (∀ y ∈ t.dir.txns, y.num ≠ n.toNat) ∧
      t.dir.dead = ⟨n.toNat, x.owner, s.time.clock⟩ :: s.dir.dead ∧ t.dir.params = s.dir.params ∧ t = { s with dir := t.dir }) ∧
  ∀ n : BitVec 16, Answers (.txnNumberRelease n) s fun t =>
    (∀ y ∈ t.dir.dead, y.num = n.toNat → s.time.clock < y.abortedAt + 10000000000) ∧ t = { s with dir := { s.dir with dead := t.dir.dead } }

/-- A commit is all or nothing (R45): when one of its checks fails, or Seedbank cannot take it, no parameter, no journaled value and nothing else of
the block changes but Seedbank's record of the failure. -/
def Obligations.CommitIsAllOrNothing : Prop := ∀ (who : Session) (s : State) (es : List Entry), (commit who s es).status ≠ 0 →
  (commit who s es).reset = none ∧ (commit who s es).state.seed.journal = s.seed.journal ∧
  (commit who s es).state = { s with seed := (commit who s es).state.seed, ev := (commit who s es).state.ev }

/-- TXN_COMMIT and RESTORE_DEFAULTS complete (R45, R52): where every entry of the transaction passes its checks, Seedbank can take what is journaled and no reset is asked
for, the commit closes the transaction and is answered OK and counted; RESTORE_DEFAULTS is answered OK and counted, and no value in the journal is restored from
then on. -/
def Obligations.CommitsAndDefaultsAreAnswered : Prop := ∀ (s : State) (who : Session),
  (∀ (n : BitVec 16) (x : Txn) a gs, Served s who → txnOf s who n.toNat = some x → layAll (closeTxn s n.toNat) x.entries = (a, gs) →
    (∀ g ∈ gs, entryFails who (closeTxn s n.toNat) a g = none) → Journaled s gs →
    (commit who (closeTxn s n.toNat) x.entries).reset = none → Answers (.txnCommit who n) s fun t =>
      Told t ∧ t.dir.commits = s.dir.commits + 1 ∧ (∀ y ∈ t.dir.txns, y.num ≠ n.toNat) ∧ t.fuses = s.fuses ∧ t.pins = s.pins ∧ t.time.clock = s.time.clock) ∧
  (Accepts s who 0x0020 2 devInst devInst 0xD5F0 → Answers (.restoreDefaults who) s fun t =>
    Told t ∧ t.dir.commits = s.dir.commits + 1 ∧ recovered t.seed.journal = [] ∧ t.fuses = s.fuses ∧ t.pins = s.pins ∧ t.time.clock = s.time.clock)

/-- TXN_COMMIT (R45): the staged writes of POWER_CAP and TJ_THROTTLE that pass their checks are in force and in the journal once the commit is answered. A guard
that does not hold answers CONFLICT and nothing is changed. -/
def Sys2Proof.Claims.TransactionCommitAppliesItsWrites : Prop := ∀ (s : State) (who : Session) (n : BitVec 16) (x : Txn),
  Served s who → txnOf s who n.toNat = some x →
  (∀ e, x.entries = [e] → e.guard = true → (findParam e.index e.sub).isSome = true →
    readValue (closeTxn s n.toNat) e.index e.sub e.inst % 256 ^ ((findParam e.index e.sub).map (·.size)).getD 0 ≠ e.value →
    Answers (.txnCommit who n) s fun t => t.dir.rsp.map (·.status) = some 0x0A ∧ (∀ y ∈ t.dir.txns, y.num ≠ n.toNat) ∧
      t.dir.params = s.dir.params ∧ t = { s with dir := t.dir }) ∧
  (∀ cap tj : Nat, 300 ≤ cap → cap ≤ 1050 → 70 ≤ tj → tj ≤ 105 → 5 ≤ s.boot.stage → s.power.mode ≠ .dormant →
    s.seed.writable = true → s.seed.copyOk.any (· = true) = true →
    (∀ q ∈ [(0x1220, 1), (0x1210, 7)], ∀ d, findParam q.1 q.2 = some d → denied s who d q.1 q.2 devInst true = false) →
    x.entries = [⟨false, 0x1220, 1, devInst, cap, 2⟩, ⟨false, 0x1210, 7, devInst, tj, 1⟩] → Answers (.txnCommit who n) s fun t =>
      dparam t 0x1220 1 = cap ∧ dparam t 0x1210 7 = tj ∧ Told t ∧ t.dir.commits = s.dir.commits + 1 ∧ (∀ y ∈ t.dir.txns, y.num ≠ n.toNat) ∧
      sfind (recovered t.seed.journal) (pkey 0x1220 1 devInst) = some cap ∧
      t = { s with dir := t.dir, seed := t.seed, power := t.power, ports := t.ports })

/-- RESTORE_DEFAULTS (R52): where the parameters that change lie below index 0x1100, whose change has no effect on other parameters, every RWP parameter is back at
its default. -/
def Sys2Proof.Claims.RestoreDefaultsEmptiesTheJournal : Prop := ∀ (s : State) (who : Session), Accepts s who 0x0020 2 devInst devInst 0xD5F0 →
  (s.power.mode ≠ .dormant → (∀ c ∈ restored s, c.index < 0x1100) → Answers (.restoreDefaults who) s fun t =>
    t.dir.params = dropRwp s.dir.params ∧ t.seed = { s.seed with journal := ⟨[], true⟩ :: s.seed.journal } ∧
    t.mem = s.mem ∧ t.trail = s.trail ∧ t.root = s.root ∧ t.gr = s.gr ∧ t.rows = s.rows ∧ t.fab = s.fab)

/-! ## Rows that are one write of one parameter -/

/-- The resets that a commit requests (R119, R120): cold, warm, and of one partition, which ends the partition's rings, stands and lists and puts
its RW parameters, but for those that R120 keeps, back at their defaults. -/
def Obligations.RequestedResetsClearTheirScope : Prop := ∀ (s : State) (who : Session),
  (Accepts s who 0x1400 4 devInst devInst 0xC01D → s.power.mode ≠ .dormant → Answers (.resetReqCold who) s fun t => ColdStarted s t 7 s.seed) ∧
  (Accepts s who 0x1400 4 devInst devInst 0x7A11 → s.power.mode ≠ .dormant → Answers (.resetReqWarm who) s fun t =>
    t.boot.stage = 5 ∧ t.boot.cause = 8 ∧ t.boot.kind = .warm ∧ t.boot.image = none ∧ t.trail.rings = [] ∧ t.trail.cmds = [] ∧
    t.stands.stands = [] ∧ t.root.insts = [] ∧ t.gr.cores = [] ∧ t.rows.staged = [] ∧ t.canopy.copies = [] ∧ t.pins.straps = s.pins.straps) ∧
  (∀ part i, Accepts s who 0x1410 1 part.toNat i 0x9C3E → s.power.mode ≠ .dormant → Answers (.partReset who part) s fun t =>
    (∀ q ∈ t.trail.rings, q.2.part ≠ i) ∧ (∀ q ∈ t.stands.stands, q.2.part ≠ i) ∧ sfind t.stands.lists i = none ∧
    (∀ q ∈ t.dir.params, ∀ d, findParam (q.1 / 65536) (q.1 / 256 % 256) = some d → d.perPart = true → d.acc = .rw → q.1 % 256 = i →
      keptAtPartReset (q.1 / 65536) = true) ∧ t.boot = s.boot ∧ t.seed = s.seed ∧ t.und = s.und ∧ Told t)

/-- Container intake (R115, R118): CT_OPEN starts an empty intake, CT_DATA appends up to the length, CT_COMMIT reports the first failing check, or
applies the container: a KEY container's key takes the place of the operator key. -/
def Sys2Proof.Claims.ContainerIntakeVerifiesBeforeApplying : Prop := ∀ (s : State) (who : Session), s.power.mode ≠ .dormant →
  (∀ len : BitVec 32, Accepts s who 0x1420 1 devInst devInst len.toNat → Answers (.ctOpen who len) s fun t =>
    t.boot = { s.boot with ctTotal := len.toNat, ctData := [], ctStatus := 1, ctPending := none } ∧ Told t ∧
    t = { s with boot := t.boot, dir := t.dir, power := t.power, ports := t.ports }) ∧
  (∀ chunk : List Byte, Accepts s who 0x1420 2 devInst devInst (leNat (chunk.take 4096)) → Answers (.ctData who chunk) s fun t =>
    t.boot = { s.boot with ctData := (s.boot.ctData ++ leBytes 4096 (leNat (chunk.take 4096))).take s.boot.ctTotal } ∧ Told t ∧
    t = { s with boot := t.boot, dir := t.dir, power := t.power, ports := t.ports }) ∧
  (∀ e, Accepts s who 0x1420 4 devInst devInst 1 → ctKind s.boot.ctData ≠ 2 → verifyContainer s s.boot.ctData = .error e → Answers (.ctCommit who) s fun t =>
    t.boot = { s.boot with ctStatus := e, ctTotal := 0, ctData := [] } ∧ Told t ∧ t = { s with boot := t.boot, dir := t.dir, power := t.power, ports := t.ports }) ∧
  (∀ c, Accepts s who 0x1420 4 devInst devInst 1 → ctKind s.boot.ctData = 4 → verifyContainer s s.boot.ctData = .ok c → c.kind = 4 → Answers (.ctCommit who) s fun t =>
    t.boot = { s.boot with ctStatus := 3 } ∧ t.seed.operatorKeyHash = BitVec.ofNat 384 (beNat (sectionOf c 7)) ∧
    c.svn ≤ lget c.svn t.seed.minSvn 3 ∧ Told t ∧ t = { s with boot := t.boot, seed := t.seed, dir := t.dir, power := t.power, ports := t.ports })

/-- Management of islands, events and sleep by one write (R65, R72, R89, R98, R102, R104): a role swap is pending, a halted Warden restarts at its
reset vector with its SRAM kept, HOLDOFF 0 opens the group, GROVE_ENABLE is stored and journaled, and the three power requests start or end sleep. -/
def Sys2Proof.Claims.ManagementWritesTakeEffect : Prop := ∀ (s : State) (who : Session),
  (Accepts s who 0x0040 4 devInst devInst 0x5A3D → s.power.mode ≠ .dormant → Answers (.roleSwap who) s fun t =>
    t = { s with und := { s.und with roleSwapPending := true, takingOver := true }, dir := t.dir, power := t.power } ∧ Told t) ∧
  (∀ wd : Fin 2, Accepts s who 0x0040 5 devInst devInst wd → s.power.mode ≠ .dormant → Answers (.wardenRestart who wd) s fun t =>
    (wardenAt t wd).halted = false ∧ (wardenAt t wd).pc = Config.wardenResetVector ∧ (wardenAt t wd).stores = [] ∧ (wardenAt t wd).wptr = 0 ∧
    (wardenAt t wd).wres = 1 ∧ (wardenAt t wd).sram = (wardenAt s wd).sram ∧ (wardenAt t wd).common = (wardenAt s wd).common ∧
    (wardenAt t wd).windows = (wardenAt s wd).windows ∧ Told t ∧ t = { s with und := t.und, ev := t.ev, dir := t.dir, power := t.power, ports := t.ports }) ∧
  (∀ g : Fin 64, Accepts s who 0x1128 (g + 1) devInst devInst 0 → s.power.mode ≠ .dormant → Answers (.holdoffCommit who g) s fun t =>
    dparam t 0x1128 (g + 1) = 0 ∧ sfind t.ev.held g = none ∧ Told t ∧ t = { s with ev := t.ev, dir := t.dir, power := t.power, ports := t.ports }) ∧
  (∀ (die : Fin 6) (mask : BitVec 72), Accepts s who 0x1230 (die + 1) devInst devInst mask.toNat → s.power.mode ≠ .dormant →
    Answers (.groveEnableCommit who die mask) s fun t =>
      dparam t 0x1230 (die + 1) = mask.toNat ∧ sfind (recovered t.seed.journal) (pkey 0x1230 (die + 1) devInst) = some mask.toNat ∧ Told t ∧
      t.und = s.und ∧ t.boot = s.boot ∧ t.trail = s.trail) ∧
  (Accepts s who 0x1240 2 devInst devInst 2 → s.power.mode = .running → s.power.entry = none → s.power.committed = none →
    Answers (.powerStateReqIdle who) s fun t =>
      t = { s with power := { s.power with entry := some ⟨false, 0⟩ }, dir := t.dir } ∧ Told t) ∧
  (Accepts s who 0x1240 2 devInst devInst 3 → s.power.mode = .running → s.power.entry = none → s.power.committed = none →
    Answers (.powerStateReqDormant who) s fun t =>
      t = { s with power := { s.power with entry := some ⟨true, 0⟩ }, dir := t.dir } ∧ Told t) ∧
  (∀ e, Accepts s who 0x1240 2 devInst devInst 0 → s.power.entry = some e → Answers (.powerStateReqWake who) s fun t =>
    t = { s with power := { s.power with entry := none, sleepOutcome := 2, wakeCause := 1 }, dir := t.dir } ∧ Told t)

/-- The rings and tables of a partition by one write (R125, R126, R132, R164, R211, R287): a ring enabled starts with its counters at 0, its sequence at
FIRST_SEQ and its CSW one below; a ring disabled drains or is OFF; a table of another size is empty; an aborted instance is gone; a slot that is
no longer VALID has no prefetched and no hot rows; a partition moved has no rings and no stands. -/
def Obligations.PartitionWritesTakeEffect : Prop := ∀ (s : State) (who : Session), s.power.mode ≠ .dormant →
  (∀ part (l : Fin 4096) i sq cq cw, let v := putBit (ringCfg s (ownInst s who part.toNat) l) 200 true
    Accepts s who (0x2100 + l / 128) (l % 128 + 1) part.toNat i v → cfgEnable (ringCfg s i l) = false → ownInst s who part.toNat = i →
    ringCfg s i l < 256 ^ 48 → (∀ d, findParam (0x2100 + l / 128) (l % 128 + 1) = some d → merged s d (0x2100 + l / 128) (l % 128 + 1) i v = v) →
    ringAddrs s i v = some (sq, cq, cw) → Answers (.ringEnable who part l) s fun t =>
      (∃ r, ringOf t (ringFirst s i + l) = some r ∧ r.state = 1 ∧ r.part = i ∧ r.loc = l ∧ r.sqBase = sq ∧ r.cqBase = cq ∧ r.cswAddr = cw ∧
        r.sqHead = 0 ∧ r.sqTail = 0 ∧ r.cqHead = 0 ∧ r.cqTail = 0 ∧ r.nextSeq = BitVec.ofNat 64 (cf v 39 32) ∧ r.csw = r.nextSeq - 1) ∧
      (∀ k, k ≠ ringFirst s i + l → sfind t.trail.rings k = sfind s.trail.rings k) ∧ Told t) ∧
  (∀ part (l : Fin 4096) i r, let v := putBit (ringCfg s (ownInst s who part.toNat) l) 200 false
    Accepts s who (0x2100 + l / 128) (l % 128 + 1) part.toNat i v → cfgEnable (ringCfg s i l) = true → ownInst s who part.toNat = i →
    (∀ d, findParam (0x2100 + l / 128) (l % 128 + 1) = some d → merged s d (0x2100 + l / 128) (l % 128 + 1) i v = v) → cfgEnable v = false →
    ringOf s (ringFirst s i + l) = some r → Answers (.ringDisable who part l) s fun t =>
      (∃ r', ringOf t (ringFirst s i + l) = some r' ∧ (r'.state = 2 ∨ r'.state = 0) ∧ r'.stopRec = none ∧ r'.part = r.part) ∧
      (∀ k, k ≠ ringFirst s i + l → sfind t.trail.rings k = sfind s.trail.rings k) ∧ Told t ∧ t = { s with trail := t.trail, dir := t.dir, power := t.power, ports := t.ports }) ∧
  (∀ part i (size : BitVec 32), Accepts s who 0x2003 1 part.toNat i size.toNat → size.toNat ≠ htabSize s i → htabSize s i < 2 ^ 32 →
    Answers (.htabResize who part size) s fun t =>
      (∀ k, hEntry t i (k % 2 ^ 20) = {}) ∧ htabSize t i = size.toNat ∧ Told t ∧ t = { s with trail := t.trail, dir := t.dir, seed := t.seed, power := t.power } ∧
      (∀ k, k / 2 ^ 20 ≠ i → sget {} t.trail.handles k = sget {} s.trail.handles k)) ∧
  (∀ part i l seq n, Accepts s who 0x2601 3 part.toNat i (l.toNat + seq.toNat * 2 ^ 64) →
    instanceOfRun s (ringFirst s i + l.toNat) seq = some n → Answers (.graphAbort who part l seq) s fun t => instOf t n = none ∧ Told t) ∧
  (∀ part i (slot : Fin 256), Accepts s who (0x3810 + slot / 128) (slot % 128 + 1) part.toNat i (putBit (tableDesc s (ownInst s who part.toNat) slot) 58 false) →
    ownInst s who part.toNat = i → tdValid (tableDesc s i slot) = true → tableDesc s i slot < 2 ^ 59 → Answers (.tableValidClear who part slot) s fun t =>
      tdValid (tableDesc t i slot) = false ∧ (∀ q ∈ t.thk.prefetch, ¬ (q.2.part = i ∧ q.2.slot = slot)) ∧
      (∀ q ∈ t.thk.hot, ¬ (q.2.part = i ∧ q.2.slot = slot)) ∧ Told t ∧ t = { s with thk := t.thk, dir := t.dir, power := t.power, ports := t.ports }) ∧
  (∀ part i (m : BitVec 64), Accepts s who 0x5803 1 part.toNat i m.toNat → m.toNat ≠ param s 0x5803 1 i → param s 0x5803 1 i < 2 ^ 64 →
    Answers (.partMemChange who part m) s fun t =>
      (∀ q ∈ t.trail.rings, q.2.part ≠ i) ∧ (∀ q ∈ t.stands.stands, q.2.part ≠ i) ∧ (∀ q ∈ t.thk.hot, q.2.part ≠ i) ∧
      (∀ q ∈ t.trail.handles, q.1 / 2 ^ 20 = i → q.2.valid = false) ∧ t.und = s.und ∧ t.boot = s.boot ∧ Told t)

/-- Routing, units, time and counters by one write (R270, R273, R307–R309, R312, R316, R328, R340, R342). UNIT_CMD acts on the unit of UNIT_SEL, here
with no survey round under way. -/
def Sys2Proof.Claims.DeviceWritesTakeEffect : Prop := ∀ (s : State) (who : Session), s.power.mode ≠ .dormant →
  (∀ ep : BitVec 8, Accepts s who 0x5004 1 devInst devInst ep.toNat → Answers (.routeFlip who ep) s fun t =>
    t.fab.epoch = ep.toNat ∧ t.fab.lastFlip = some s.time.clock ∧ Occurs s t 0x098 ∧ Told t ∧
    t = { s with fab := t.fab, ev := t.ev, dir := t.dir, power := t.power, ports := t.ports }) ∧
  (Accepts s who 0x5008 3 devInst devInst 1 → field (dparam s 0x5008 1) 15 0 ≠ 0 → Answers (.frGo who) s fun t =>
    (t.fab.rspState = 1 ∨ t.fab.rspState = 3) ∧ t.fab.rspHead = 0 ∧ t.fab.rspValue = 0 ∧ Told t ∧
    (t.fab.rspState = 1 → ∃ o ∈ t.fab.out, o.opc = 0x07 ∧ o.owner = .relay) ∧ t.seed = s.seed ∧ t.mem = s.mem) ∧
  (s.fb.round = none → let u := dparam s 0x6004 1
    (Accepts s who 0x6004 3 devInst devInst 0xFE01 → unitKind u ≠ 3 → Answers (.unitFenceCmd who) s fun t =>
      (unitSum t u).state = 1 ∧ (unitSum t u).cause = 0x7F ∧ (∀ w, w ≠ u → unitSum t w = unitSum s w) ∧ Told t ∧ t.mem = s.mem ∧ t.trail = s.trail) ∧
    (Accepts s who 0x6004 3 devInst devInst 0xFE02 → unitKind u ≠ 3 → Answers (.unitReturnCmd who) s fun t =>
      (unitSum t u).state = 3 ∧ (∀ w, w ≠ u → unitSum t w = unitSum s w) ∧ Told t ∧ t.mem = s.mem ∧ t.trail = s.trail) ∧
    (Accepts s who 0x6004 3 devInst devInst 0xFE02 → unitKind u = 3 → Answers (.unitReturnCmd who) s fun t =>
      t.boot.stage = 5 ∧ t.boot.cause = 9 ∧ t.boot.kind = .warm ∧ t.fb.returningPort = some (unitIndex u)) ∧
    (Accepts s who 0x6004 3 devInst devInst 0xFE03 → Answers (.unitUnretireCmd who) s fun t =>
      unitSum t u = { unitSum s u with retired := false } ∧ (∀ w, w ≠ u → unitSum t w = unitSum s w) ∧ Told t ∧
      t = { s with seed := t.seed, dir := t.dir, power := t.power, ports := t.ports }) ∧
    (Accepts s who 0x6004 3 devInst devInst 0xFE04 → Answers (.unitClearStrikesCmd who) s fun t =>
      unitSum t u = { unitSum s u with strikes := 0 } ∧ (∀ w, w ≠ u → unitSum t w = unitSum s w) ∧ Told t ∧
      t = { s with seed := t.seed, dir := t.dir, power := t.power, ports := t.ports })) ∧
  (Accepts s who 0x6006 2 devInst devInst 1 → Answers (.surveyNow who) s fun t =>
    t.fb.roundAt = s.time.dev ∧ (t.fb.round.isSome = true ∨ t.fb.rounds = s.fb.rounds + 1) ∧ Told t ∧ t.mem = s.mem ∧ t.trail = s.trail) ∧
  (∀ secs : BitVec 64, Accepts s who 0x7001 2 devInst devInst secs.toNat → s.time.src = 0 → second s < secs.toNat → Answers (.timeSet who secs) s fun t =>
    t.time.dev = secs.toNat * 1000000000 ∧ t.time.clock = s.time.clock ∧ Told t ∧ t = { s with time := t.time, look := t.look, ev := t.ev, dir := t.dir, power := t.power, ports := t.ports }) ∧
  (∀ secs : BitVec 64, Accepts s who 0x7001 2 devInst devInst secs.toNat → s.time.src = 1 → Answers (.timeSet who secs) s fun t =>
    t.time = { s.time with setPending := some secs.toNat } ∧ Told t ∧ t = { s with time := t.time, dir := t.dir, power := t.power, ports := t.ports }) ∧
  (∀ part i (sel : BitVec 16), Accepts s who 0x7402 3 part.toNat i sel.toNat → Answers (.gctrClear who part sel) s fun t =>
    (∀ q ∈ t.trk.grove, ctrPart s q.1 = some i → ∀ k < 8, bitOf sel.toNat k = true → lget 0 q.2.pc k = 0) ∧
    (∀ q ∈ t.trk.carry, q.1 / 12 = i → q.1 % 12 < 8 → bitOf sel.toNat (q.1 % 12) = false) ∧ Told t ∧
    t = { s with trk := { s.trk with grove := t.trk.grove, carry := t.trk.carry }, dir := t.dir, power := t.power, ports := t.ports }) ∧
  (∀ dies : BitVec 8, Accepts s who 0x7412 1 devInst devInst dies.toNat → Answers (.dieCtrClear who dies) s fun t =>
    (∀ q ∈ t.trk.die, bitOf dies.toNat q.1 = false) ∧ (∀ q ∈ s.trk.die, bitOf dies.toNat q.1 = false → q ∈ t.trk.die) ∧ Told t ∧
    t = { s with trk := { s.trk with die := t.trk.die }, dir := t.dir, power := t.power, ports := t.ports }) ∧
  (∀ dies : BitVec 8, Accepts s who 0x7420 3 devInst devInst dies.toNat → Answers (.tracksResume who dies) s fun t =>
    (∀ q ∈ t.trk.bufs, bitOf dies.toNat q.1 = true → q.2.base = q.2.wp ∧ q.2.full = false) ∧ Told t ∧
    t = { s with trk := { s.trk with bufs := t.trk.bufs }, dir := t.dir, power := t.power, ports := t.ports })

/-! ## Mailboxes, the field bus, Wardens, pins and events (chapters 3, 4 and 5) -/

namespace Sys2Proof.Claims

/-- A Warden of the primary island with its register file whole: 8 common registers, 8 windows of 16, and WPTR 0 to 7 (R68). -/
def WardenWhole (s : State) (w : Nat) : Prop :=
  w < s.und.wardens.length ∧ (wardenAt s w).common.length = 8 ∧ (wardenAt s w).windows.length = 128 ∧ (wardenAt s w).wptr ≤ 7

/-- The Warden runs, is outside window 7, and has no store in its store buffer. -/
def WardenFree (s : State) (w : Nat) : Prop :=
  (wardenAt s w).halted = false ∧ (wardenAt s w).wptr ≠ 7 ∧ (wardenAt s w).stores = []

/-- The trap entry of R70: what it leaves of a Warden. -/
def trapped (x : Warden) (cause : BitVec 8) (info pc : BitVec 32) : Warden :=
  { x with trapWptr := x.wptr, trapPc := x.pc, trapCause := cause, trapInfo := info, wptr := 7, pc }

/-- The frame that carries a NODE message on every bus the device takes part in (R57): its serial number, power state and READY. -/
def nodeFrames (s : State) (kind extra : Nat) : List CanOut :=
  (([0, 1] : List (Fin 2)).filter (fun b : Fin 2 => busOn s b.val)).map (fun b : Fin 2 =>
    ⟨b, canId 7 4 0x7F (nodeId s) 0,
     BitVec.ofNat 512 (kind + pack [(8, s.fuses.serial.toNat), (1, powerState s), (1, bitAt (isReady s) 0)] * 256 + extra * 256 ^ 11), false⟩)

/-- The messages that a write to the configuration space lets out of the Pending Bit Array, the last one first: `t` is the state after. -/
def releasedMsgs (s t : State) : List Msix :=
  ((s.ev.pba.filter (fun k => !pbaHeld t k)).map (fun k => (⟨k / 320 / 73, k / 320 % 73, k % 320⟩ : Msix))).reverse

end Sys2Proof.Claims

/-- The BAR0 mailbox and the directory port (R60, R61): while BUSY is set MB_GO only sets DROPPED; otherwise it sets BUSY, clears DONE and the request
is executed, shown for DESCRIBE; its completion writes the response header and value, clears BUSY, sets DONE and TAG, and a function's mailbox event
occurs. A 1 written to DROPPED clears it, and MB_STATUS reads its flags. -/
def Sys2Proof.Claims.MailboxRequestsAreAnsweredOnce : Prop := ∀ s : State,
  (∀ (port : Fin 2) (fn : Fin 73), reaches s (sessionOf port fn) = true →
    (∀ tag hdr val, (mailbox s port fn).busy = true →
      exec (.mbGo port (.fn fn) tag hdr (.submit val)) s = .next (setMailbox s port fn { mailbox s port fn with dropped := true })) ∧
    (∀ tag hdr val q d inst, Served s (sessionOf port fn) → (mailbox s port fn).busy = false →
      q = mailReq { reqHdr := BitVec.ofNat 128 (hdr.toNat &&& hdrMask), reqValue := val % 256 ^ 4096 } → q.op = 5 → q.txn = 0 →
      lookUp s (sessionOf port fn) q false = .ok (d, inst) → Answers (.mbGo port (.fn fn) tag hdr (.submit val)) s fun t =>
        ∃ r, t.dir.rsp = some r ∧ r.status = 0 ∧ r.value = describe d ∧ r.len = 8 ∧ (mailbox t port fn).busy = true ∧ (mailbox t port fn).done = false ∧
          (mailbox t port fn).waiting = some (tag, r) ∧ t = { s with dir := t.dir, power := t.power, ports := t.ports }) ∧
    (∀ tag hdr, exec (.mbGo port (.fn fn) tag hdr (.write 0x1004010 [4])) s = .next (setMailbox s port fn { mailbox s port fn with dropped := false })) ∧
    (∀ tag hdr, exec (.mbGo port (.fn fn) tag hdr (.read 0x1004010 1)) s = .next { s with pcie.bar0Read := [BitVec.ofNat 8 (bitAt (mailbox s port fn).busy 0 +
      bitAt (mailbox s port fn).done 1 + bitAt (mailbox s port fn).dropped 2)] })) ∧
  ∀ unit user any hdr src, src = mbSource unit user → ((mbOf s src).waiting = none → exec (.mbGo unit user any hdr .complete) s = .next s) ∧
    ∀ tag r, (mbOf s src).waiting = some (tag, r) → Answers (.mbGo unit user any hdr .complete) s fun t =>
      (mbOf t src).busy = false ∧ (mbOf t src).done = true ∧ (mbOf t src).tag = tag ∧ (mbOf t src).waiting = none ∧
      (mbOf t src).rspHdr = BitVec.ofNat 128 (rspHeader r) ∧ (mbOf t src).rspValue = mergeBits (mbOf s src).rspValue r.value (ones (8 * r.len)) ∧
      (mbOf t src).reqHdr = (mbOf s src).reqHdr ∧ (mbOf t src).reqValue = (mbOf s src).reqValue ∧ (mbOf t src).dropped = (mbOf s src).dropped ∧
      (∀ port fn, src = .host port fn → Occurs s t (mailSource port fn) ∧ t = { setMb s src (mailDone (mbOf s src) tag r) with ev := t.ev }) ∧
      (∀ w, src = .warden w → t = setMb s src (mailDone (mbOf s src) tag r))

/-- Requests on the field bus (R54, R55, R58, R59): a classic, remote, short or 11-bit frame only sets FRAME_IGNORED, and so does a broadcast of
another operation than READ, NEXT and DESCRIBE; a request is executed and answered on its bus in an RSP frame with its priority and tag, shown for DESCRIBE. -/
def Sys2Proof.Claims.FieldRequestsAreAnsweredOnTheirBus : Prop := ∀ (s : State) (f : CanFrame), busOn s f.bus = true →
  (canIgnored f = true → ∀ c ∈ [Instr.canReqFrame f, .canSegFrame f, .canAckFrame f, .nodeFrame f],
    exec c s = .next { s with fieldBus := { s.fieldBus with frameIgnored := true } }) ∧
  (canIgnored f = false → canKind f = 0 → canDst f = 0x7F → field f.data.toNat 7 0 ∉ [1, 4, 5] → Answers (.canReqFrame f) s fun t =>
    t.fieldBus.frameIgnored = true ∧ t.fieldBus.out = s.fieldBus.out ∧ t = { s with fieldBus := t.fieldBus }) ∧
  (∀ h d inst, canIgnored f = false → canKind f = 0 → canDst f = nodeId s → h = field f.data.toNat 95 0 → field h 7 0 = 5 → bitOf h 8 = false →
    field h 63 48 = 0 → s.fieldBus.done = [] → Served s (.field f.bus (BitVec.ofNat 7 (canSrc f))) →
    lookUp s (.field f.bus (BitVec.ofNat 7 (canSrc f)))
      { op := 5, index := field h 31 16, sub := field h 39 32, inst := field h 47 40, len := field h 79 64 } false = .ok (d, inst) →
    Answers (.canReqFrame f) s fun t => ∃ r, t.dir.rsp = some r ∧ r.status = 0 ∧ r.value = describe d ∧ r.len = 8 ∧
      t.fieldBus.out = s.fieldBus.out ++ [⟨f.bus, canId (canPri f) 1 (canSrc f) (nodeId s) (canXfer f),
        BitVec.ofNat 512 (putBit (rspHeader r) 8 false + leNat (leBytes 8 (describe d)) * 2 ^ 96), false⟩] ∧ t = { s with dir := t.dir, fieldBus := t.fieldBus })

/-- Segmented transfers (R55, R56): a segment in sequence joins the value, and every eighth is acknowledged; one out of sequence is discarded and the
highest consecutive one acknowledged; an ACK of the last segment ends a response, an aborting one gives it up with its status, and after 3 resends
without an ACK it is given up with SEG_TIMEOUT. -/
def Sys2Proof.Claims.SegmentsGoInSequence : Prop := ∀ (s : State),
  (∀ (f : CanFrame) (x : CanRx), busOn s f.bus = true → canIgnored f = false → canKind f = 2 → canDst f = nodeId s →
    s.fieldBus.rx = [x] → x.bus = f.bus → x.src = canSrc f → x.xfer = canXfer f →
    (canByte f 0 = x.segs + 1 → canByte f 0 ≤ 65 → canByte f 0 ≠ segments (field x.hdr 79 64) → Answers (.canSegFrame f) s fun t =>
      t.fieldBus.rx = [{ x with value := x.value ++ leBytes 63 (field f.data.toNat 511 8), segs := x.segs + 1 }] ∧
      t.fieldBus.out = s.fieldBus.out ++ (if (x.segs + 1) % 8 = 0 then
        [⟨f.bus, canId (canPri f) 3 (canSrc f) (nodeId s) (canXfer f), BitVec.ofNat 512 (x.segs + 1), false⟩] else []) ∧
      t = { s with fieldBus := t.fieldBus }) ∧
    (canByte f 0 ≠ x.segs + 1 → canByte f 0 ≤ 65 → Answers (.canSegFrame f) s fun t =>
      t = { s with fieldBus := { s.fieldBus with out := s.fieldBus.out ++
        [⟨f.bus, canId (canPri f) 3 (canSrc f) (nodeId s) (canXfer f), BitVec.ofNat 512 x.segs, false⟩] } })) ∧
  (∀ (f : CanFrame) (x : CanTx), busOn s f.bus = true → canIgnored f = false → canKind f = 3 → canDst f = nodeId s →
    s.fieldBus.tx = [x] → x.bus = f.bus → x.dst = canSrc f → x.xfer = canXfer f →
    (canByte f 0 = x.total → canByte f 0 ≤ 65 → canByte f 1 = 0 → Answers (.canAckFrame f) s fun t => t = { s with fieldBus := { s.fieldBus with tx := [] } }) ∧
    (canByte f 0 ≤ 65 → canByte f 1 = 1 → Answers (.canAckFrame f) s fun t =>
      t = { s with fieldBus := { s.fieldBus with tx := [], abandoned := ⟨f.bus, x.dst, x.xfer, canByte f 2⟩ :: s.fieldBus.abandoned } }) ∧
    (canByte f 1 = 0 → canByte f 0 ≤ 65 → x.acked ≤ canByte f 0 → canByte f 0 ≤ x.sent → canByte f 0 < x.total → Answers (.canAckFrame f) s fun t =>
      t.fieldBus.out.length = s.fieldBus.out.length + min 8 (x.total - canByte f 0) ∧
      (∃ y, t.fieldBus.tx = [y] ∧ y.acked = canByte f 0 ∧ y.value = x.value ∧ y.sent = canByte f 0 + min 8 (x.total - canByte f 0)) ∧
      t = { s with fieldBus := t.fieldBus })) ∧
  (∀ (bus : Fin 2) (peer : BitVec 7) (xfer : BitVec 9) (x : CanTx), s.fieldBus.tx = [x] → x.bus = bus → x.dst = peer.toNat → x.xfer = xfer.toNat →
    (3 ≤ x.resends → Answers (.canAckTimeout bus peer xfer) s fun t =>
      t = { s with fieldBus := { s.fieldBus with tx := [], abandoned := ⟨bus, x.dst, x.xfer, 0x12⟩ :: s.fieldBus.abandoned } }) ∧
    (x.resends < 3 → Answers (.canAckTimeout bus peer xfer) s fun t =>
      t.fieldBus.out.length = s.fieldBus.out.length + min 8 (x.total - x.acked) ∧ (∃ y, t.fieldBus.tx = [y] ∧ y.acked = x.acked ∧ y.resends = x.resends + 1) ∧
      t = { s with fieldBus := t.fieldBus }))

/-- The device on the field bus (R54, R57): ANNOUNCE and HEARTBEAT frames on each bus that is on, listen-only after a conflict of node IDs, new bit
rates once the response to their commit is sent, and the error state of a bus with its event. -/
def Sys2Proof.Claims.FieldBusAnnouncesAndWatchesItsNode : Prop := ∀ s : State,
  (∀ n, s.fieldBus.started = true → s.fieldBus.listenOnly = false → s.fieldBus.announced = false → n < 3 → Answers (.announce n) s fun t =>
    t = { s with fieldBus := { s.fieldBus with announced := true, listenUntil := s.time.clock + 50000000, out := s.fieldBus.out ++ nodeFrames s 1 0 } }) ∧
  (∀ n, s.fieldBus.started = true → s.fieldBus.listenOnly = false → s.fieldBus.announced = false → 3 ≤ n → Answers (.announce n) s fun t =>
    t.fieldBus = { s.fieldBus with nodeConflict := true, conflicted := true, listenOnly := true } ∧ t.seed.hist.head?.map (·.type) = some 0x12 ∧
    t = { s with fieldBus := t.fieldBus, seed := t.seed, ev := t.ev }) ∧
  (∀ f : CanFrame, busOn s f.bus = true → canIgnored f = false → canKind f = 4 → s.fieldBus.announced = true → s.time.clock ≤ s.fieldBus.listenUntil →
    canSrc f = nodeId s → field f.data.toNat 71 8 ≠ s.fuses.serial.toNat → Answers (.nodeFrame f) s fun t =>
    t.fieldBus = { s.fieldBus with nodeConflict := true, conflicted := true, listenOnly := true } ∧ t.seed.hist.head?.map (·.type) = some 0x12 ∧
    t = { s with fieldBus := t.fieldBus, seed := t.seed, ev := t.ev }) ∧
  (s.fieldBus.announced = true → dparam s 0x0030 4 ≠ 0 → Answers .heartbeat s fun t =>
    t = { s with fieldBus := { s.fieldBus with out := s.fieldBus.out ++ nodeFrames s 2 (s.dir.commits % 2 ^ 64) } }) ∧
  (s.fieldBus.ratePending = true → responseWaits s = true → exec .fieldRateChange s = .next s) ∧
  (s.fieldBus.ratePending = true → responseWaits s = false → Answers .fieldRateChange s fun t =>
    t = { s with fieldBus := { s.fieldBus with arbRate := dparam s 0x0030 1, dataRate := dparam s 0x0030 2, ratePending := false } }) ∧
  ∀ (bus : Fin 2) (st : BusState) (v : Nat), v = (match st with | .active => 0 | .passive => 1 | .off => 2) → bus.val < s.fieldBus.busState.length →
    lget 0 s.fieldBus.busState bus ≠ v → Answers (.fieldBusStateChange bus st) s fun t =>
      lget 0 t.fieldBus.busState bus = v ∧ t.fieldBus = { s.fieldBus with busState := lset s.fieldBus.busState bus v } ∧ Occurs s t (0x011 + bus.val) ∧
      t = { s with fieldBus := t.fieldBus, ev := t.ev }

/-- The two islands (R65, R66): a beacon is heard; a takeover changes the primary, the Wardens and the Seedbank copy in service, loses the open
transactions, keeps every event pending and puts the committed functions on the pins; the former primary rejoins, or stays halted with ISLAND_FAILED. -/
def Obligations.StandbyTakesOverTheBlock : Prop := ∀ s : State,
  (s.und.standbyOk = true → Answers .livenessBeacon s fun t => t = { s with und := { s.und with lastBeacon := s.time.clock } }) ∧
  (∀ cause, s.und.standbyOk = true → s.boot.stage = 10 →
    (match cause with | .beaconLoss => s.und.lastBeacon + 50000 ≤ s.time.clock | .bothHalted => wardenState s = 3 | .roleSwap => s.und.roleSwapPending = true) →
    Answers (.standbyTakeover cause) s fun t =>
      t.und.primary = (if s.und.primary = 0 then 3 else 0) ∧ t.und.failovers = s.und.failovers + 1 ∧ t.und.standbyOk = false ∧
      t.und.wardens = s.und.standby ∧ t.und.standby = s.und.wardens ∧ t.und.formerRestarting = true ∧ t.dir.txns = [] ∧
      t.seed.copyOk = (if s.und.primary = 0 then [false, true] else [true, false]) ∧ t.ev.inService = 0 ∧ t.fieldBus.started = true ∧
      (∀ n, s.ev.pending.getLsbD n = true ∨ s.ev.inService.getLsbD n = true → t.ev.pending.getLsbD n = true) ∧ Occurs s t 2 ∧
      (∀ pin < 40, lget 3 t.und.mioFunc pin = mioCommitted s pin) ∧ t.look = { s.look with now := [], failover := true } ∧
      t = { s with und := t.und, dir := t.dir, seed := t.seed, ev := t.ev, fieldBus := t.fieldBus, look := t.look }) ∧
  (s.und.formerRestarting = true → Answers (.islandSelfTest true) s fun t =>
    t = { s with und := { s.und with formerRestarting := false, standbyOk := true, lastBeacon := s.time.clock, islandFailed := false, standby := [{}, {}] },
                 seed := { s.seed with copyOk := [true, true] } }) ∧
  (s.und.formerRestarting = true → Answers (.islandSelfTest false) s fun t =>
    t.und = { s.und with formerRestarting := false, islandFailed := true } ∧ t.seed.hist.head?.map (·.type) = some 0x11 ∧ Occurs s t 6 ∧
    t = { s with und := t.und, seed := t.seed, ev := t.ev })

/-- Windows, traps and control registers of a Warden (R68–R71): WOPEN and WCLOSE move WPTR and WRES, traps enter window 7 with the state saved and
TEXIT returns, or takes the event that waited, RDCTL and WRCTL move the control registers; a trap in window 7 halts the Warden with its record. -/
def Sys2Proof.Claims.WardenWindowsAndTraps : Prop := ∀ (s : State) (wd : Fin 2) (x : Warden), x = wardenAt s wd → x.halted = false → WardenWhole s wd →
  (x.wptr ≠ 7 → x.wres < 7 → Answers (.wopen wd) s fun t =>
    t = modWarden s wd (fun x => { x with wptr := (x.wptr + 1) % 7, wres := x.wres + 1, pc := x.pc + 4 })) ∧
  (WardenFree s wd → 7 ≤ x.wres → Answers (.wopen wd) s fun t => t = modWarden s wd (fun x => trapped x 0x01 0 0x10000010)) ∧
  (x.wptr ≠ 7 → 1 < x.wres → Answers (.wclose wd) s fun t =>
    t = modWarden s wd (fun x => { x with wptr := (x.wptr + 6) % 7, wres := x.wres - 1, pc := x.pc + 4 })) ∧
  (WardenFree s wd → x.wres ≤ 1 → x.spilled ≠ 0 → Answers (.wclose wd) s fun t => t = modWarden s wd (fun x => trapped x 0x02 0 0x10000020)) ∧
  (WardenFree s wd → x.wres ≤ 1 → x.spilled = 0 → Answers (.wclose wd) s fun t => t = modWarden s wd (fun x => trapped x 0x03 0 0x10000030)) ∧
  (s.ev.late = [] → s.ev.bursts = [] → bestFor s (wd + 1) = none → Answers (.texit wd) s fun t =>
    t = modWarden s wd (fun x => { x with wptr := x.trapWptr, pc := x.trapPc })) ∧
  (∀ src, s.ev.late = [] → x.stores = [] → x.trapWptr ≠ 7 → bestFor s (wd + 1) = some src → Answers (.texit wd) s fun t =>
    wardenAt t wd = trapped { x with wptr := x.trapWptr, pc := x.trapPc } 0x10 (BitVec.ofNat 32 src) 0x10000100 ∧
    t.ev.pending.getLsbD src = false ∧ t.ev.inService.getLsbD src = true ∧ t = { s with und := { s.und with wardens := t.und.wardens }, ev := t.ev }) ∧
  (WardenFree s wd → Answers (.trapSys wd) s fun t => t = modWarden s wd (fun x => trapped x 0x08 0 0x10000080)) ∧
  (x.wptr = 7 → x.stores = [] → Answers (.trapSys wd) s fun t => (wardenAt t wd).halted = true ∧ t.seed.hist.head?.map (·.type) = some 0x10 ∧
    Occurs s t wd ∧ t = { s with und := t.und, seed := t.seed, ev := t.ev, dir := t.dir }) ∧
  (∀ ctl dst, Answers (.rdctl wd ctl dst) s fun t => readReg (wardenAt t wd) (.c 0) = 0 ∧ (dst ≠ .c 0 → readReg (wardenAt t wd) dst = readCtl x ctl) ∧
    (∀ r, r ≠ dst → readReg (wardenAt t wd) r = readReg x r) ∧ (wardenAt t wd).pc = x.pc + 4 ∧
    t = modWarden s wd (fun x => { x with common := (wardenAt t wd).common, windows := (wardenAt t wd).windows, pc := x.pc + 4 })) ∧
  (∀ ctl src, Answers (.wrctl wd ctl src) s fun t => (ctl ∈ [.spillPtr, .spillLimit, .trapPc] → readCtl (wardenAt t wd) ctl = readReg x src) ∧
    (∀ c, c ≠ ctl ∨ c ∉ [.spillPtr, .spillLimit, .trapPc] → readCtl (wardenAt t wd) c = readCtl x c) ∧ (wardenAt t wd).pc = x.pc + 4 ∧
    t = modWarden s wd (fun x => { x with spillPtr := (wardenAt t wd).spillPtr, spillLimit := (wardenAt t wd).spillLimit,
                                          trapPc := (wardenAt t wd).trapPc, pc := x.pc + 4 }))

/-- Loads, stores and window transfers of a Warden (R67, R69, R73): a load reads the bytes at its address, a store waits in the store buffer, WSPILL
writes the oldest resident window below SPILL_LIMIT and WFILL reads it back; an address that is not aligned traps. -/
def Sys2Proof.Claims.WardenMemoryInstructions : Prop := ∀ (s : State) (wd : Fin 2) (x : Warden), x = wardenAt s wd → WardenWhole s wd → x.halted = false →
  (∀ a size dst, x.stores = [] → accessTrap a.toNat (accBytes size) false = none → Answers (.wardenLoad wd a size dst) s fun t =>
    (dst ≠ .c 0 → readReg (wardenAt t wd) dst = BitVec.ofNat 32 (wLoad s wd a.toNat (accBytes size))) ∧ (∀ r, r ≠ dst → readReg (wardenAt t wd) r = readReg x r) ∧
    t = modWarden s wd (fun x => { x with common := (wardenAt t wd).common, windows := (wardenAt t wd).windows, pc := x.pc + 4 })) ∧
  (∀ a size src, x.stores.length < 8 → accessTrap a.toNat (accBytes size) true = none → Answers (.wardenStore wd a size src) s fun t =>
    t = modWarden s wd (fun x => { x with stores := x.stores ++ [(a.toNat, accBytes size, (readReg x src).toNat % 256 ^ accBytes size)], pc := x.pc + 4 })) ∧
  (∀ (a : BitVec 32) src dst, a.toNat % 4 ≠ 0 → WardenFree s wd → ∀ c ∈ [Instr.wardenStore wd a .word src, .wardenLoad wd a .word dst],
    Answers c s fun t => t = modWarden s wd (fun x => trapped x 0x06 a 0x10000060)) ∧
  (∀ p : Nat, x.stores = [] → 1 < x.wres → x.spillPtr.toNat = p → p % 4 = 0 → 0x10000000 ≤ p → p + 64 ≤ 0x10080000 → p + 64 ≤ x.spillLimit.toNat →
    Answers (.wspill wd) s fun t => (∀ k < 16, wLoad t wd (p + 4 * k) 4 = (lget 0 x.windows (16 * ((refWindow x + 8 - x.wres) % 7) + k)).toNat) ∧
      (∀ a, a + 0x10000000 < p ∨ p + 64 ≤ a + 0x10000000 → sget 0 (wardenAt t wd).sram a = sget 0 x.sram a) ∧
      t = modWarden s wd (fun x => { x with sram := (wardenAt t wd).sram, spillPtr := x.spillPtr + 64, wres := x.wres - 1, spilled := x.spilled + 1, pc := x.pc + 4 })) ∧
  (∀ p : Nat, x.stores = [] → x.wres < 7 → x.spilled ≠ 0 → x.spillPtr.toNat = p + 64 → p % 4 = 0 → 0x10000000 ≤ p → p + 64 ≤ 0x10080000 →
    Answers (.wfill wd) s fun t =>
      (∀ k < 16, lget 0 (wardenAt t wd).windows (16 * ((refWindow x + 7 - x.wres) % 7) + k) = BitVec.ofNat 32 (wLoad s wd (p + 4 * k) 4)) ∧
      (∀ n, n / 16 ≠ (refWindow x + 7 - x.wres) % 7 → lget 0 (wardenAt t wd).windows n = lget 0 x.windows n) ∧
      t = modWarden s wd (fun x => { x with windows := (wardenAt t wd).windows, spillPtr := x.spillPtr - 64, wres := x.wres + 1, spilled := x.spilled - 1, pc := x.pc + 4 }))

/-- Events and Wardens (R70, R86, R87): a Warden takes the lowest-numbered eligible source routed to it, with PENDING cleared, IN_SERVICE set and the
source in TRAP_INFO; EV_EOI ends its service; a mask word writes bit 0 of the CONFIG of its 32 sources. -/
def Sys2Proof.Claims.WardensTakeAndMaskEvents : Prop := ∀ (s : State) (wd : Fin 2),
  (∀ src, WardenFree s wd → WardenWhole s wd → s.ev.late = [] → bestFor s (wd + 1) = some src → Answers (.eventTrap wd) s fun t =>
    wardenAt t wd = trapped (wardenAt s wd) 0x10 (BitVec.ofNat 32 src) 0x10000100 ∧
    t.ev.pending.getLsbD src = false ∧ t.ev.inService.getLsbD src = true ∧ lget 0 t.ev.lastTaken wd = lget 0 (lset s.ev.lastTaken wd src) wd ∧
    (∀ n, n ≠ src → t.ev.pending.getLsbD n = s.ev.pending.getLsbD n ∧ t.ev.inService.getLsbD n = s.ev.inService.getLsbD n) ∧
    t = { modWarden s wd (fun x => trapped x 0x10 (BitVec.ofNat 32 src) 0x10000100) with ev := t.ev }) ∧
  (∀ val : BitVec 32, Answers (.evEoi wd val) s fun t => t.ev.inService.getLsbD (val.toNat % 1024) = false ∧
    (∀ n, n ≠ val.toNat % 1024 → t.ev.inService.getLsbD n = s.ev.inService.getLsbD n) ∧ t = { s with ev := { s.ev with inService := t.ev.inService } }) ∧
  ∀ (word : Fin 32) (val : BitVec 32), Answers (.evMaskWrite wd word val) s fun t =>
    (∀ n < 1024, evConfig t n = if n / 32 = word.val then putBit (evConfig s n) 0 (bitOf val.toNat (n % 32)) else evConfig s n) ∧
    t = { s with dir := { s.dir with params := t.dir.params }, ev := { s.ev with late := t.ev.late } }

/-- Pins (R76, R77, R79): a pin whose committed function is not in force starts its switch: the old function is disconnected, the level latched, and a
transfer that the old function has in progress is aborted; deferred pins switch once the response to their commit is sent, or 5 ms after it. -/
def Sys2Proof.Claims.PinSwitchesStartFromTheOldFunction : Prop := ∀ (s : State), s.und.mioFunc.length = 40 →
  (∀ (pin : Fin 40) busy, (∀ d ∈ s.und.mioDeferred, d.1 ≠ pin.val) → lget 3 s.und.mioFunc pin ≠ mioCommitted s pin → Answers (.mioFuncSwitch ⟨pin, busy⟩) s fun t =>
    (∃ w, sfind t.und.mioSwitch pin = some w ∧ w.cycle = 0 ∧ w.old = lget 3 s.und.mioFunc pin ∧ w.new = mioCommitted s pin ∧
      (∀ b, mioDrive s pin = some b → w.level = b ∧ w.enable = true) ∧ (mioDrive s pin = none → w.level = bitOf s.und.mioIn pin ∧ w.enable = false)) ∧
    t.und.mioFunc = lset s.und.mioFunc pin (mioCommitted s pin) ∧
    (∀ c, (mioSignal pin (lget 3 s.und.mioFunc pin)).bind mioController = some c → busy = true →
      bitOf t.und.mioAborts c = true ∧ t.und.mioAborted = c :: s.und.mioAborted ∧ Occurs s t 0x010) ∧
    t = { s with und := t.und, fieldBus := { s.fieldBus with out := t.fieldBus.out }, ev := t.ev }) ∧
  (∀ (pin : Fin 40) busy, (∀ d ∈ s.und.mioDeferred, d.1 ≠ pin.val) → lget 3 s.und.mioFunc pin = mioCommitted s pin →
    exec (.mioFuncSwitch ⟨pin, busy⟩) s = .next { s with und.mioLatch := sdel s.und.mioLatch pin }) ∧
  (∀ (pin : Fin 40) busy d, d ∈ s.und.mioDeferred → d.1 = pin.val → exec (.mioFuncSwitch ⟨pin, busy⟩) s = .next s) ∧
  (responseWaits s = false ∨ (∀ d ∈ s.und.mioDeferred, d.2 + 5000000 ≤ s.time.clock) → Answers .fieldPinSwitchDeferred s fun t =>
    t.und.mioDeferred = [] ∧ (∀ d ∈ s.und.mioDeferred, d.1 < 40 → lget 3 t.und.mioFunc d.1 = mioCommitted s d.1) ∧
    t = { s with und := t.und, fieldBus := { s.fieldBus with out := t.fieldBus.out }, ev := t.ev }) ∧
  (responseWaits s = true → (∀ d ∈ s.und.mioDeferred, s.time.clock < d.2 + 5000000) → exec .fieldPinSwitchDeferred s = .next s)

/-- Occurrences (R83): an occurrence of an enabled source sets PENDING; one that finds PENDING set sets OVERRUN and counts it; a disabled or
reserved source changes nothing; a completion source has met its condition at COUNT occurrences, or TIME after the first undelivered one (R88). -/
def Sys2Proof.Claims.OccurrencesPendOverrunAndCoalesce : Prop := ∀ (s : State) (src : Fin 1024),
  (sourceReserved src = true ∨ bitOf (evConfig s src) 1 = false → exec (.eventOccurrence src) s = .next s) ∧
  (sourceReserved src = false → bitOf (evConfig s src) 1 = true → Answers (.eventOccurrence src) s fun t =>
    (∀ n, t.ev.pending.getLsbD n = (s.ev.pending.getLsbD n || decide (n = src.val))) ∧
    (s.ev.pending.getLsbD src = true → t.ev.overruns = s.ev.overruns + 1 ∧ t.ev.overrun.getLsbD src = true) ∧
    (s.ev.pending.getLsbD src = false → t.ev.overruns = s.ev.overruns ∧ t.ev.overrun = s.ev.overrun) ∧
    (src.val < 0x200 → t = { s with ev := { s.ev with pending := t.ev.pending, overrun := t.ev.overrun, overruns := t.ev.overruns } }) ∧
    (0x200 ≤ src.val → sget 0 t.ev.count src = sget 0 s.ev.count src + 1 ∧
      sfind t.ev.firstAt src = some ((sfind s.ev.firstAt src).getD s.time.clock) ∧
      sfind t.ev.due src = some ((sfind s.ev.firstAt src).getD s.time.clock + 1000 * field (evConfig s src) 31 16) ∧
      (field (evConfig s src) 15 8 ≤ sget 0 t.ev.count src → src.val ∈ t.ev.met) ∧
      t = { s with ev := { s.ev with pending := t.ev.pending, overrun := t.ev.overrun, overruns := t.ev.overruns, count := t.ev.count,
                                     firstAt := t.ev.firstAt, due := t.ev.due, met := t.ev.met } })) ∧
  (∀ d, 0x200 ≤ src.val → sfind s.ev.due src = some d → d ≤ s.time.clock → Answers (.coalesceTimeout src) s fun t =>
    (∀ n, n ∈ t.ev.met ↔ n ∈ s.ev.met ∨ n = src.val) ∧ t = { s with ev := { s.ev with met := t.ev.met } }) ∧
  (∀ d, sfind s.ev.due src = some d → s.time.clock < d → exec (.coalesceTimeout src) s = .next s)

/-- Delivery (R84, R85, R89): a host port's engine delivers the lowest-numbered eligible source routed to it: PENDING clears, and the message is sent,
or sets its vector's bit of the Pending Bit Array while that is masked; with none eligible nothing happens; an expired hold-off opens its group, whose
waiting sources are then eligible. -/
def Sys2Proof.Claims.DeliveryIssuesTheLowestEligibleSource : Prop := ∀ s : State,
  (∀ (port : Fin 2) src, s.ev.late = [] → bestFor s (port + 3) = some src → Answers (.msixDelivery port) s fun t =>
    (∀ fn vec, fn = field (evRoute s src) 10 3 → vec = field (evRoute s src) 21 11 →
      (vectorMasked s (73 * port + fn) vec = false → t.ev.sent = ⟨port, fn, vec⟩ :: s.ev.sent ∧ t.ev.pba = s.ev.pba) ∧
      (vectorMasked s (73 * port + fn) vec = true → (∀ n, n ∈ t.ev.pba ↔ n ∈ s.ev.pba ∨ n = 320 * (73 * port + fn) + vec) ∧ t.ev.sent = s.ev.sent)) ∧
    (∀ n, t.ev.pending.getLsbD n = (s.ev.pending.getLsbD n && decide (n ≠ src))) ∧ t.ev.inService = s.ev.inService ∧ t = { s with ev := t.ev }) ∧
  (∀ port : Fin 2, s.ev.late = [] → s.ev.bursts = [] → bestFor s (port + 3) = none → exec (.msixDelivery port) s = .next s) ∧
  (∀ (g : Fin 64) h, sfind s.ev.held g = some h → h.until_ ≤ s.time.clock → (∀ n < 1024, s.ev.pending.getLsbD n = true → evGroup s n ≠ g.val) →
    exec (.holdoffExpiry g) s = .next { s with ev := { s.ev with held := sdel s.ev.held g, bursts := sdel s.ev.bursts g } }) ∧
  (∀ (g : Fin 64) h, sfind s.ev.held g = some h → s.time.clock < h.until_ → exec (.holdoffExpiry g) s = .next s) ∧
  (∀ (g : Fin 64) h (src : Nat), sfind s.ev.held g = some h → h.until_ ≤ s.time.clock → src < 1024 → ready s src = true → evGroup s src = g.val →
    Answers (.holdoffExpiry g) s fun t => eligible t src = true ∧ t = { s with ev := { s.ev with held := sdel s.ev.held g, bursts := t.ev.bursts } })

/-- Configuration writes on a port in L0 (R85, R233): BAR2 sizes, VFs enabled, MSI-X Enable, and the masks; a write sends one message for each
vector of the Pending Bit Array that neither a mask nor a cleared MSI-X Enable holds any longer (in ascending order: the model's choice, log entry 35). -/
def Sys2Proof.Claims.ConfigurationWritesTakeEffect : Prop := ∀ (s : State) (port : Fin 2), lget false s.boot.hostL0 port = true →
  (∀ k < 14, Answers (.configSpaceWrite port 0 (.bar2Size (256 * 2 ^ k))) s fun t =>
    t = { s with pcie := { s.pcie with bar2 := lset s.pcie.bar2 port (256 * 2 ^ k) } }) ∧
  (∀ k < 14, Answers (.configSpaceWrite port 0 (.vfBar2Size (256 * 2 ^ k))) s fun t =>
    t = { s with pcie := { s.pcie with vfBar2 := lset s.pcie.vfBar2 port (256 * 2 ^ k) } }) ∧
  (∀ n, Answers (.configSpaceWrite port 0 (.vfEnable n)) s fun t => t = { s with pcie := { s.pcie with vfs := lset s.pcie.vfs port n.val } }) ∧
  (∀ (fn : Fin 73) on, Answers (.configSpaceWrite port fn (.msixEnable on)) s fun t => (73 * port.val + fn.val ∈ t.ev.msixEnable ↔ on = true) ∧
    (∀ f, f ≠ 73 * port.val + fn.val → (f ∈ t.ev.msixEnable ↔ f ∈ s.ev.msixEnable)) ∧
    t.ev.pba = s.ev.pba.filter (pbaHeld t) ∧ t.ev.sent = releasedMsgs s t ++ s.ev.sent ∧
    t = { s with ev := { s.ev with msixEnable := t.ev.msixEnable, pba := t.ev.pba, sent := t.ev.sent } }) ∧
  (∀ (fn : Fin 73) on, Answers (.configSpaceWrite port fn (.fnMask on)) s fun t => (73 * port.val + fn.val ∈ t.ev.fnMask ↔ on = true) ∧
    t.ev.pba = s.ev.pba.filter (pbaHeld t) ∧ t.ev.sent = releasedMsgs s t ++ s.ev.sent ∧
    t = { s with ev := { s.ev with fnMask := t.ev.fnMask, pba := t.ev.pba, sent := t.ev.sent } }) ∧
  ∀ (fn : Fin 73) v on, fn.val = 0 ∨ v.val < 24 → Answers (.configSpaceWrite port fn (.vecMask v on)) s fun t =>
    (320 * (73 * port.val + fn.val) + v.val ∈ t.ev.vecUnmasked ↔ on = false) ∧
    t.ev.pba = s.ev.pba.filter (pbaHeld t) ∧ t.ev.sent = releasedMsgs s t ++ s.ev.sent ∧
    t = { s with ev := { s.ev with vecUnmasked := t.ev.vecUnmasked, pba := t.ev.pba, sent := t.ev.sent } }

/-! ## Sleep, wake and groves in service (chapter 6) -/

/-- Sleep entry (R102, R103, R105): a device with nothing to do for IDLE_DELAY begins an entry; at the commit point IDLE is entered, or an entry to
DORMANT stops host-port intake; DORMANT leaves groves, engines, instances, links and cached lines without power and keeps rings and parked stands;
LPDDR is in self-refresh, or in deep sleep loses its contents, the handle tables and the stored image. -/
def Sys2Proof.Claims.SleepIsEnteredFromIdleness : Prop := ∀ s : State,
  (isReady s = true → sleepReady s = true → dparam s 0x1240 3 ≠ 0 → s.power.entry = none → s.power.mode = .running → s.power.committed = none →
    Answers .idleDelayExpiry s fun t => t = { s with power := { s.power with entry := some ⟨false, 0⟩ } }) ∧
  (∀ n, s.power.entry = some ⟨false, n⟩ → Answers .sleepCommitPoint s fun t =>
    t = { s with power := { s.power with entry := none, sleepOutcome := 1, wakeCause := 0, mode := .idle, lpddrSleep := 1 }, ports := t.ports } ∧
    ∀ p < 48, (mport t p).selfRefresh = portRanks s ∧ (mport t p).wckSynced = []) ∧
  (∀ n, s.power.entry = some ⟨true, n⟩ → Answers .sleepCommitPoint s fun t =>
    t = { s with power := { s.power with entry := none, sleepOutcome := 1, wakeCause := 0, committed := some true, intakeStopped := true },
                 trail := { s.trail with halted := true } }) ∧
  (s.power.committed = some true → Answers .dormantEntry s fun t =>
    t.power.mode = .dormant ∧ t.power.committed = none ∧ t.power.dormantAt = s.time.clock ∧ t.power.lpddrSleep = (if dparam s 0x1240 4 = 1 then 2 else 1) ∧
    t.pins = { s.pins with mainpwrEn := some false } ∧ t.und.standbyOk = false ∧ t.boot.hostL0 = [false, false] ∧ t.boot.stage = 0 ∧
    t.seed = { s.seed with training := some ⟨s.mem.density, s.mem.ranks⟩ } ∧ t.root.insts = [] ∧ t.root.requests = [] ∧ t.gr.cores = [] ∧ t.gr.groves = [] ∧
    t.canopy.copies = [] ∧ t.rows.staged = [] ∧ t.thk.prefetch = [] ∧ t.fab.usable = [] ∧ t.stands = s.stands ∧ t.dir = s.dir ∧
    t.time = s.time ∧ t.look = s.look ∧
    (dparam s 0x1240 4 = 1 → t.trail = { s.trail with handles := [], clears := [] } ∧ t.mem.bytes = [] ∧ t.boot.stored = []) ∧
    (dparam s 0x1240 4 ≠ 1 → t.trail = s.trail ∧ t.boot.stored = s.boot.stored ∧ ∀ p < 48, (mport t p).selfRefresh = portRanks s ∧ (mport t p).wckSynced = []))

/-- Wakes and exit (R102, R104): work wakes an IDLE device and aborts an entry before its commit point; an enabled PERST#, GPIO or timer wake of a DORMANT
device is kept with its cause, and the exit powers the device and starts it at stage 6, or at stage 3 where LPDDR was lost. -/
def Sys2Proof.Claims.WakesEndSleep : Prop := ∀ s : State,
  (∀ e, s.power.entry = some e → s.power.committed = none → s.power.mode = .running → Answers .workWake s fun t =>
    t = { s with power := { s.power with entry := none, sleepOutcome := 2, wakeCause := 5 } }) ∧
  (s.power.mode = .idle → s.power.entry = none → s.power.committed = none → Answers .workWake s fun t =>
    t = { s with power := { s.power with mode := .running, lpddrSleep := 0, wakeCause := 5 }, ports := t.ports } ∧
    ∀ p < 48, (mport t p).selfRefresh = [] ∧ (mport t p).wckSynced = portRanks s) ∧
  (s.power.mode = .dormant → s.power.entry = none → s.power.committed = none → s.power.wakeAfter = false →
    (∀ port : Fin 2, lget false s.pins.perst port = false → bitOf (dparam s 0x1240 5) 1 = true → Answers (.perstWake port) s fun t =>
      t = { s with pins := { s.pins with perst := lset s.pins.perst port true }, power := { s.power with wakeAfter := true, wakeCause := 2 } }) ∧
    (∀ (pin : Fin 40) (rising : Bool) (g : Nat), dparam s 0x1240 6 = g → g % 4 < 3 → pin.val = 37 + g % 4 → g / 4 % 2 = (if rising then 1 else 0) →
      bitOf s.und.mioIn pin ≠ rising → isGpio pin (mioCommitted s pin) = true → bitOf (dparam s 0x1240 5) 2 = true → Answers (.gpioWake pin rising) s fun t =>
      t = { s with und := { s.und with mioIn := putBit s.und.mioIn pin rising }, power := { s.power with wakeAfter := true, wakeCause := 3 } }) ∧
    (dparam s 0x1240 7 ≠ 0 → bitOf (dparam s 0x1240 5) 3 = true → s.power.dormantAt + 1000000000 * dparam s 0x1240 7 ≤ s.time.clock → Answers .wakeTimerExpiry s fun t =>
      t = { s with power := { s.power with wakeAfter := true, wakeCause := 4 } })) ∧
  (s.power.mode = .dormant → s.power.wakeAfter = true → s.pins.tripped = false → Answers .dormantExit s fun t =>
    t.power = { s.power with mode := .running, wakeAfter := false, intakeStopped := false } ∧ t.boot.stage = (if s.power.lpddrSleep = 2 then 2 else 5) ∧
    t.boot.cause = 10 ∧ t.boot.kind = (if s.power.lpddrSleep = 2 then .dormantLost else .dormantKept) ∧ t.boot.image = none ∧
    t.pins = { s.pins with mainpwrEn := some true, wakeAsserted := decide (s.power.wakeCause ≠ 2) } ∧ t.und.standbyOk = !s.und.islandFailed ∧
    t.seed = { s.seed with incarnation := t.seed.incarnation } ∧ t.seed.incarnation ≠ 0 ∧ t.trail = s.trail ∧ t.stands = s.stands ∧ t.dir = s.dir ∧ t.mem = s.mem)

/-- No message of the directory protocol is on its way, no transaction open and no request queued. -/
def Sys2Proof.Claims.Settled (s : State) : Prop := s.canopy.flights = [] ∧ s.canopy.homes = [] ∧ s.canopy.queue = []

/-- Groves on their way (R98, R168, R291): at a step boundary a leaving grove takes no more tasks, and once those it runs are finished it is free of its
partition, and zeroes its store, or is power-gated when it is disabled; a grove powered up or zeroed has a store of zeros and waits for admission to the
partition it is to serve. -/
def Sys2Proof.Claims.GrovesJoinAndLeaveAtBoundaries : Prop := ∀ (s : State) (g : Fin 432),
  (∀ p, sfind s.groves.departing g = some p ∨ (sfind s.groves.departing g = none ∧ sfind s.groves.leaving g = some p ∧ sfind s.stands.lists p = none ∧
      mayLeave s p = true) → groveRuns s g = false → Settled s → Answers (.groveLeave g) s fun t =>
    sfind t.groves.leaving g = none ∧ sfind t.groves.departing g = none ∧ sfind t.root.queues g = none ∧ sfind t.trk.grove g = none ∧
    (groveEnabled s g = true → sfind t.groves.joining g = some .zeroing ∧ t.groves.gated = s.groves.gated) ∧
    (groveEnabled s g = false → sfind t.groves.joining g = none ∧ g.val ∈ t.groves.gated ∧ t.free = s.free + 1) ∧
    t = { s with groves := t.groves, mem := { s.mem with bytes := t.mem.bytes }, canopy := t.canopy, root := t.root, gr := t.gr, trk := t.trk,
                 free := t.free }) ∧
  (∀ p, sfind s.groves.departing g = none → sfind s.groves.leaving g = some p → sfind s.stands.lists p = none → mayLeave s p = true → groveRuns s g = true →
    Answers (.groveLeave g) s fun t => sfind t.groves.leaving g = none ∧ sfind t.groves.departing g = some p ∧ sfind t.root.queues g = none ∧
    t = { s with groves := { s.groves with leaving := t.groves.leaving, departing := t.groves.departing }, root := t.root }) ∧
  (∀ c st, (c = .grovePowerUpDone g ∧ st = .powering) ∨ (c = .groveZeroed g ∧ st = .zeroing) → sfind s.groves.joining g = some st → Answers c s fun t =>
    (∀ a, scratchByte g (groveOf t g) a = 0) ∧ (∀ h, h ≠ g.val → groveOf t h = groveOf s h) ∧ (groveOf t g).flags = (groveOf s g).flags ∧
    sfind t.groves.joining g = (if (groveTarget s g).isSome then some .waiting else none) ∧
    t = { s with groves := { s.groves with joining := t.groves.joining }, gr := { s.gr with groves := t.gr.groves } })

/-! ## The Trailhead (chapter 8) -/

namespace Sys2Proof.Claims

/-- The command of a ring and sequence number may begin with an opcode, everything of the ring that can be decided is decided, and no other command
in flight has its number. -/
def Begins (s : State) (ring : Nat) (seq : BitVec 64) (op : Nat) (c : Cmd) : Prop :=
  begin? s ring seq op = (s, some c) ∧ ∀ d ∈ s.trail.cmds, d.ring = ring → d.seq = seq → d.dup = false → d = c

/-- The command's outcome is known: status, AUX and record flags, with those of a re-run and of a resent operation (Table 8-6). -/
def Done (t : State) (ring : Nat) (seq : BitVec 64) (c : Cmd) (st aux fl : Nat) : Prop :=
  ∃ d, cmdOf t ring seq = some d ∧ d.entry = c.entry ∧ d.result = some ⟨st, aux, fl + (if c.rerun then 2 else 0) + (if c.resent then 8 else 0)⟩

/-- The command has begun and has no outcome yet. -/
def Waits (t : State) (ring : Nat) (seq : BitVec 64) : Prop := ∃ d, cmdOf t ring seq = some d ∧ d.begun = true ∧ d.result = none

/-- The state with the commands in flight of another. -/
def cmdsFrom (s t : State) : State := { s with trail := { s.trail with cmds := t.trail.cmds } }

/-- No line of memory is cached or under way in the directory protocol, none hides an error in its cells, and no memory port is fenced. -/
def Uncached (s : State) : Prop :=
  s.canopy.lines = [] ∧ s.canopy.copies = [] ∧ Settled s ∧ s.mem.latent = [] ∧ ∀ p < 48, (unitSum s (unitPort p)).state ≠ 2

/-- The state with what another holds in memory, caches and counters: what a write there may change. -/
def written (s t : State) : State := { s with mem := t.mem, canopy := t.canopy, trk := t.trk, ev := t.ev }

/-- The state with the counters of another, and their events: what a read of memory changes where nothing is cached. -/
def counted (s t : State) : State := { s with trk := t.trk, ev := t.ev }

/-- The state with what transactions of the directory protocol may change besides: the ports' error counts and draws of open values. -/
def accessed (s t : State) : State := { written s t with ports := t.ports, free := t.free }

/-- The bytes of memory of `t` are those of `s` with `bs` at `a`. -/
def Stored (s t : State) (a : Nat) (bs : List Byte) : Prop :=
  ∀ x, memByte t.mem.bytes x = if a ≤ x ∧ x < a + bs.length then lget 0 bs (x - a) else memByte s.mem.bytes x

/-- The ring stops with an error code (R136). -/
def Stopped (s t : State) (r : Nat) (part code : Nat) : Prop :=
  (∃ x, ringOf t r = some x ∧ x.state = 3 ∧ x.err = code) ∧ (part < 72 → Occurs s t (0x154 + 2 * part))

end Sys2Proof.Claims

/-- Doorbells and stop records (R127, R128, R136): a full SQ_TAIL write in range moves SQ_TAIL and makes entries fetchable, one out of range stops the ring
with DOORBELL, CQ_HEAD frees slots, dropped doorbells are counted, and a waiting stop record is written when a slot is free. -/
def Sys2Proof.Claims.DoorbellsMoveTailAndHead : Prop := ∀ (s : State) (d : Doorbell),
  (doorbellsOpen s = false → ∀ c ∈ [Instr.sqTailDoorbell d, .cqHeadDoorbell d],
    exec c s = .next { s with power := { s.power with doorbellsDropped := s.power.doorbellsDropped + 1 } }) ∧
  (doorbellsOpen s = true → (d.full = false ∨ doorbellRing s d = none) → ∀ c ∈ [Instr.sqTailDoorbell d, .cqHeadDoorbell d], Answers c s fun t =>
    t = { s with power := t.power, ports := t.ports, trail := { s.trail with dbDropped := s.trail.dbDropped + 1 } }) ∧
  (∀ ring, doorbellsOpen s = true → d.full = true → doorbellRing s d = some ring →
    ((d.value - ring.sqHead).toNat ≤ depth ring → (d.value - ring.sqTail).toNat ≤ depth ring → Answers (.sqTailDoorbell d) s fun t =>
      ringOf t d.page = some { ring with sqTail := d.value } ∧
      (d.value ≠ ring.sqTail → (sget [] t.trail.doorbells d.page).getLast? = some ⟨(d.value - ring.sqTail).toNat, s.time.clock, second s⟩) ∧
      t = { s with power := t.power, ports := t.ports, trail := { s.trail with rings := t.trail.rings, doorbells := t.trail.doorbells } }) ∧
    (depth ring < (d.value - ring.sqHead).toNat → ring.state = 1 → Answers (.sqTailDoorbell d) s fun t => Stopped s t d.page ring.part 3 ∧
      t.boot = s.boot ∧ t.dir = s.dir ∧ t.stands = s.stands ∧ t.root = s.root) ∧
    ((d.value - ring.cqHead).toNat ≤ (ring.cqTail - ring.cqHead).toNat → ring.stopRec = none → Answers (.cqHeadDoorbell d) s fun t =>
      ringOf t d.page = some { ring with cqHead := d.value } ∧
      t = { s with power := t.power, ports := t.ports, trail := { s.trail with rings := t.trail.rings } })) ∧
  (∀ (r : Fin 4096) ring st seq, ringOf s r = some ring → ring.isLocal = false → ring.stopRec = some (st, seq) → slotFree s r ring = true → ring.source < 512 →
    Answers (.stopRecordWrite r) s fun t =>
      t.posted = (ring.port, ring.fn, ring.cqBase + 16 * (ring.cqTail.toNat % depth ring), recordBytes ring seq ⟨st, 0, 0⟩) :: s.posted ∧
      ringOf t r = some { ring with cqTail := ring.cqTail + 1, stopRec := none } ∧ Occurs s t (0x200 + ring.source) ∧
      t = { s with trail := { s.trail with rings := t.trail.rings }, posted := t.posted, ev := t.ev })

/-- Fetch (R129, R135, R137, R141): an entry with the expected sequence number is taken, and a broken opcode ends it where no earlier command of the ring
is without its record; a smaller number is a DUPLICATE, a
larger one or a read error stops the ring; run-ahead relocates the handles of a command that is not decided yet. -/
def Obligations.FetchTakesEntriesInSequence : Prop := ∀ (s : State) (r : Fin 4096) (ring : Ring), ringOf s r = some ring → ring.isLocal = false →
  (∀ (e : BitVec 512) (seq : BitVec 64), mayFetch s r ring = true → BitVec.ofNat 64 (cf e.toNat 7 0) = seq →
    (seq = ring.nextSeq → cmdOf s r seq = none → Answers (.commandFetch r (.entry e)) s fun t =>
      (∃ c ∈ t.trail.cmds, c.ring = r ∧ c.seq = seq ∧ c.entry = e ∧ c.part = ring.part ∧ c.dup = false ∧ c.fetchDev = s.time.dev ∧
        (opcodeOf e.toNat ∉ opcodes → (∀ d ∈ s.trail.cmds, d.ring ≠ r) → c.result = some ⟨stBadOpcode, 0, 0⟩)) ∧
      ringOf t r = some { ring with sqHead := ring.sqHead + 1, nextSeq := ring.nextSeq + 1 } ∧ t.trail.cmds.length = s.trail.cmds.length + 1 ∧
      t = { s with trail := t.trail, stands := { s.stands with fetched := s.stands.fetched + 1 }, look := t.look }) ∧
    (seq.toNat < ring.nextSeq.toNat → Answers (.commandFetch r (.entry e)) s fun t =>
      (∃ c, t.trail.cmds = s.trail.cmds ++ [c] ∧ c.dup = true ∧ c.seq = seq ∧ c.result = some ⟨stDuplicate, 0, 0⟩) ∧
      ringOf t r = some { ring with sqHead := ring.sqHead + 1 } ∧
      t = { s with trail := t.trail, stands := { s.stands with fetched := s.stands.fetched + 1 } }) ∧
    (ring.nextSeq.toNat < seq.toNat → Answers (.commandFetch r (.entry e)) s fun t => Stopped s t r ring.part 2 ∧ t.trail.cmds = s.trail.cmds)) ∧
  (mayFetch s r ring = true → Answers (.commandFetch r .err) s fun t => Stopped s t r ring.part 4 ∧ t.trail.cmds = s.trail.cmds) ∧
  (∀ c rs, s.trail.cmds = [c] → c.ring = r → c.dup = false → c.begun = false → c.result = none → c.decided = false → c.relocs = none → c.shadowErr = none →
    relocateAll s c.part c.entry.toNat (handleFields s c.part c.entry.toNat) = .ok rs → Answers (.runAheadDecode r) s fun t =>
    t = { s with trail := { s.trail with cmds := [{ c with relocs := some rs }] } })

/-- Every command of a ring is decided, or its outcome is known. -/
def Sys2Proof.Claims.AllDecided (s : State) (r : Nat) : Prop := ∀ d ∈ s.trail.cmds, d.ring = r → d.dup = false → d.decided = true ∨ d.result.isSome = true

/-- Completion (R138, R139, R141): the record of a command whose outcome is known is written in the CQ slot at CQ_TAIL, the CSW covers it, and the ring's
completion source occurs once; a DUPLICATE is recorded and counted and leaves the CSW. -/
def Sys2Proof.Claims.CompletionWritesRecordThenStatusWord : Prop := ∀ (s : State) (r : Fin 4096) (seq : BitVec 64) (ring : Ring) (c : Cmd) (res : CmdResult),
  ringOf s r = some ring → ring.isLocal = false → ring.state ≠ 2 → ring.source < 512 → recordable s r seq = some c → c.result = some res → AllDecided s r →
  (c.dup = false → isHandleCmd c = false → opcodeOf c.entry.toNat ≠ 0x11 → seq = ring.csw + 1 → seq.toNat ≠ 0 → ring.written = [] → Answers (.completionWrite r seq) s fun t =>
    t.posted = (ring.port, ring.fn, ring.cswAddr, leBytes 8 seq.toNat) ::
      (ring.port, ring.fn, ring.cqBase + 16 * (ring.cqTail.toNat % depth ring), recordBytes ring seq res) :: s.posted ∧
    ringOf t r = some { ring with cqTail := ring.cqTail + 1, csw := seq } ∧ t.trail.cmds = s.trail.cmds.erase c ∧ Occurs s t (0x200 + ring.source) ∧
    t = { s with trail := { s.trail with rings := t.trail.rings, cmds := t.trail.cmds }, posted := t.posted, ev := t.ev, look := t.look }) ∧
  (c.dup = true → Answers (.completionWrite r seq) s fun t =>
    t.posted = (ring.port, ring.fn, ring.cqBase + 16 * (ring.cqTail.toNat % depth ring), recordBytes ring seq res) :: s.posted ∧
    ringOf t r = some { ring with cqTail := ring.cqTail + 1 } ∧ t.trail.cmds = s.trail.cmds.erase c ∧ t.trail.duplicates = s.trail.duplicates + 1 ∧
    Occurs s t (0x200 + ring.source) ∧
    t = { s with trail := { s.trail with rings := t.trail.rings, cmds := t.trail.cmds, duplicates := t.trail.duplicates }, posted := t.posted, ev := t.ev, look := t.look })

/-- NOP, HANDLE_SET and HANDLE_CLEAR (R131–R133, R137): the outcome of a set is the handle with the entry's GEN, or HANDLE_IN_USE where the entry is VALID; as
its record is written the entry is. A clear waits for every command that relocated the handle before it; as it completes, the entry is not VALID and its GEN
advances. That entries change with the record is the model's reading (log entry 98). -/
def Obligations.HandleCommandsSetAndClearEntries : Prop := ∀ (s : State) (r : Fin 4096) (seq : BitVec 64) (c : Cmd) (e i : Nat), e = c.entry.toNat →
  i = handleCmdIndex c →
  (Begins s r seq 0x01 c → Answers (.nopCmd r seq) s fun t => Done t r seq c stOk 0 0 ∧ t = cmdsFrom s t) ∧
  (Begins s r seq 0x08 c →
    ((hEntry s c.part i).valid = false → Answers (.handleSet r seq) s fun t => Done t r seq c stOk ((hEntry s c.part i).gen * 2 ^ 20 + i) 0 ∧ t = cmdsFrom s t) ∧
    ((hEntry s c.part i).valid = true → Answers (.handleSet r seq) s fun t => Done t r seq c stInUse 0 0 ∧ t = cmdsFrom s t)) ∧
  (Begins s r seq 0x09 c → Answers (.handleClear r seq) s fun t => Done t r seq c stOk 0 0 ∧ t = cmdsFrom s t) ∧
  (∀ (ring : Ring) (res : CmdResult), ringOf s r = some ring → ring.isLocal = false → ring.state ≠ 2 → ring.source < 512 → cmdOf s r seq = some c →
    c.result = some res → res.status = stOk → AllDecided s r → seq = ring.csw + 1 → seq.toNat ≠ 0 → ring.written = [] →
    (opcodeOf e = 0x08 → (hEntry s c.part i).valid = false → Answers (.completionWrite r seq) s fun t =>
      hEntry t c.part i = { base := cf e 31 24 % 2 ^ 48, length := cf e 39 32 % 2 ^ 44, gen := (hEntry s c.part i).gen, kind := cf e 40 40,
                            rights := cf e 41 41 % 8, valid := true, object := cf e 47 44 } ∧
      (∀ p j, p < 72 → j < 2 ^ 20 → ¬(p = c.part ∧ j = i) → hEntry t p j = hEntry s p j) ∧
      (ring.port, ring.fn, ring.cqBase + 16 * (ring.cqTail.toNat % depth ring),
        recordBytes ring seq ⟨stOk, (hEntry s c.part i).gen * 2 ^ 20 + i, 0⟩) ∈ t.posted ∧
      t = { s with trail := { s.trail with cmds := t.trail.cmds, handles := t.trail.handles, rings := t.trail.rings }, posted := t.posted, ev := t.ev,
                   look := t.look }) ∧
    (opcodeOf e = 0x09 → clearFree s c = false → exec (.completionWrite r seq) s = .next s) ∧
    (opcodeOf e = 0x09 → clearFree s c = true → (hEntry s c.part i).valid = true → (hEntry s c.part i).gen = hGen (cf e 19 16) →
      Answers (.completionWrite r seq) s fun t =>
      hEntry t c.part i = { hEntry s c.part i with valid := false, gen := if (hEntry s c.part i).gen = 255 then 1 else (hEntry s c.part i).gen + 1 } ∧
      (∀ p j, p < 72 → j < 2 ^ 20 → ¬(p = c.part ∧ j = i) → hEntry t p j = hEntry s p j) ∧
      (ring.port, ring.fn, ring.cqBase + 16 * (ring.cqTail.toNat % depth ring), recordBytes ring seq res) ∈ t.posted ∧
      t = { s with trail := { s.trail with cmds := t.trail.cmds, handles := t.trail.handles, rings := t.trail.rings }, posted := t.posted, ev := t.ev,
                   look := t.look }))

/-- COPY, GRAPH_RUN and the remote commands (Table 8-4, R140, R154): bytes move from SRC to DST, a read error ends with MEMORY_ERROR; GRAPH_RUN requests an
instance; REMOTE_SUBMIT and REMOTE_DOORBELL send an operation, or end with UNREACHABLE where no route is left. -/
def Obligations.TransferCommandsMoveTheirBytes : Prop := ∀ (s : State) (r : Fin 4096) (seq : BitVec 64) (c : Cmd) (e : Nat), e = c.entry.toNat →
  (∀ ring a b d len, Begins s r seq 0x40 c → ringOf s r = some ring → relocAt c 16 = some a → relocAt c 20 = some b → len = cf e 47 40 →
    (a.kind = kHostbuf → b.kind = kHostbuf → Answers (.copyCmd r seq (.ok d)) s fun t => Done t r seq c stOk 0 0 ∧
      t = { cmdsFrom s t with posted := (ring.port, ring.fn, b.base + cf e 39 32, bytesAt d 0 len) :: s.posted }) ∧
    (a.kind = kHostbuf → b.kind ≠ kHostbuf → Uncached s → Answers (.copyCmd r seq (.ok d)) s fun t => Done t r seq c stOk 0 0 ∧
      Stored s t (b.base + cf e 39 32) (bytesAt d 0 len) ∧ t = written (cmdsFrom s t) t) ∧
    (a.kind ≠ kHostbuf → b.kind = kHostbuf → Uncached s → firstPoison s (a.base + cf e 31 24) len = none → Answers (.copyCmd r seq (.ok d)) s fun t =>
      Done t r seq c stOk 0 0 ∧
      t = { counted (cmdsFrom s t) t with posted := (ring.port, ring.fn, b.base + cf e 39 32, memRead s.mem.bytes (a.base + cf e 31 24) len) :: s.posted }) ∧
    (a.kind = kHostbuf → Answers (.copyCmd r seq .err) s fun t => Done t r seq c stMemoryError (2 ^ 24) 0 ∧ t = cmdsFrom s t)) ∧
  (∀ g d q, Begins s r seq 0x20 c → relocAt c 16 = some g → relocAt c 20 = none →
    q = ({ part := c.part, owner := .run r seq, graph := g, waitset := cf e 39 36, deadline := c.fetchDev + 1000 * param s 0x2402 4 c.part, order := c.order } : Request) →
    Answers (.graphRun r seq d) s fun t => Waits t r seq ∧ t = { cmdsFrom s t with root := { s.root with requests := s.root.requests ++ [q] } }) ∧
  (∀ h d dest, Begins s r seq 0x50 c → relocAt c 20 = some h → h.kind = kHostbuf → dest = cf e 17 16 →
    (hasRoute s dest = false → Answers (.remoteSubmit r seq (.ok d)) s fun t => Done t r seq c stUnreachable 0 0 ∧ t = cmdsFrom s t) ∧
    (hasRoute s dest = true → (peerOf s dest).inc.isSome = true → Answers (.remoteSubmit r seq (.ok d)) s fun t => Waits t r seq ∧
      (peerOf t dest).next = (peerOf s dest).next + 1 ∧ (∃ o ∈ t.fab.out, o.dest = dest ∧ o.oseq = (peerOf s dest).next ∧ o.opc = 0x01 ∧
        o.arg = cf e 19 18 % 4096 ∧ o.data = bytesAt d 0 64 ∧ o.owner = .cmd r seq) ∧ t = { cmdsFrom s t with fab := t.fab, trk := t.trk })) ∧
  (∀ dest, Begins s r seq 0x51 c → dest = cf e 17 16 →
    (hasRoute s dest = false → Answers (.remoteDoorbell r seq) s fun t => Done t r seq c stUnreachable 0 0 ∧ t = cmdsFrom s t) ∧
    (hasRoute s dest = true → (peerOf s dest).inc.isSome = true → Answers (.remoteDoorbell r seq) s fun t => Waits t r seq ∧
      (peerOf t dest).next = (peerOf s dest).next + 1 ∧ (∃ o ∈ t.fab.out, o.dest = dest ∧ o.oseq = (peerOf s dest).next ∧ o.opc = 0x02 ∧
        o.arg = cf e 19 18 % 4096 ∧ o.data = leBytes 4 (cf e 23 20) ∧ o.owner = .cmd r seq) ∧ t = { cmdsFrom s t with fab := t.fab, trk := t.trk }))

/-! ## Stands, models and step lists (chapter 9) -/

/-- The stand commands (R144, Table 9-1): OPEN makes an ACTIVE stand, STEP makes a step pending with its deadline, PARK and CLOSE take effect at once where no step is
pending, and CLOSE ends a step that is not listed; a command that finds its stand in the wrong state ends with STAND_STATE. A listed step is over as its
record is written, and is counted with the time since it was listed. -/
def Obligations.StandCommandsFollowTheStandStates : Prop := ∀ (s : State) (r : Fin 4096) (seq : BitVec 64) (c : Cmd) (e n : Nat), e = c.entry.toNat →
  standNamed s c = some n →
  (∀ m, Begins s r seq 0x10 c → relocAt c 20 = some m →
    (standOf s n = none → slotState s c.part m.object ≠ 0 → Answers (.standOpen r seq) s fun t => Done t r seq c stOk 0 0 ∧
      standOf t n = some { state := 1, part := c.part, model := m.object, stateBuf := cf e 27 24,
                           budget := if cf e 35 32 = 0 then param s 0x2402 4 c.part else cf e 35 32 } ∧
      (∀ k, k ≠ n → standOf t k = standOf s k) ∧ t = { cmdsFrom s t with stands := { s.stands with stands := t.stands.stands } }) ∧
    ((standOf s n).isSome = true → Answers (.standOpen r seq) s fun t => Done t r seq c 0x15 3 0 ∧ t = cmdsFrom s t) ∧
    (standOf s n = none → slotState s c.part m.object = 0 → Answers (.standOpen r seq) s fun t => Done t r seq c 0x15 5 0 ∧ t = cmdsFrom s t)) ∧
  (∀ x, standOf s n = some x → x.state ≠ 3 →
    (Begins s r seq 0x11 c → x.stepPending = false → Answers (.standStep r seq) s fun t => Waits t r seq ∧
      standOf t n = some { x with state := 1, stepPending := true, listed := false, ring := r, stepSeq := seq, order := c.order, readyAt := s.time.clock,
                                  deadline := c.fetchDev + 1000 * (if cf e 55 52 = 0 then x.budget else cf e 55 52) } ∧
      (∀ k, k ≠ n → standOf t k = standOf s k) ∧ t = { cmdsFrom s t with stands := { s.stands with stands := t.stands.stands } }) ∧
    (Begins s r seq 0x11 c → x.stepPending = true → Answers (.standStep r seq) s fun t => Done t r seq c 0x15 2 0 ∧ t = cmdsFrom s t) ∧
    (Begins s r seq 0x12 c → x.stepPending = false → x.closeReq = false → Answers (.standPark r seq) s fun t => Done t r seq c stOk 0 0 ∧
      standOf t n = some { x with state := 2, parkReq := false } ∧ t = { cmdsFrom s t with stands := { s.stands with stands := t.stands.stands } }) ∧
    (Begins s r seq 0x12 c → x.stepPending = true → Answers (.standPark r seq) s fun t => Waits t r seq ∧
      standOf t n = some { x with parkReq := true } ∧ t = { cmdsFrom s t with stands := { s.stands with stands := t.stands.stands } }) ∧
    (Begins s r seq 0x13 c → x.stepPending = false → Answers (.standClose r seq) s fun t => Done t r seq c stOk 0 0 ∧
      standOf t n = none ∧ (∀ k, k ≠ n → standOf t k = standOf s k) ∧ t = { cmdsFrom s t with stands := { s.stands with stands := t.stands.stands } }) ∧
    (∀ d, Begins s r seq 0x13 c → x.stepPending = true → x.listed = false → cmdOf s x.ring x.stepSeq = some d → d.result = none → d ≠ c →
      (∀ f ∈ s.trail.cmds, f.ring = x.ring → f.seq = x.stepSeq → f.dup = false → f = d) → opcodeOf d.entry.toNat = 0x11 → Answers (.standClose r seq) s fun t =>
      standOf t n = none ∧ Done t r seq c stOk 0 0 ∧ Done t x.ring x.stepSeq d 0x15 7 0 ∧
      t = { cmdsFrom s t with stands := { s.stands with stands := t.stands.stands } }) ∧
    (Begins s r seq 0x13 c → x.stepPending = true → x.listed = true → Answers (.standClose r seq) s fun t => Waits t r seq ∧
      standOf t n = some { x with state := 3, closeReq := true, parkReq := false } ∧ t = { cmdsFrom s t with stands := { s.stands with stands := t.stands.stands } }) ∧
    (∀ ring : Ring, opcodeOf e = 0x11 → ringOf s r = some ring → ring.isLocal = false → cmdOf s r seq = some c → c.result.isSome = true → AllDecided s r →
      x.listed = true → x.ring = r → x.stepSeq = seq → x.closeReq = false → x.parkReq = false → Answers (.completionWrite r seq) s fun t =>
      standOf t n = some { x with stepPending := false, listed := false, steps := x.steps + 1, lastStep := (s.time.clock - x.listedAt) / 1000 } ∧
      (∀ k, k ≠ n → standOf t k = standOf s k) ∧ t.trail.cmds = s.trail.cmds.erase c ∧
      t = { s with trail := t.trail, stands := { s.stands with stands := t.stands.stands }, posted := t.posted, ev := t.ev, look := t.look }))

/-- Model slots (R151): MODEL_SWITCH of an EMPTY slot starts its LOAD, of a slot in use it ends with STAND_STATE; when the weights have streamed the slot is
RESIDENT, and EMPTY again after a read error. -/
def Sys2Proof.Claims.ModelSwitchLoadsItsSlot : Prop := ∀ s : State,
  (∀ (r : Fin 4096) (seq : BitVec 64) c nw w, Begins s r seq 0x14 c → relocAt c 16 = some nw → relocAt c 20 = some w → relocAt c 40 = none →
    cf c.entry.toNat 39 32 ≠ 0 →
    (slotState s c.part nw.object = 0 → Answers (.modelSwitch r seq) s fun t => slotState t c.part nw.object = 1 ∧ Waits t r seq ∧
      (∃ x : Switch, t.stands.switches = s.stands.switches ++ [x] ∧ x.part = c.part ∧ x.new = nw.object ∧ x.old = none ∧ x.loading = true ∧ x.dst = nw.base ∧
        x.len = cf c.entry.toNat 39 32) ∧ t = { cmdsFrom s t with stands := { s.stands with switches := t.stands.switches, slots := t.stands.slots } }) ∧
    (slotState s c.part nw.object ≠ 0 → Answers (.modelSwitch r seq) s fun t => Done t r seq c 0x15 6 0 ∧ t = cmdsFrom s t)) ∧
  (∀ (p : Fin 72) (m : Fin 16) w, s.stands.switches = [w] → w.part = p → w.new = m → w.loading = true → w.hostSrc = true → w.old = none →
    (∀ d, Uncached s → Answers (.modelLoadDone p m (.ok d)) s fun t => slotState t p m = 2 ∧ t.stands.switches = [] ∧
      (∀ x, x < w.dst ∨ w.dst + w.len ≤ x → memByte t.mem.bytes x = memByte s.mem.bytes x) ∧
      t = { written (cmdsFrom s t) t with stands := { s.stands with switches := [], slots := t.stands.slots } }) ∧
    (Answers (.modelLoadDone p m .err) s fun t => slotState t p m = 0 ∧ t.stands.switches = [] ∧
      t = { cmdsFrom s t with stands := { s.stands with switches := [], slots := t.stands.slots } }))

/-- Step boundaries (R147, R148): while a list runs nothing happens; otherwise, when the fill condition holds, the ready stands of the earliest one's model,
at most STEP_MAX, are listed in deadline order and handed to Rootwork; FILL_WAIT ends a wait, and each share window divides 1,000 parts by PART_SHARE (R149). -/
def Sys2Proof.Claims.StepBoundariesListTheReadyStands : Prop := ∀ (s : State) (p : Fin 72),
  ((sfind s.stands.lists p).isSome = true → exec (.stepBoundary p) s = .next s) ∧
  (∀ q rest h, Settled s → sfind s.stands.lists p = none → s.stands.switches = [] → readySet s p = q :: rest → partEnabled s p = true → fillMet s p (q :: rest) = true →
    1 ≤ param s 0x2402 1 p → relocate s p (slotGraph s p q.2.model) [kGraph] true false 0 0 = .ok h → Answers (.stepBoundary p) s fun t =>
    ∃ chosen, chosen = ((q :: rest).filter (fun z => decide (z.2.model = q.2.model))).take (param s 0x2402 1 p) ∧
      (∃ l, sfind t.stands.lists p = some l ∧ l.stands = chosen.map (·.1) ∧ l.model = q.2.model ∧ l.startedAt = s.time.clock) ∧
      (∀ z ∈ chosen, ∃ x, standOf t z.1 = some x ∧ x.listed = true) ∧
      (∃ req : Request, t.root.requests = s.root.requests ++ [req] ∧ req.part = p ∧ req.owner = .list p ∧ req.graph = h ∧ req.deadline = q.2.deadline) ∧
      sget 0 t.stands.stepLists p = sget 0 s.stands.stepLists p + 1 ∧ t.boot = s.boot ∧ t.power = s.power ∧ t.und = s.und ∧ t.fab = s.fab ∧ t.look = s.look ∧
      t.time = s.time ∧ t.posted = s.posted) ∧
  (∀ q rest h, sfind s.stands.lists p = none → readySet s p = q :: rest → partEnabled s p = true → 1 ≤ param s 0x2402 1 p →
    relocate s p (slotGraph s p q.2.model) [kGraph] true false 0 0 = .ok h →
    (∃ z ∈ q :: rest, z.2.readyAt + 1000 * param s 0x2402 3 p ≤ s.time.clock) → Answers (.fillWaitExpiry p) s fun t =>
    (∃ l, sfind t.stands.lists p = some l ∧ l.model = q.2.model ∧
      l.stands = (((q :: rest).filter (fun z => decide (z.2.model = q.2.model))).take (param s 0x2402 1 p)).map (·.1)) ∧
    (∃ req : Request, t.root.requests = s.root.requests ++ [req] ∧ req.part = p ∧ req.owner = .list p ∧ req.graph = h ∧ req.deadline = q.2.deadline) ∧
    t = { cmdsFrom s t with stands := { s.stands with stands := t.stands.stands, lists := t.stands.lists, stepLists := t.stands.stepLists,
                                                      flipped := t.stands.flipped, lateSteps := t.stands.lateSteps },
                            root := { s.root with requests := t.root.requests }, free := t.free }) ∧
  ((∀ z ∈ readySet s p, s.time.clock < z.2.readyAt + 1000 * param s 0x2402 3 p) → exec (.fillWaitExpiry p) s = .next s) ∧
  (Answers .shareWindow s fun t => (∀ k < 72, (gathers s k = false → sget 0 t.stands.shares k = 0) ∧ (gathers s k = true →
      sget 0 t.stands.shares k = 1000 * param s 0x2403 1 k / (((List.range 72).filter (gathers s)).map (fun j => param s 0x2403 1 j)).sum)) ∧
    (t.stands.shares.map (·.2)).sum ≤ 1000 ∧ t = { s with stands := { s.stands with shares := t.stands.shares } })

/-! ## Gathers, the hot set and Thicket engines (chapter 14); rows replaced while serving (chapter 16) -/

namespace Sys2Proof.Claims

/-- A row read at an address finds neither a staged version, nor a prefetch entry, nor a hot copy: it is read from memory, where nothing is cached
and no line of it is poisoned (R255). -/
def FromMemory (s : State) (a len : Nat) : Prop :=
  servingEntry s a = none ∧ sfind s.thk.prefetch a = none ∧ sfind s.thk.hot a = none ∧ Uncached s ∧ firstPoison s a len = none

/-- What the pooling and poll fields of a Thicket word do after its XOP: the accumulator line it names, Z, one draw of an open value, and the
place that NEXT leads to; `x` is the engine before the word (Table 14-5). -/
def Pooled (s t : State) (eng : Nat) (x : ThkEngine) (w : ThkSlot) : Prop :=
  let n := w.acc.toNat % 8192
  let y := engineOf t eng
  t.free = s.free + 1 ∧ y.eregs = x.eregs ∧ (w.pop = 0 → y.acc = x.acc) ∧ (∀ k, k ≠ n → accLine y k = accLine x k) ∧
  (w.pop = 1 → accLine y n = (accLine x n).zipIdx.map (fun q => add32 q.1 (lget 0 y.rowLine q.2))) ∧
  (w.pop = 3 → accLine y n = (accLine x n).zipIdx.map (fun q => max32 q.1 (lget 0 y.rowLine q.2))) ∧
  (w.poll = 0 → y.z = x.z) ∧ (w.poll = 1 → y.z = y.idxQueue.isEmpty) ∧ (w.poll = 2 → y.z = y.lineReady) ∧
  pacedNext 1 x.seq y.z w.next w.target.toNat = some y.seq

/-- NEXT and TARGET of a paced word are ones that Table 11-3 allows where its sequencer stands, whatever Z is. -/
def NextFits (kind : Nat) (q : Paced) (next target : Nat) : Prop :=
  (pacedNext kind q false next target).isSome = true ∧ (pacedNext kind q true next target).isSome = true

end Sys2Proof.Claims

/-- GATHER and HOT_REFRESH (R214–R221): a gather that runs writes its output to OUT and answers the number of indices dropped, one that fails answers its
status and AUX; ADD makes a row hot with the row's bytes, REMOVE takes rows out, and REPLACE with no rows empties the table's hot set. -/
def Sys2Proof.Claims.GathersAndHotRowsFollowTheirCommands : Prop := ∀ (s : State) (r : Fin 4096) (seq : BitVec 64) (c : Cmd) (e : Nat), e = c.entry.toNat →
  (∀ ring h o s2 j, Begins s r seq 0x30 c → ringOf s r = some ring → relocAt c 16 = some h → relocAt c 48 = some o → o.kind = kHostbuf →
    gatherJob s false c.part e (descAt c 16) (relocAt c) h = (s2, .ok j) →
    (∀ s3 g, runGather s2 j = (s3, .ok g) → g.dropped < 2 ^ 32 → Answers (.gather r seq) s fun t => Done t r seq c stOk g.dropped 0 ∧
      t.posted = (ring.port, ring.fn, o.base + cf e 59 52, g.bytes) :: s.posted ∧
      t = { accessed (cmdsFrom s t) t with posted := t.posted, thk := t.thk }) ∧
    (∀ s3 st aux, runGather s2 j = (s3, .error (st, aux)) → Answers (.gather r seq) s fun t => Done t r seq c st aux 0 ∧ t.posted = s.posted ∧
      t = { accessed (cmdsFrom s t) t with thk := t.thk }) ∧
    (∀ i < j.idx.length, badBag j.idx.length j.bags = none → tdFault j.desc = true → (∀ k < i, lget 0 j.idx k < tdRows j.desc) →
      tdRows j.desc ≤ lget 0 j.idx i → Answers (.gather r seq) s fun t => Done t r seq c stIndexFault i 0 ∧ t.posted = s.posted)) ∧
  (∀ h b rows n, Begins s r seq 0x32 c → relocAt c 16 = some h → relocAt c 20 = some b → n = cf e 27 24 → Uncached s → firstPoison s b.base (4 * n) = none →
    rows = (List.range n).map (fun i => leAt (memRead s.mem.bytes b.base (4 * n)) (4 * i) 4) → (∀ k ∈ rows, k < tdRows (descAt c 16)) →
    (cf e 28 28 = 1 → Answers (.hotRefresh r seq) s fun t => Done t r seq c stOk 0 0 ∧
      (∀ a, sfind t.thk.hot a = if a ∈ rows.map (fun k => h.base + k * tdStride (descAt c 16)) then none else sfind s.thk.hot a) ∧
      t = { counted (cmdsFrom s t) t with thk := { s.thk with hot := t.thk.hot } }) ∧
    (∀ k a, cf e 28 28 = 0 → rows = [k] → a = h.base + k * tdStride (descAt c 16) → FromMemory s a (tdStride (descAt c 16)) →
      hotFits s c.part a (tdStride (descAt c 16)) = true → Answers (.hotRefresh r seq) s fun t => Done t r seq c stOk 0 0 ∧
      sfind t.thk.hot a = some ⟨c.part, h.object, k, memRead s.mem.bytes a (tdStride (descAt c 16)), false⟩ ∧
      (∀ x, x ≠ a → sfind t.thk.hot x = sfind s.thk.hot x) ∧ t = { counted (cmdsFrom s t) t with thk := { s.thk with hot := t.thk.hot } }) ∧
    (cf e 28 28 = 2 → n = 0 → Answers (.hotRefresh r seq) s fun t => Done t r seq c stOk 0 0 ∧
      (∀ q ∈ t.thk.hot, ¬(q.2.part = c.part ∧ q.2.slot = h.object)) ∧ (∀ q ∈ s.thk.hot, ¬(q.2.part = c.part ∧ q.2.slot = h.object) → q ∈ t.thk.hot) ∧
      t = { counted (cmdsFrom s t) t with thk := { s.thk with hot := t.thk.hot } }))

/-- A task of a THICKET node (R219) runs the gather of its 64-byte record, writes the output, and retires with what it pooled and dropped; a node without
a table ends the instance. A hint of a ready stand's IN buffer fills the prefetch buffer of the row's home die (R223). -/
def Sys2Proof.Claims.ThicketTasksAndPrefetchReadTheirRows : Prop := ∀ (s : State),
  (∀ (i : Fin 16384) (n : Fin 4096) (k : Fin 16) x y f h rec e rs s1 s2 j s3 g o,
    instOf s i = some x → (∀ p, x.owner = .list p → p = x.part) → nodeOf x n = some y → y.ent.kind = 2 → (∃ d, (f.tasks[k.val]?).map (·.place) = some (.engine d)) → y.firings = [f] →
    (∃ m, m ≠ k.val ∧ (f.tasks[m]?).any (fun z => decide (z.place ≠ .retired)) = true) → y.operand = some h →
    readMem s ((f.taken.headD { data := 0, node := 0, firing := 0, out := 0 }).data.toNat % 2 ^ 64 + 64 * k.val) 64 = (s1, .ok rec) →
    e = recordBody y.ent.operand rec → recordBad e = none →
    relocateAll s1 x.part e ((gatherFields y.desc e).filter (fun z => decide (z.off ≠ 16))) = .ok rs →
    gatherJob s1 (decide (x.owner = .list x.part)) x.part e y.desc (fun off => (rs.find? (fun z => decide (z.off = off))).map (·.entry)) h = (s2, .ok j) → runGather s2 j = (s3, .ok g) →
    (rs.find? (fun z => decide (z.off = 48))).map (·.entry) = some o → o.kind = kHostbuf → Answers (.thicketTask i n k) s fun t =>
      (∃ z, taskOf t i n f.num k.val = some z ∧ z.place = .retired ∧ z.pooled = g.pooled ∧ z.dropped = g.dropped ∧ z.empty = g.empty) ∧
      (∃ w : Nat × Nat, t.posted = (w.1, w.2, o.base + cf e 59 52, g.bytes) :: s.posted) ∧ t.boot = s.boot ∧ t.dir = s.dir ∧ t.trail = s.trail ∧ t.fab = s.fab) ∧
  (∀ (n : Fin 131072) x c b off h slot row base len, standOf s n = some x → standReady s x = true → cmdOf s x.ring x.stepSeq = some c → relocAt c 20 = some b →
    field (param s 0x3802 1 x.part) 47 32 = 1 → off = field (param s 0x3802 1 x.part) 31 0 → off + 8 ≤ cf c.entry.toNat 35 32 → Uncached s →
    firstPoison s (b.base + cf c.entry.toNat 31 24 + off) 8 = none → h = leNat (memRead s.mem.bytes (b.base + cf c.entry.toNat 31 24 + off) 8) →
    slot = field h 39 32 → row = field h 31 0 → slotBase s x.part slot = some base → len = tdStride (tableDesc s x.part slot) →
    tdValid (tableDesc s x.part slot) = true → tdPrefetch (tableDesc s x.part slot) = true → row < tdRows (tableDesc s x.part slot) →
    FromMemory s (base + row * len) len → pfFits s (homeDie (base + row * len)) len = true → Answers (.prefetchFill n) s fun t =>
      sfind t.thk.prefetch (base + row * len) =
        some { part := x.part, slot, row, bytes := memRead s.mem.bytes (base + row * len) len, id := s.thk.nextFill } ∧
      (∀ a, a ≠ base + row * len → sfind t.thk.prefetch a = sfind s.thk.prefetch a) ∧
      t = { counted s t with thk := { s.thk with prefetch := t.thk.prefetch, pfStats := t.thk.pfStats, nextFill := s.thk.nextFill + 1 } })

/-- The words of a Thicket engine (R172, R175, R225, Table 14-5): a reserved encoding stops the engine's program and ends the command it works for with
UNIT_FAULT, CAUSE 0x01: its task's, or a GATHER; otherwise the XOP acts at the address in its engine register, the pooling and poll fields follow, and NEXT
is taken. -/
def Sys2Proof.Claims.ThicketWordsActOnTheirEngine : Prop := ∀ (s : State) (eng : Fin 96) (w : ThkSlot) (x : ThkEngine) (a : Nat), x = engineOf s eng →
  a = (lget 0 x.eregs w.ereg).toNat →
  (∀ xop c, (xop, c) ∈ [(1, Instr.idxld eng w), (2, .rowrd eng w), (3, .hotlk eng w), (4, .pfrd eng w), (5, .outwr eng w), (6, .stwr eng w)] → thkBad xop w = true →
    (engineWork s eng = none → Answers c s fun t => engineOf t eng = { x with seq := { x.seq with running := false } } ∧
      t = { s with thk := { s.thk with engines := t.thk.engines } }) ∧
    (∀ i z r seq cm, engineWork s eng = some (.task i) → instOf s i = some z → z.owner = .run r seq → z.rerun = false → cmdOf s r seq = some cm → cm.result = none →
      Answers c s fun t => instOf t i = none ∧ (∃ u < 2 ^ 24, Done t r seq cm stUnitFault (2 ^ 24 + u) 0) ∧
        sget 0 t.gr.microFaults z.part = (sget 0 s.gr.microFaults z.part + 1) % 2 ^ 32) ∧
    (∀ r seq cm, engineWork s eng = some (.gather r seq) → cmdOf s r seq = some cm → cm.result = none → Answers c s fun t =>
      (∃ u < 2 ^ 24, Done t r seq cm stUnitFault (2 ^ 24 + u) 0) ∧ sget 0 t.gr.microFaults cm.part = (sget 0 s.gr.microFaults cm.part + 1) % 2 ^ 32 ∧
      t = { cmdsFrom s t with thk := { s.thk with engines := t.thk.engines }, gr := { s.gr with microFaults := t.gr.microFaults }, free := s.free + 1 })) ∧
  (thkBad 6 w = false → NextFits 1 x.seq w.next w.target.toNat →
    (Uncached s → firstPoison s a 64 = none → Answers (.idxld eng w) s fun t => Pooled s t eng x w ∧
      (engineOf t eng).idxQueue = x.idxQueue ++ (List.range 16).map (fun i => BitVec.ofNat 32 (leAt (memRead s.mem.bytes a 64) (4 * i) 4)) ∧
      (engineOf t eng).rowLine = x.rowLine ∧ t = { counted s t with thk := { s.thk with engines := t.thk.engines }, free := t.free }) ∧
    (∀ bs, FromMemory s a (16 + elemBytes w.fmt.toNat 16) → bs = memRead s.mem.bytes a (16 + elemBytes w.fmt.toNat 16) → Answers (.rowrd eng w) s fun t =>
      Pooled s t eng x w ∧ (engineOf t eng).idxQueue = x.idxQueue.drop 1 ∧ (engineOf t eng).lineReady = true ∧
      (engineOf t eng).rowLine = (List.range 16).map (fun j => rowDecode w.fmt.toNat (leAt bs 8 4) (leAt bs 12 4) (rowElem w.fmt.toNat (bs.drop 16) j)) ∧
      t = { counted s t with thk := { s.thk with engines := t.thk.engines }, free := t.free }) ∧
    (Answers (.hotlk eng w) s fun t => Pooled s t eng x w ∧ (engineOf t eng).hotHit = (sfind s.thk.hot a).isSome ∧
      t = { s with thk := { s.thk with engines := t.thk.engines }, free := t.free }) ∧
    (∀ p, servingEntry s a = none → sfind s.thk.prefetch a = some p → p.poison = none → Answers (.pfrd eng w) s fun t => Pooled s t eng x w ∧ (engineOf t eng).lineReady = true ∧
      (engineOf t eng).rowLine = (List.range 16).map (fun j => rowDecode w.fmt.toNat (leAt p.bytes 8 4) (leAt p.bytes 12 4) (rowElem w.fmt.toNat (p.bytes.drop 16) j)) ∧
      t = { s with thk := { s.thk with engines := t.thk.engines }, free := t.free }) ∧
    (sfind s.thk.prefetch a = none → Answers (.pfrd eng w) s fun t => Pooled s t eng x w ∧ (engineOf t eng).lineReady = false ∧
      t = { s with thk := { s.thk with engines := t.thk.engines }, free := t.free }) ∧
    (Uncached s → Answers (.outwr eng w) s fun t => Pooled s t eng x w ∧
      Stored s t a ((accLine x (w.acc.toNat % 8192)).flatMap (fun v => leBytes 4 v.toNat)) ∧
      t = { written s t with thk := { s.thk with engines := t.thk.engines }, free := t.free }) ∧
    (Uncached s → Answers (.stwr eng w) s fun t => Pooled s t eng x w ∧ Stored s t a (leBytes 8 w.imm.toNat) ∧
      t = { written s t with thk := { s.thk with engines := t.thk.engines }, free := t.free }))

/-- ROW_UPDATE and ROW_COMMIT (R251–R254): a newer generation is staged with the command's GENERATION in the row's header, or waits in fetch order where there
is no room for it, and commits under the current epoch, superseding the version before it; one that is not newer ends OK with STALE_IGNORED, a row beyond
ROWS with INDEX_FAULT, and a source or a staged line that cannot be read with MEMORY_ERROR. -/
def Sys2Proof.Claims.RowUpdatesStageAndCommit : Prop := ∀ (s : State) (r : Fin 4096) (seq : BitVec 64),
  (∀ c h b e row a cur src w, Begins s r seq 0x31 c → e = c.entry.toNat → relocAt c 16 = some h → relocAt c 32 = some b → b.kind = kHostbuf → row = cf e 23 20 →
    a = h.base + row * tdStride (descAt c 16) →
    w = ({ ring := r, seq, part := c.part, slot := h.object, row, addr := a, gen := cf e 31 24, len := tdStride (descAt c 16), order := c.order } : StageWait) →
    (tdRows (descAt c 16) ≤ row → Answers (.rowUpdate r seq (.ok src)) s fun t => Done t r seq c stIndexFault 0 0 ∧
      t = { cmdsFrom s t with rows := { s.rows with stats := t.rows.stats } }) ∧
    (row < tdRows (descAt c 16) → (currentGen s a).2 = some cur → cf e 31 24 ≤ cur → Answers (.rowUpdate r seq (.ok src)) s fun t =>
      Done t r seq c stOk 0 4 ∧ t = { accessed (cmdsFrom s t) t with rows := { s.rows with stats := t.rows.stats } }) ∧
    (row < tdRows (descAt c 16) → (currentGen s a).2 = some cur → cur < cf e 31 24 → (∀ x ∈ s.rows.waiting, homeDie x.addr ≠ homeDie a) → stageFits s w = true →
      (Answers (.rowUpdate r seq (.ok src)) s fun t => Waits t r seq ∧
        t.rows.staged = s.rows.staged ++ [
          { id := s.rows.nextId, part := c.part, slot := h.object, row, addr := a, gen := cf e 31 24, state := .filling, ring := r, seq
            bytes := leBytes 8 (cf e 31 24) ++ (bytesAt src 0 (tdStride (descAt c 16))).drop 8 }] ∧
        t = { accessed (cmdsFrom s t) t with rows := { s.rows with staged := t.rows.staged, nextId := s.rows.nextId + 1 } }) ∧
      (Answers (.rowUpdate r seq .err) s fun t => Done t r seq c stMemoryError (2 ^ 24) 0 ∧
        t = { accessed (cmdsFrom s t) t with rows := { s.rows with stats := t.rows.stats } })) ∧
    (row < tdRows (descAt c 16) → (currentGen s a).2 = some cur → cur < cf e 31 24 → ((∃ x ∈ s.rows.waiting, homeDie x.addr = homeDie a) ∨ stageFits s w = false) →
      Answers (.rowUpdate r seq (.ok src)) s fun t => Waits t r seq ∧ t.rows.waiting = waitInsert w s.rows.waiting ∧
        t = { accessed (cmdsFrom s t) t with rows := { s.rows with waiting := t.rows.waiting, stats := t.rows.stats } })) ∧
  (∀ (d : Fin 6) w l src c b, s.rows.waiting = w :: l → w ∉ l → homeDie w.addr = d → stageFits s w = true → cmdOf s w.ring w.seq = some c → relocAt c 32 = some b →
    b.kind = kHostbuf → Answers (.stagingAllocate ⟨d, .ok src⟩) s fun t => t.rows.waiting = l ∧
    t.rows.staged = s.rows.staged ++ [{ id := s.rows.nextId, part := w.part, slot := w.slot, row := w.row, addr := w.addr, gen := w.gen,
                                        bytes := leBytes 8 w.gen ++ (bytesAt src 0 w.len).drop 8, state := .filling, ring := w.ring, seq := w.seq }] ∧
    t = { s with rows := { s.rows with staged := t.rows.staged, waiting := l, nextId := s.rows.nextId + 1 } }) ∧
  (∀ e cur c, s.rows.staged.find? (fun x => decide (x.ring = r.val) && decide (x.seq = seq) && decide (x.state = .filling)) = some e →
    (∀ x ∈ s.rows.staged, x.id = e.id → x = e) → cmdOf s r seq = some c → c.result = none →
    (∀ k, e.bad = some k → Answers (.rowCommit r seq) s fun t => Done t r seq c stMemoryError (memErrAux (e.addr / 64 + k) 1) 0 ∧
      (∀ x ∈ t.rows.staged, x.id ≠ e.id) ∧ t = { cmdsFrom s t with rows := { s.rows with staged := t.rows.staged, stats := t.rows.stats } }) ∧
    (e.bad = none → (currentGen s e.addr).2 = cur → isNewer e.gen cur = true → Answers (.rowCommit r seq) s fun t => Done t r seq c stOk 0 0 ∧
      { e with state := .committed, tag := lget 0 s.rows.epoch (homeDie e.addr) } ∈ t.rows.staged ∧
      (∀ x ∈ s.rows.staged, x.id ≠ e.id → x.addr = e.addr → x.state = .committed → { x with state := .superseded } ∈ t.rows.staged) ∧
      (∀ x ∈ s.rows.staged, x.addr ≠ e.addr → x ∈ t.rows.staged) ∧ sfind t.thk.prefetch e.addr = none ∧
      t = { accessed (cmdsFrom s t) t with rows := { s.rows with staged := t.rows.staged, stats := t.rows.stats },
                                           thk := { s.thk with prefetch := t.thk.prefetch, pfStats := t.thk.pfStats } }) ∧
    (e.bad = none → (currentGen s e.addr).2 = cur → isNewer e.gen cur = false → Answers (.rowCommit r seq) s fun t => Done t r seq c stOk 0 4 ∧
      (∀ x ∈ t.rows.staged, x.id ≠ e.id) ∧ t = { accessed (cmdsFrom s t) t with rows := { s.rows with staged := t.rows.staged, stats := t.rows.stats } }))

/-- Epochs, write-back and reads of live rows (R255–R257): the epoch advances into a closed one, a committed row is written home once every reader of its epoch
is gone, a read takes the newest committed version, else the prefetch entry, the hot copy or memory, and holds it until its last line has arrived. -/
def Sys2Proof.Claims.RowVersionsOutliveTheirReaders : Prop := ∀ (s : State),
  (∀ (d : Fin 6) e n, e = lget 0 s.rows.epoch d → n = (e + 1) % 8 → (dieEntries s d).any (fun x => decide (x.state = .committed) && decide (x.tag = e)) = true →
    (epochReaders s d n = 0 → Answers (.epochAdvance d) s fun t => t = { s with rows := { s.rows with epoch := lset s.rows.epoch d n } }) ∧
    (epochReaders s d n ≠ 0 → Answers (.epochAdvance d) s fun t => t.rows = { s.rows with stalls := s.rows.stalls + 1 } ∧
      t = { s with rows := t.rows, trk := t.trk, ev := t.ev })) ∧
  (∀ id e, entryOf s id = some e → (∀ x ∈ s.rows.staged, x.id = id → x = e) →
    (e.state = .committed → closedUpTo s (homeDie e.addr) e.tag = true → (∀ x ∈ s.rows.staged, x.addr = e.addr → x.state ≠ .writing) →
      Answers (.writeBackStart id) s fun t => entryOf t id = some { e with state := .writing } ∧
      (∀ x ∈ s.rows.staged, x.id ≠ id → x ∈ t.rows.staged) ∧ t = { s with rows := { s.rows with staged := t.rows.staged } }) ∧
    (e.state = .committed → closedUpTo s (homeDie e.addr) e.tag = false → exec (.writeBackStart id) s = .next s) ∧
    (e.state = .writing → e.bad = none → Uncached s → Answers (.writeBackDone id) s fun t => entryOf t id = some { e with state := .releasing } ∧
      Stored s t e.addr e.bytes ∧ (∀ h, sfind s.thk.hot e.addr = some h → sfind t.thk.hot e.addr = some { h with bytes := e.bytes, poisoned := false }) ∧
      t = { written s t with rows := { s.rows with staged := t.rows.staged }, thk := { s.thk with hot := t.thk.hot } }) ∧
    ((e.state = .releasing ∨ e.state = .superseded) → (e.refs = 0 → Answers (.entryRelease id) s fun t => entryOf t id = none ∧
        (∀ x ∈ s.rows.staged, x.id ≠ id → x ∈ t.rows.staged) ∧ t = { s with rows := { s.rows with staged := t.rows.staged } }) ∧
      (e.refs ≠ 0 → exec (.entryRelease id) s = .next s))) ∧
  (∀ (p : Fin 72) (m : Fin 256) (base : BitVec 48) (row : BitVec 32) td a, td = tableDesc s p m → a = base.toNat + row.toNat * tdStride td → tdValid td = true →
    row.toNat < tdRows td →
    (∀ e, servingEntry s a = some e → Answers (.rowRead p m base row true) s fun t =>
      t.rows.reads = s.rows.reads ++ [{ id := s.rows.nextRead, die := homeDie a, src := .staged e.id, len := tdStride td
                                        bytes := if e.bad.isSome then [] else e.bytes, poison := e.bad.map (fun k => memErrAux (e.addr / 64 + k) 1) }] ∧
      t.rows.staged = s.rows.staged.map (fun x => if x.id = e.id then { x with refs := x.refs + 1 } else x) ∧
      t = { s with rows := { s.rows with reads := t.rows.reads, nextRead := s.rows.nextRead + 1, staged := t.rows.staged } }) ∧
    (∀ e, FromMemory s a (tdStride td) → e = lget 0 s.rows.epoch (homeDie a) → Answers (.rowRead p m base row true) s fun t =>
      t.rows.reads = s.rows.reads ++ [{ id := s.rows.nextRead, die := homeDie a, src := .epoch e, len := tdStride td
                                        bytes := memRead s.mem.bytes a (tdStride td) }] ∧
      epochReaders t (homeDie a) e = epochReaders s (homeDie a) e + 1 ∧
      t = { counted s t with rows := { s.rows with reads := t.rows.reads, nextRead := s.rows.nextRead + 1, readers := t.rows.readers } }) ∧
    (∀ q, servingEntry s a = none → sfind s.thk.prefetch a = some q → q.poison = none → Answers (.rowRead p m base row true) s fun t =>
      t.rows.reads = s.rows.reads ++ [{ id := s.rows.nextRead, die := homeDie a, src := .prefetch q.id, len := tdStride td, bytes := q.bytes }] ∧
      t = { s with rows := { s.rows with reads := t.rows.reads, nextRead := s.rows.nextRead + 1 } })) ∧
  (∀ q l e, s.rows.reads = q :: l → Answers (.rowReadComplete q.id) s fun t => t.rows.reads = l ∧
    (q.src = .epoch e → epochReaders t q.die e = epochReaders s q.die e - 1 ∧ t.rows.staged = s.rows.staged) ∧
    (q.src = .staged e → t.rows.staged = s.rows.staged.map (fun x => if x.id = e then { x with refs := x.refs - 1 } else x) ∧ t.rows.readers = s.rows.readers) ∧
    t = { s with rows := { s.rows with reads := l, staged := t.rows.staged, readers := t.rows.readers } })

/-! ## Rootwork (chapters 10 and 11) and checks of results (chapter 19) -/

namespace Sys2Proof.Claims

/-- An instance has a node, and the node's firings. -/
def Holds (s : State) (i n : Nat) (x : Inst) (y : Node) : Prop := instOf s i = some x ∧ nodeOf x n = some y

/-- The firing of one task retires and emits its token: the node has fired once more, the firing is over, and its one output queue has the token on its way. -/
def Emitted (t : State) (i n : Nat) (y : Node) (q : Nat) (data : BitVec 128) : Prop :=
  ∃ x' y', Holds t i n x' y' ∧ y'.fired = y.fired + 1 ∧ y'.firings = [] ∧
    ∃ z u, queueOf x' q = some z ∧ z.flight.getLast? = some u ∧ u.data = data ∧ u.node = n ∧ u.st = .confirmed

/-- A firing of one task that waits at a slice with confirmed inputs, on a node with one output queue, with nothing retracted or owed off the device. -/
def OneSliceTask (s : State) (i n : Nat) (x : Inst) (y : Node) (f : Firing) (q : Nat) : Prop :=
  Holds s i n x y ∧ y.firings = [f] ∧ inputsConfirmed f = true ∧ f.freed = false ∧ (∃ z d, f.tasks = [z] ∧ z.place = .slice d ∧ z.shadowed = false) ∧
  outQs y.ent = [q] ∧ (queueOf x q).isSome = true ∧ standsRetracted x n f.num 0 = false ∧ s.fb.store = []

end Sys2Proof.Claims

/-- Admission and firing (R154–R158): a request whose descriptor is well formed becomes an instance, one that is not completes its command; a permitted firing
takes one token from each input and reserves a slot of each output; a node whose outputs are full is refused, and let go when they have room; a token lands. -/
def Obligations.InstancesAreAdmittedAndFire : Prop := ∀ (s : State),
  (∀ (q : Request) i s2 g, s.root.requests = [q] → q.argSrc = none → freeInstance s q = some i →
    readGraph { s with root := { s.root with requests := [] } } q.part q.graph = (s2, .ok g) → (readInits s2 q.part g).2 = .ok () →
    Answers .instanceAdmit s fun t => t.root.requests = [] ∧ t.root.admitted = s.root.admitted + 1 ∧
      (∃ x, instOf t i = some x ∧ x.part = q.part ∧ x.owner = q.owner ∧ x.order = s.root.admitted ∧ x.deadline = q.deadline ∧ (∀ y ∈ x.nodes, y.since = s.time.clock) ∧
        x.nodes.map (·.ent) = g.1 ∧ x.queues.map (fun z => (z.depth, z.tokens.length, z.producer, z.consumer)) = g.2) ∧
      (∀ j, j ≠ i → instOf t j = instOf s j) ∧
      t = { accessed s t with root := { s.root with requests := [], insts := t.root.insts, admitted := s.root.admitted + 1, waitsets := t.root.waitsets } }) ∧
  (∀ (q : Request) i r seq c s2 res, s.root.requests = [q] → q.argSrc = none → freeInstance s q = some i → q.owner = .run r seq → cmdOf s r seq = some c → c.result = none →
    readGraph { s with root := { s.root with requests := [] } } q.part q.graph = (s2, .error res) →
    Answers .instanceAdmit s fun t => Done t r seq c res.status res.aux res.flags ∧ t = { accessed (cmdsFrom s t) t with root := { s.root with requests := [] } }) ∧
  (∀ (i : Fin 16384) (n : Fin 4096) x y, Holds s i n x y →
    (canFire s x n y = true → y.ent.kind ≠ 5 → y.ent.kind ≠ 6 → Answers (.nodeFire i n) s fun t => ∃ x' y', Holds t i n x' y' ∧ y'.started = y.started + 1 ∧
      y'.refusedOn = none ∧ (∃ f ∈ y'.firings, f.num = y.started ∧ some f.taken = headTokens x y.ent ∧ f.tasks.length = y.ent.width ∧
        ∀ z ∈ f.tasks, (∃ d, z.place = .ready d) ∧ z.shadowed = (decide (y.ent.kind = 1) && (y.ent.checked || f.taken.any (fun u => !isConfirmed u)))) ∧
      (∀ q, (inQs y.ent).count q = 1 → q ∉ outQs y.ent → queueOf x' q = (queueOf x q).map (fun z => { z with tokens := z.tokens.drop 1 })) ∧
      (∀ q, (outQs y.ent).count q = 1 → q ∉ inQs y.ent → queueOf x' q = (queueOf x q).map (fun z => { z with occupied := z.occupied + 1 })) ∧
      t = { s with root := { s.root with insts := t.root.insts } }) ∧
    (canFire s x n y = true → y.ent.kind = 6 → y.ent.remote = false → Answers (.nodeFire i n) s fun t => ∃ x' y', Holds t i n x' y' ∧
      y'.started = y.started + 1 ∧ y'.fired = y.fired + 1 ∧
      (∀ q, (inQs y.ent).count q = 1 → queueOf x' q = (queueOf x q).map (fun z => { z with tokens := z.tokens.drop 1, occupied := z.occupied - 1 })) ∧
      t = { s with root := { s.root with insts := t.root.insts } }) ∧
    (canFire s x n y = true → y.ent.kind = 5 → s.fab.refusedTokens = [] → Answers (.nodeFire i n) s fun t => ∃ x' y' u, Holds t i n x' y' ∧
      stagedFor s x n = some u ∧ t.root.staging = s.root.staging.erase u ∧ y'.started = y.started + 1 ∧ y'.fired = y.fired + 1 ∧
      (∀ q, (outQs y.ent).count q = 1 → ∃ z k, queueOf x' q = some z ∧ z.flight.getLast? = some k ∧ k.data = u.data ∧ k.src = some u.src ∧ k.st = u.st) ∧
      t = { s with root := { s.root with insts := t.root.insts, staging := t.root.staging }, fab := { s.fab with refusedTokens := [] } }) ∧
    (canFire s x n y = false → y.ent.kind ≠ 5 → ¬(y.ent.kind = 6 ∧ y.ent.remote = true) → y.started < y.ent.firings → nodeRunning y = false →
      outputsFree x y.ent = false → (∀ q ∈ outQs y.ent, (queueOf x q).isSome = true) → (headTokens x y.ent).any (mayTake s x y.ent) = true → y.refusedOn = none → Answers (.nodeFire i n) s fun t =>
      (∃ x' y' q, Holds t i n x' y' ∧ y'.refusedOn = some q ∧ q ∈ outQs y.ent ∧ y' = { y with refusedOn := some q } ∧ x'.refusals = x.refusals + 1) ∧
      t = { s with root := { s.root with insts := t.root.insts, stats := t.root.stats }, trk := t.trk, ev := t.ev }) ∧
    (∀ q : Fin 8192, y.refusedOn = some q.val → (queueOf x q).any (fun z => decide (z.occupied < z.depth)) = true →
      (outputsFree x y.ent = true → Answers (.refusalReevaluate i q) s fun t => (∃ x' y', Holds t i n x' y' ∧ y' = { y with refusedOn := none }) ∧
        t = { s with root := { s.root with insts := t.root.insts, stats := t.root.stats }, trk := t.trk, ev := t.ev }) ∧
      (outputsFree x y.ent = false → (∀ k ∈ outQs y.ent, (queueOf x k).isSome = true) → Answers (.refusalReevaluate i q) s fun t =>
        (∃ x' y' k, Holds t i n x' y' ∧ y' = { y with refusedOn := some k } ∧ k ∈ outQs y.ent ∧
          (queueOf x k).any (fun z => decide (z.depth ≤ z.occupied)) = true) ∧
        t = { s with root := { s.root with insts := t.root.insts, stats := t.root.stats }, trk := t.trk, ev := t.ev })) ∧
    (∀ (q : Fin 8192) z u l, queueOf x q = some z → z.flight = u :: l → Answers (.tokenLand i q) s fun t =>
      (∃ x', instOf t i = some x' ∧ queueOf x' q = some { z with flight := l, tokens := z.tokens ++ [u] } ∧ x'.nodes = x.nodes) ∧
      t = { s with root := { s.root with insts := t.root.insts } }))

/-- Dispatch (R157, R170): the one task of a die's ready list goes to the queue of the grove that takes it, or to an engine or the slice; an idle core takes the
oldest task of its grove's queue and starts with the registers of R170. -/
def Sys2Proof.Claims.ReadyTasksReachCores : Prop := ∀ (s : State) (d : Fin 6),
  (∀ c x y f z, readyList s d = [c] → Holds s c.ins c.node x y → firingOf s c.ins c.node c.firing = some f → f.tasks[c.task]? = some z →
    (∀ g < 72, gQueue s (72 * d.val + g) = []) →
    (y.ent.kind ≠ 1 → servingOn s x.part d ≠ [] → Answers (.taskDispatch d) s fun t =>
      taskOf t c.ins c.node c.firing c.task = some { z with place := if y.ent.kind = 2 then .engine d else .slice d } ∧
      t = { s with root := { s.root with insts := t.root.insts }, trk := t.trk, ev := t.ev }) ∧
    (∀ g, y.ent.kind = 1 → pickGrove s x.part d y.ent.dieMask f = some g → idleCore s g = none → g / 72 = d.val → Answers (.taskDispatch d) s fun t =>
      taskOf t c.ins c.node c.firing c.task = some { z with place := .queued g, grove := g } ∧
      gQueue t g = [⟨c.ins, c.node, c.firing, c.task, s.time.clock⟩] ∧
      t = { s with root := { s.root with insts := t.root.insts, queues := t.root.queues }, trk := t.trk, ev := t.ev })) ∧
  (∀ g q x f z k, g < 72 → readyList s d = [] → gQueue s (72 * d.val + g) = [q] → (∀ h < 72, h ≠ g → gQueue s (72 * d.val + h) = []) →
    instOf s q.ins = some x → firingOf s q.ins q.node q.firing = some f → f.tasks[q.task]? = some z → serving s (unitGrove (72 * d.val + g)) = true →
    switchingNow s (72 * d.val + g) = false → idleCore s (72 * d.val + g) = some k → Answers (.taskDispatch d) s fun t =>
    gQueue t (72 * d.val + g) = [] ∧ taskOf t q.ins q.node q.firing q.task = some { z with place := .core k, grove := 72 * d.val + g } ∧
    (∃ core, sfind t.gr.cores k = some core ∧ core.ins = q.ins ∧ core.node = q.node ∧ core.firing = q.firing ∧ core.task = q.task ∧ core.upc = f.entry ∧
      core.s = [0, BitVec.ofNat 32 q.task, BitVec.ofNat 32 q.firing, BitVec.ofNat 32 q.ins] ++ List.replicate 28 0 ∧
      core.a = [BitVec.ofNat 48 x.argAddr, 0, 0, 0] ∧ (∀ j < 8, lget 0 core.v j = BitVec.ofNat 256 (lget 0 (f.taken.map (fun (u : Token) => u.data)) j).toNat)) ∧
    t = { s with root := { s.root with insts := t.root.insts, queues := t.root.queues, queueWait := t.root.queueWait },
                 gr := { s.gr with cores := t.gr.cores, spec := t.gr.spec }, trk := t.trk, ev := t.ev })

/-- Ends of instances (R155, R162–R164): one whose nodes are DONE and confirmed completes its command with OK and its number; one in deadlock frees its number,
raises PART_ERROR and completes with DEADLOCK; one that makes progress stays. -/
def Sys2Proof.Claims.InstancesCompleteOrDeadlock : Prop := ∀ (s : State) (i : Fin 16384) (x : Inst), instOf s i = some x →
  (∀ r seq c, x.owner = .run r seq → x.rerun = false → cmdOf s r seq = some c → c.result = none →
    (x.nodes.all (fun y => nodeDone y && y.firings.isEmpty) = true → x.remote = 0 → Answers (.instanceComplete i) s fun t =>
      instOf t i = none ∧ (∀ j, j ≠ i.val → instOf t j = instOf s j) ∧ Done t r seq c stOk i 0 ∧ (∀ q ∈ t.gr.cores, q.2.ins ≠ i.val) ∧
      t = { cmdsFrom s t with root := t.root, gr := { s.gr with cores := t.gr.cores }, fb := t.fb, fab := { s.fab with out := t.fab.out } }) ∧
    (deadlocked s i x = true → Answers (.deadlock i) s fun t =>
      instOf t i = none ∧ Done t r seq c stDeadlock i 0 ∧ (∀ q ∈ t.gr.cores, q.2.ins ≠ i.val) ∧ (x.part < 72 → Occurs s t (0x154 + 2 * x.part)))) ∧
  (deadlocked s i x = false → exec (.deadlock i) s = .next s) ∧
  (¬(x.nodes.all (fun y => nodeDone y && y.firings.isEmpty) = true ∧ x.remote = 0) → exec (.instanceComplete i) s = .next s)

/-- Speculation (R168, R182–R184): a releasable task is released and its undo and redo entries go; a firing whose undo is due is stopped on every core, the lines that
its tasks stored, and that no later task has, are written back, and it is placed again or waits. -/
def Sys2Proof.Claims.ShadowedTasksAreReleasedOrUndone : Prop := ∀ (s : State) (i : Fin 16384) (n : Fin 4096) (x : Inst) (y : Node) (f : Firing), Holds s i n x y →
  y.firings = [f] →
  (∀ (k : Fin 4096) z, f.tasks[k.val]? = some z → z.heldFault = none → clearing s z = false → releasable y f z = true → z.redo = [] →
    (∃ m w, m ≠ k.val ∧ f.tasks[m]? = some w ∧ w.shadowed = true ∧ w.released = false) → Answers (.shadowRelease i n k) s fun t =>
      taskOf t i n f.num k = some { z with released := true, undo := [], redo := [] } ∧
      t = { s with root := { s.root with insts := t.root.insts }, gr := { s.gr with spec := t.gr.spec, qstat := t.gr.qstat } }) ∧
  (f.undoDue.isSome = true → y.ent.kind ≠ 6 → Answers (.shadowUndo i n) s fun t =>
    (∃ g, firingOf t i n f.num = some g ∧ g.undoDue = none ∧ g.ticket = none ∧ g.ahead = f.undoDue.any (fun u => decide (u ≠ 0)) ∧
      ∀ z ∈ g.tasks, ∃ d, z.place = .ready d) ∧
    (∀ q ∈ t.gr.cores, ¬(q.2.ins = i.val ∧ q.2.node = n.val ∧ q.2.firing = f.num ∧ q.2.task < f.tasks.length)) ∧
    (∀ z u, f.tasks = [z] → z.shadowed = true → z.released = false → z.undo = [u] → u.mixed = false →
      (∀ w ∈ shadowOn s z.grove, ∀ v ∈ w.val.undo, v.line = u.line → v.seq ≤ u.seq) →
      ∀ k < u.old.length, scratchByte z.grove (groveOf t z.grove) (u.line + k) = lget 0 u.old k) ∧ t.mem = s.mem ∧ t.canopy = s.canopy ∧ t.trail = s.trail ∧ t.dir = s.dir)

/-- Checks and re-runs (R208, R299, R304–R306): a sound task passes; one that is not is undone and counted, with source 0x020, and at the third failure the
instance ends with UNIT_FAULT; a firing that tripped is run again at the layer's wider entry, or its results stand; a failed self-test fences the grove (R300). -/
def Sys2Proof.Claims.FailedChecksReturnTheFiring : Prop := ∀ (s : State) (i : Fin 16384) (n : Fin 4096) (x : Inst) (y : Node) (f : Firing), Holds s i n x y →
  y.firings = [f] →
  (∀ (k : Fin 4096) z, f.tasks[k.val]? = some z → y.ent.checked = true → clearing s z = false → checkDue x f z = true →
    (z.sound = true → f.failed = [] → Answers (.checkResult i n k) s fun t => taskOf t i n f.num k = some { z with checked := some true } ∧
      t = { s with root := { s.root with insts := t.root.insts }, fb := { s.fb with stats := t.fb.stats } }) ∧
    (z.sound = false → f.undoDue = none → f.badInput = false → f.failures < 2 → Answers (.checkResult i n k) s fun t =>
      (∃ g, firingOf t i n f.num = some g ∧ g.undoDue = some 1 ∧ g.failures = f.failures + 1 ∧ g.failed = z.grove :: f.failed) ∧ Occurs s t 0x020 ∧
      t = { s with root := { s.root with insts := t.root.insts }, fb := { s.fb with stats := t.fb.stats }, ev := t.ev, trk := t.trk }) ∧
    (∀ r seq c, z.sound = false → f.undoDue = none → f.badInput = false → 2 ≤ f.failures → x.owner = .run r seq → x.rerun = false → cmdOf s r seq = some c →
      c.result = none → Answers (.checkResult i n k) s fun t => instOf t i = none ∧ Done t r seq c stUnitFault (faultAux 0x40 z.grove 0) 0 ∧ Occurs s t 0x021)) ∧
  (f.returned = false → f.undoDue = none → f.tasks ≠ [] → allRetired f = true → rerunTripped x f ≠ [] →
    (∀ l, ((rerunTripped x f).filter (fun m => decide (widerEntry x f m ≠ 0))).head? = some l → Answers (.rerunTrigger i n) s fun t =>
      (∃ x' y' g, Holds t i n x' y' ∧ x'.rerun = true ∧ y'.firings = [g] ∧ g.undoDue = some 2 ∧ g.entry = widerEntry x f l ∧ g.widened = f.widened + 1 ∧
        g.tasks = f.tasks ∧ g.taken = f.taken) ∧
      t = { s with root := { s.root with insts := t.root.insts }, gr := { s.gr with qstat := t.gr.qstat } }) ∧
    ((∀ m ∈ rerunTripped x f, widerEntry x f m = 0) → Answers (.rerunTrigger i n) s fun t =>
      (∃ g, firingOf t i n f.num = some g ∧ g.undoDue = none ∧ g.tasks = f.tasks ∧ rerunTripped x g = []) ∧
      t = { s with root := { s.root with insts := t.root.insts }, gr := { s.gr with qstat := t.gr.qstat } }))

/-- Single steps of other engines: a grove's failed self-test fences it (R300), a passed one changes nothing; a sequencer switches to a new patch set when it is
its turn (R179); a resolved ticket is told to the device that holds its token (R303). -/
def Sys2Proof.Claims.SelfTestsPatchSwitchesAndTickets : Prop := ∀ s : State,
  (∀ g : Fin 432, exec (.checkerSelfTest g true) s = .next s) ∧
  (∀ g : Fin 432, g.val ∉ s.groves.gated → serving s (unitGrove g) = true → s.fb.round = none → Answers (.checkerSelfTest g false) s fun t =>
    (unitSum t (unitGrove g)).state = 1 ∧ (unitSum t (unitGrove g)).cause = 0x04 ∧ (∀ u, u ≠ unitGrove g → unitSum t u = unitSum s u) ∧
    g.val + 0x1000 ∈ t.fb.hardClearing ∧ t.root = s.root ∧ t.gr = s.gr ∧ t.trail = s.trail ∧ t.dir = s.dir) ∧
  (∀ (k : Fin 3) u, mayApply s k u = true → k.val < s.gr.micro.switching.length → Answers (.patchSwitch k u) s fun t => switchingUnit t k u = false ∧
    (∀ m v, ¬(m = k.val ∧ v = u) → switchingUnit t m v = switchingUnit s m v) ∧ patchOf t k u = lget {} s.gr.micro.patch k ∧
    t = { s with gr := { s.gr with micro := { s.gr.micro with switching := t.gr.micro.switching, former := t.gr.micro.former } } }) ∧
  (∀ (k : BitVec 24) x, s.fb.tickets = [x] → x.num = k.toNat →
    (x.resolved = 0 → exec (.ticketResolve k) s = .next s) ∧
    (∀ d, x.resolved = 1 ∨ x.resolved = 2 → destsIn s x.num 0 = [d] → destsIn s x.num 2 = [] → hasRoute s d = true → (peerOf s d).inc.isSome = true →
      Answers (.ticketResolve k) s fun t => destsIn t x.num 0 = [] ∧ (∃ o ∈ t.fab.out, o.dest = d ∧ o.oseq = (peerOf s d).next ∧
        o.opc = (if x.resolved = 1 then 0x08 else 0x09) ∧ o.data = leBytes 4 x.num ∧ o.owner = .ticket [x.num]) ∧
      t = { s with fb := { s.fb with store := t.fb.store }, fab := t.fab, trk := t.trk }))

/-- CANOPY, COPY and remote OUTPUT nodes (R241, R280, R293): a CANOPY task reduces each group of 32 bytes into memory, a COPY task moves its bytes, and each
emits its length; a remote OUTPUT sends its token, or ends the instance with UNREACHABLE where no route is left. -/
def Sys2Proof.Claims.CanopyCopyAndRemoteOutputNodes : Prop := ∀ (s : State) (i : Fin 16384) (n : Fin 4096) (x : Inst) (y : Node),
  (∀ f q h d src len code dst, OneSliceTask s i n x y f q → y.ent.kind = 3 → y.operand = some h → (f.taken.head?).map (·.data.toNat) = some d →
    src = field d 47 0 → len = field d 95 64 → code = field d 103 96 → dst = h.base + y.ent.opOff → 0x20 ≤ code → code ≤ 0x25 → len ≤ y.ent.opLen → len % 32 = 0 →
    inPartMem s x.part src len = true → field d 63 48 = 0 → src % 32 = 0 → dst % 32 = 0 → Uncached s → firstPoison s src len = none → firstPoison s dst len = none →
    (src + len ≤ dst ∨ dst + len ≤ src) → Answers (.canopyTask i n) s fun t => Emitted t i n y q (BitVec.ofNat 128 len) ∧
      (∀ k < len / 32, leNat (memRead t.mem.bytes (dst + 32 * k) 32) =
        atomNew code (leNat (memRead s.mem.bytes (dst + 32 * k) 32)) (leNat (memRead s.mem.bytes (src + 32 * k) 32)) 0) ∧
      (∀ a, a < dst ∨ dst + len ≤ a → memByte t.mem.bytes a = memByte s.mem.bytes a) ∧
      t = { written s t with root := { s.root with insts := t.root.insts } }) ∧
  (∀ f q h d c a b, OneSliceTask s i n x y f q → y.ent.kind = 4 → copyOut s i n f.num = false → y.operand = some h →
    (f.taken.head?).map (·.data.toNat) = some d → c = copyTok s x.part d → c.dest = 0 → a = h.base + y.ent.opOff + c.loff → copyBad c d y.ent.opLen = false →
    Uncached s → bitOf h.rights (if c.kind = 1 then 1 else 0) = true →
    (c.kind = 0 → relocate s x.part c.handle [kBuffer] false true c.roff c.len = .ok b → firstPoison s a c.len = none → Answers (.copyTask i n) s fun t =>
      Emitted t i n y q (BitVec.ofNat 128 c.len) ∧ Stored s t (b.base + c.roff) (memRead s.mem.bytes a c.len) ∧
      t = { written s t with root := { s.root with insts := t.root.insts } }) ∧
    (c.kind = 1 → relocate s x.part c.handle [kBuffer] true false c.roff c.len = .ok b → firstPoison s (b.base + c.roff) c.len = none →
      Answers (.copyTask i n) s fun t => Emitted t i n y q (BitVec.ofNat 128 c.len) ∧ Stored s t a (memRead s.mem.bytes (b.base + c.roff) c.len) ∧
      t = { written s t with root := { s.root with insts := t.root.insts } })) ∧
  (∀ u l d, Holds s i n x y → y.ent.kind = 6 → y.ent.remote = true → y.started < y.ent.firings → headTokens x y.ent = some (u :: l) → u.st = .confirmed →
    d = lget 0 y.ent.outQ 0 →
    (hasRoute s d = true → (peerOf s d).inc.isSome = true → Answers (.remoteOutputSend i n) s fun t =>
      (∃ x' y', Holds t i n x' y' ∧ x'.remote = x.remote + 1 ∧ y'.started = y.started + 1 ∧ y'.fired = y.fired + 1) ∧
      (∃ o ∈ t.fab.out, o.dest = d ∧ o.oseq = (peerOf s d).next ∧ o.opc = 0x03 ∧ o.part = x.part ∧ o.arg = lget 0 y.ent.outQ 1 ∧
        o.data = leBytes 4 x.key ++ leBytes 16 u.data.toNat ∧ o.owner = .token i n) ∧
      t = { s with root := { s.root with insts := t.root.insts }, fab := t.fab, trk := t.trk }) ∧
    (∀ r seq c, hasRoute s d = false → x.owner = .run r seq → x.rerun = false → cmdOf s r seq = some c → c.result = none → Answers (.remoteOutputSend i n) s fun t =>
      instOf t i = none ∧ Done t r seq c stUnreachable i 0))

/-! ## Groves: words, slots and cores (chapters 11, 12 and 13) -/

namespace Sys2Proof.Claims

/-- A core runs a task and may go on: the task holds no exception and no hard cause has fenced its grove. -/
def Running (s : State) (c : Nat) (k : Core) : Prop := sfind s.gr.cores c = some k ∧ mayIssue s c k = true

/-- From `s` to `t` one core's registers become `k'`; every other core, memory, every grove's store and flags and every task is as it was. Counters, samples,
the event of a counter's wrap and draws of open values may move. -/
def CoreBecomes (s t : State) (c : Nat) (k' : Core) : Prop :=
  sfind t.gr.cores c = some k' ∧ (∀ d, d ≠ c → sfind t.gr.cores d = sfind s.gr.cores d) ∧
  t = { s with gr := { s.gr with cores := t.gr.cores }, trk := t.trk, ev := t.ev, free := t.free }

/-- A slot taken by itself completes and leaves the core with the registers `k'`; its wait marks are cleared. -/
def Slot (i : Instr) (s : State) (c : Nat) (k' : Core) : Prop :=
  Answers i s fun t => CoreBecomes s t c { k' with waiting := false, scanOut := none }

/-- A program exception with a cause (R186, Table 11-9): with confirmed inputs the command ends with UNIT_FAULT and the instance is gone; with an unconfirmed
one the task holds it back. -/
def Excepts (i : Instr) (s : State) (c : Nat) (k : Core) (cause : Nat) : Prop :=
  ∀ x f z, instOf s k.ins = some x → firingOf s k.ins k.node k.firing = some f → f.tasks[k.task]? = some z →
    (inputsConfirmed f = false → Answers i s fun t => ∃ y, taskOf t k.ins k.node k.firing k.task = some y ∧ y.heldFault = some (cause, k.upc)) ∧
    (∀ r seq d, inputsConfirmed f = true → x.owner = .run r seq → x.rerun = false → cmdOf s r seq = some d → d.result = none → Answers i s fun t =>
      instOf t k.ins = none ∧ Done t r seq d stUnitFault (faultAux cause (c / 64) k.upc) 0)

/-- The word that a core fetches, and where it executes: in the patch RAM, in the control store, or through the lowest match register whose MATCH is
uPC (R178). -/
def Fetches (s : State) (c : Nat) (k : Core) (w : GWord) (inPatch : Bool) (upc : Nat) : Prop :=
  let p := patchOf s 0 (c / 64)
  (k.inPatch = true ∧ inPatch = true ∧ upc = k.upc ∧ w = gword (sget 0 p.words k.upc)) ∨
  (k.inPatch = false ∧ inPatch = false ∧ upc = k.upc ∧ w = gword (sget 0 (lget [] s.gr.micro.stores 0) k.upc) ∧ ∀ m ∈ p.regs, m.2.1 ≠ k.upc) ∨
  (k.inPatch = false ∧ inPatch = true ∧ w = gword (sget 0 p.words upc) ∧ ∃ l m l', p.regs = l ++ m :: l' ∧ m.2.1 = k.upc ∧ m.2.2 = upc ∧ ∀ n ∈ l, n.2.1 ≠ k.upc)

/-- A core at a new place, its word's iterations over. -/
def at' (k : Core) (inPatch : Bool) (upc : Nat) : Core := { k with inPatch, upc, iter := 0, scanOut := none }

end Sys2Proof.Claims

/-- NEXT (R170, R178, R186; Table 11-3): the seven NEXT actions that go on, CALL and RETURN out of depth, and END, which retires the task and frees the core; the
last task of a firing emits its tokens. -/
def Obligations.NextActionsMoveTheCore : Prop := ∀ (s : State) (c : Fin 27648) (k : Core), Running s c k →
  (∀ t : BitVec 14, let seq := at' k k.inPatch ((k.upc + 1) % (if k.inPatch then 512 else 16384))
    (Answers (.jump c t) s fun u => CoreBecomes s u c (at' k false t.toNat)) ∧
    (Answers (.bz c t) s fun u => CoreBecomes s u c (if k.z then at' k false t.toNat else seq)) ∧
    (Answers (.bnz c t) s fun u => CoreBecomes s u c (if k.z then seq else at' k false t.toNat)) ∧
    (Answers (.loopOp c t) s fun u => CoreBecomes s u c
      (if k.lc = 1 then { seq with lc := 0 } else { at' k false t.toNat with lc := k.lc - 1 })) ∧
    (k.stack.length < 4 → Answers (.callOp c t) s fun u => CoreBecomes s u c { at' k false t.toNat with stack := (seq.inPatch, seq.upc) :: k.stack }) ∧
    (4 ≤ k.stack.length → Excepts (.callOp c t) s c k 0x02) ∧
    (Answers (.pjump c t) s fun u => CoreBecomes s u c (at' k true (t.toNat % 512)))) ∧
  (∀ p a l, k.stack = (p, a) :: l → Answers (.returnOp c) s fun u => CoreBecomes s u c { at' k p a with stack := l }) ∧
  (k.stack = [] → Excepts (.returnOp c) s c k 0x01) ∧
  (∀ f z, firingOf s k.ins k.node k.firing = some f → f.tasks[k.task]? = some z →
    ((∃ m y, m ≠ k.task ∧ f.tasks[m]? = some y ∧ y.place ≠ .retired) → Answers (.endTask c) s fun u => sfind u.gr.cores c = none ∧
      taskOf u k.ins k.node k.firing k.task = some { z with place := .retired, outs := (List.range 8).map (fun o => (getV k (24 + o)).setWidth 128) } ∧
      u = { s with gr := { s.gr with cores := u.gr.cores }, root := { s.root with insts := u.root.insts }, trk := u.trk }) ∧
    (∀ x y q, Holds s k.ins k.node x y → y.firings = [f] → f.tasks = [z] → z.shadowed = false → f.freed = false → f.emitted = false → outQs y.ent = [q] →
      (queueOf x q).isSome = true → standsRetracted x k.node f.num 0 = false → s.fb.store = [] → f.num = k.firing → Answers (.endTask c) s fun u =>
      sfind u.gr.cores c = none ∧ Emitted u k.ins k.node y q ((getV k 24).setWidth 128)))

/-- Words (R171, R174, R178, R186; Table 11-3): a word whose condition is false changes nothing, and a wait past its limit raises STUCK; a word that breaks no rule of issue
and waits for no memory and no other core runs and goes on by its NEXT, or retires its task; it runs REP + 1 times, each time moving its address registers, every slot
reading the core as it stands. -/
def Obligations.WordsIssueAndGoOn : Prop := ∀ (s : State) (c : Fin 27648) (k : Core), Running s c k →
  (∀ w p a k1, Fetches s c k w p a → k1 = { k with inPatch := p, upc := a } → k.iter = 0 → k.scan = none → k.scanOut = none → w.cond ≤ 38 → condTrue s c k1 w.cond = true →
    issueFault s k1 w = none → w.vop ≠ 22 → w.mem = 0 →
    (w.next ≠ 7 → Answers (.wordIssue c) s fun t => (∃ j, sfind t.gr.cores c = some { nextCore w.next w.target j with iter := 0, scanOut := none } ∧
      j.inPatch = p ∧ j.upc = a ∧ j.stack = k.stack ∧ j.waiting = false) ∧ (∀ e, e ≠ c.val → sfind t.gr.cores e = sfind s.gr.cores e) ∧
      t = { s with gr := t.gr, root := t.root, trk := t.trk, ev := t.ev, free := t.free }) ∧
    (w.next = 7 → Answers (.wordIssue c) s fun t => sfind t.gr.cores c = none ∧ t.mem = s.mem ∧ t.canopy = s.canopy)) ∧
  (∀ w p a, Fetches s c k w p a → k.iter = 0 → k.scan = none → k.scanOut = none → w.cond ≤ 38 →
    (condTrue s c { k with inPatch := p, upc := a } w.cond = false →
      (Answers (.wordIssue c) s fun u => CoreBecomes s u c { k with inPatch := p, upc := a }) ∧
      (∀ x, instOf s k.ins = some x → param s 0x3002 1 x.part ≠ 0 → Excepts (.waitStuck c) s c { k with inPatch := p, upc := a } 0x06)) ∧
    (condTrue s c { k with inPatch := p, upc := a } w.cond = true → matrixBad w k = false → w.sop = 0 → w.mop = 0 → w.mem = 0 → w.next ≤ 4 →
      (w.vop = 0 → Answers (.wordIssue c) s fun u => CoreBecomes s u c (nextCore w.next w.target { at' k p a with
        a := k.a.zipIdx.map (fun r => r.1 + BitVec.ofInt 48 ((w.rep + 1) * (32 * signedOf 8 (w.strides >>> (8 * r.2))))), waiting := false })) ∧
      (w.vop = 14 → w.rep = 0 → w.strides = 0 → w.v.fmt = 1 → w.v.ksel = 0 → Answers (.wordIssue c) s fun u => CoreBecomes s u c (nextCore w.next w.target
        { at' (setV k w.v.vd (packElems 32 (List.replicate 8 (getS k w.v.va).toNat))) p a with waiting := false }))) ∧
    (condTrue s c { k with inPatch := p, upc := a } w.cond = true → matrixBad w k = false → w.sop = 1 → w.vop = 15 → w.v.fmt = 1 → w.v.vb.val < 8 → w.v.vd.val ≠ w.sd → w.mop = 0 →
      w.mem = 0 → w.rep = 0 → w.strides = 0 → w.next ≤ 4 → Answers (.wordIssue c) s fun u => CoreBecomes s u c (nextCore w.next w.target
        { at' (setS (setS k w.v.vd (BitVec.ofNat 32 (lget 0 (elemsOf 32 (getV k w.v.va)) w.v.vb))) w.sd (getS k w.sa + getS k w.sb)) p a with waiting := false })))

/-- The SCALAR slot (R166, Table 11-4): each operation's one result, with s0 reading 0 and ignoring writes; shifts by 32 or more leave an open value; flags and
barriers are written for the grove and the task. No other register, core, grove or task changes. -/
def Obligations.ScalarSlotsWriteOneRegister : Prop := ∀ (s : State) (c : Fin 27648) (k : Core), Running s c k →
  (∀ v, getS k 0 = 0 ∧ setS k 0 v = k) ∧
  ∀ (d a b : Fin 32) (imm : BitVec 48), let x := getS k a; let y := getS k b; let g := c.val / 64
  Slot (.add c d a b) s c (setS k d (x + y)) ∧ Slot (.sub c d a b) s c (setS k d (x - y)) ∧ Slot (.andOp c d a b) s c (setS k d (x &&& y)) ∧
  Slot (.orOp c d a b) s c (setS k d (x ||| y)) ∧ Slot (.xorOp c d a b) s c (setS k d (x ^^^ y)) ∧
  (y.toNat < 32 → Slot (.shl c d a b) s c (setS k d (x <<< y.toNat)) ∧ Slot (.shr c d a b) s c (setS k d (x >>> y.toNat))) ∧
  (32 ≤ y.toNat → (∃ v, Slot (.shl c d a b) s c (setS k d v)) ∧ ∃ v, Slot (.shr c d a b) s c (setS k d v)) ∧
  Slot (.cmp c a b) s c { k with z := decide (x = y), n := (x - y).msb } ∧ Slot (.li c d imm) s c (setS k d (imm.setWidth 32)) ∧
  Slot (.seta c d imm) s c (setA k (d % 4) imm) ∧ Slot (.adda c d a) s c (setA k (d % 4) (getA k (d % 4) + x.setWidth 48)) ∧
  Slot (.setlc c imm) s c { k with lc := imm.setWidth 16 } ∧
  (∀ on ∈ [true, false], Answers (if on then .setf c imm else .clrf c imm) s fun t =>
    (∀ n < 16, (groveOf t g).flags.getLsbD n = if n = imm.toNat % 16 then on else (groveOf s g).flags.getLsbD n) ∧
    groveOf t g = { groveOf s g with flags := (groveOf t g).flags } ∧ (∀ h, h ≠ g → groveOf t h = groveOf s h) ∧
    sfind t.gr.cores c = some { k with waiting := false, scanOut := none } ∧ (∀ e, e ≠ c.val → sfind t.gr.cores e = sfind s.gr.cores e) ∧
    t = { s with gr := { s.gr with cores := t.gr.cores, groves := t.gr.groves }, trk := t.trk, ev := t.ev, free := t.free }) ∧
  (∀ z, taskOf s k.ins k.node k.firing k.task = some z → Answers (.barrier c imm) s fun t =>
    (∃ y, taskOf t k.ins k.node k.firing k.task = some y ∧ y = { z with arrived := y.arrived } ∧ ∀ n, n ∈ y.arrived ↔ n ∈ z.arrived ∨ n = imm.toNat % 8) ∧
    sfind t.gr.cores c = some { k with waiting := false, scanOut := none } ∧ (∀ e, e ≠ c.val → sfind t.gr.cores e = sfind s.gr.cores e) ∧
    t = { s with gr := { s.gr with cores := t.gr.cores }, root := { s.root with insts := t.root.insts }, trk := t.trk, ev := t.ev, free := t.free })

/-- The MEM slot (R173, R181, R185, R238): LD and ST on scratch, with an undo entry while shadowed; DLD and DST on memory, through the cache where the grove
has one; ATOM at the home, with the old value when it fetches; addresses out of range or not aligned raise their exception. -/
def Obligations.MemorySlotsReadAndStore : Prop := ∀ (s : State) (c : Fin 27648) (k : Core), Running s c k → ∀ (m : MemSlot) i f z g a v,
  taskCtx s k = some (i, f, z) → g = c.val / 64 → a = (getA k m.areg + BitVec.ofNat 48 (32 * m.offset.toNat)).toNat → v = getV k m.vreg →
  (a < scratchBytes (splitOf s i.part) → a % 32 = 0 →
    Slot (.ld c m) s c (setV k m.vreg (BitVec.ofNat 256 (leNat (scratchRead g (groveOf s g) a 32)))) ∧
    -- no other core runs the task, and no other shadowed task of the grove has stored to the line
    (∀ shadowed, shadowed = inShadow z → (shadowed = true → z.undo = [] ∧ z.redo = []) →
      (∀ q ∈ s.gr.cores, q.1 ≠ c.val → ¬(q.2.ins = k.ins ∧ q.2.node = k.node ∧ q.2.firing = k.firing ∧ q.2.task = k.task)) →
      (∀ w ∈ shadowOn s g, (w.ins = k.ins ∧ w.node = k.node ∧ w.firing = k.firing ∧ w.num = k.task) ∨ ∀ u ∈ w.val.undo, u.line ≠ 64 * (a / 64)) →
      Answers (.st c m) s fun t =>
      (∀ b, scratchByte g (groveOf t g) b = if a ≤ b ∧ b < a + 32 then lget 0 (leBytes 32 v.toNat) (b - a) else scratchByte g (groveOf s g) b) ∧
      groveOf t g = { groveOf s g with store := (groveOf t g).store } ∧ (∀ h, h ≠ g → groveOf t h = groveOf s h) ∧
      (shadowed = true → ∃ mixed, taskOf t k.ins k.node k.firing k.task = some { z with undo := [
          { line := 64 * (a / 64), old := scratchRead g (groveOf s g) (64 * (a / 64)) 64, seq := s.gr.shadowSeq, mixed }] } ∧
        (mixed = true ↔ ∃ q ∈ s.gr.cores, q.1 / 64 = g ∧ a / 64 ∈ q.2.lines ∧
          ¬(q.2.ins = k.ins ∧ q.2.node = k.node ∧ q.2.firing = k.firing ∧ q.2.task = k.task))) ∧
      sfind t.gr.cores c = some { k with lines := (if a / 64 ∈ k.lines then k.lines else a / 64 :: k.lines), waiting := false, scanOut := none } ∧
      (∀ e, e ≠ c.val → sfind t.gr.cores e = sfind s.gr.cores e) ∧
      t = { s with gr := { s.gr with cores := t.gr.cores, groves := t.gr.groves, shadowSeq := t.gr.shadowSeq }, root := { s.root with insts := t.root.insts },
                   trk := t.trk, ev := t.ev, free := t.free } ∧ (shadowed = false → t.root = s.root))) ∧
  (scratchBytes (splitOf s i.part) ≤ a → Excepts (.ld c m) s c k 0x03 ∧ Excepts (.st c m) s c k 0x03) ∧
  (a < scratchBytes (splitOf s i.part) → a % 32 ≠ 0 → Excepts (.ld c m) s c k 0x05 ∧ Excepts (.st c m) s c k 0x05) ∧
  (deviceOk s i.part a 32 = true → a % 32 ≠ 0 → Excepts (.dld c m) s c k 0x05 ∧ Excepts (.dst c m) s c k 0x05) ∧
  (deviceOk s i.part a 32 = false → ¬(i.argAddr ≤ a ∧ a + 32 ≤ i.argAddr + 4096) → Excepts (.dld c m) s c k 0x04 ∧ Excepts (.dst c m) s c k 0x04) ∧
  (deviceOk s i.part a 32 = false → i.argAddr ≤ a → a + 32 ≤ i.argAddr + 4096 → a % 32 = 0 →
    Slot (.dld c m) s c (setV k m.vreg (BitVec.ofNat 256 (leAt i.args (a - i.argAddr) 32)))) ∧
  (deviceOk s i.part a 32 = true → a % 32 = 0 → poisonOf s (a / 64) = none →
    (cacheBytes (splitOf s i.part) = 0 → Uncached s →
      ((∀ bs, overlay s g a bs = bs) → Slot (.dld c m) s c (setV k m.vreg (BitVec.ofNat 256 (leNat (memRead s.mem.bytes a 32))))) ∧
      (inShadow z = false → Answers (.dst c m) s fun t => Stored s t a (leBytes 32 v.toNat) ∧ sfind t.gr.cores c = some { k with waiting := false, scanOut := none } ∧
        (∀ e, e ≠ c.val → sfind t.gr.cores e = sfind s.gr.cores e) ∧
        t = { s with gr := { s.gr with cores := t.gr.cores }, mem := t.mem, canopy := t.canopy, trk := t.trk, ev := t.ev, free := t.free }) ∧
      (inShadow z = true → z.redo = [] → z.undo = [] → Answers (.dst c m) s fun t =>
        taskOf t k.ins k.node k.firing k.task = some { z with redo := [(s.gr.shadowSeq, .store a (leBytes 32 v.toNat))] } ∧ t.mem = s.mem ∧ t.canopy = s.canopy)) ∧
    (∀ cp, cacheBytes (splitOf s i.part) ≠ 0 → lineBusy s (a / 64) = false → copyOfLine s g (a / 64) = some cp → cp.data.length = 64 →
      ((∀ bs, overlay s g a bs = bs) → Slot (.dld c m) s c (setV k m.vreg (BitVec.ofNat 256 (leNat ((cp.data.drop (a % 64)).take 32))))) ∧
      (cp.st = .exclusive ∨ cp.st = .modified → inShadow z = false → (unitSum s (unitPort (portOf a))).state ≠ 2 → Answers (.dst c m) s fun t =>
        copyOfLine t g (a / 64) = some { cp with st := .modified, data := cp.data.take (a % 64) ++ leBytes 32 v.toNat ++ cp.data.drop (a % 64 + 32) } ∧
        t.mem = s.mem ∧ t = { s with gr := { s.gr with cores := t.gr.cores }, canopy := { s.canopy with copies := t.canopy.copies },
                                     trk := t.trk, ev := t.ev, free := t.free }))) ∧
  (∀ (imm : BitVec 48) code n, code = field imm.toNat 46 40 → atomSize code = some n → fetchOk code (bitOf imm.toNat 47) = true → deviceOk s i.part a n = true →
    a % n = 0 → Uncached s → poisonOf s (a / 64) = none → inShadow z = false → Answers (.atom c m imm) s fun t =>
      let swapCas := code = 0x0F ∨ code = 0x10
      let old := leNat (memRead s.mem.bytes a n)
      Stored s t a (leBytes n (atomNew code old (if swapCas then field v.toNat (16 * n - 1) (8 * n) else v.toNat % 2 ^ (8 * n)) (v.toNat % 2 ^ (8 * n)))) ∧
      sfind t.gr.cores c = some { (if bitOf imm.toNat 47 then setV k m.vreg (BitVec.ofNat 256 old) else k) with waiting := false, scanOut := none } ∧
      (∀ e, e ≠ c.val → sfind t.gr.cores e = sfind s.gr.cores e) ∧
      t = { s with gr := { s.gr with cores := t.gr.cores }, mem := t.mem, canopy := t.canopy, trk := t.trk, ev := t.ev, free := t.free })

namespace Sys2Proof.Claims

/-- Element `i` of `w` bits of a vector register. -/
def elem (w : Nat) (r : BitVec 256) (i : Nat) : Nat := field r.toNat (w * i + w - 1) (w * i)

/-- A vector slot completes and writes vD alone: lane `j` of `n` takes `F j` where its mask bit is set, else 0 under MZ, else it keeps its value (R191). -/
def Lanes (i : Instr) (s : State) (c : Nat) (k : Core) (v : VSlot) (w n : Nat) (F : Nat → Nat) : Prop :=
  ∃ r : BitVec 256, Slot i s c (setV k v.vd r) ∧
    ∀ j < n, elem w r j = if (getK k v.ksel).getLsbD j then F j % 2 ^ w else if v.mz then 0 else elem w (getV k v.vd) j

/-- The bytes that the MLD of a slot streams: one aligned 32-byte read of unpoisoned memory by a grove without a cache. -/
def Streams (s : State) (c : Nat) (k : Core) (m : MemSlot) (bs : List Byte) : Prop :=
  ∃ i f z a, taskCtx s k = some (i, f, z) ∧ a = (getA k m.areg + BitVec.ofNat 48 (32 * m.offset.toNat)).toNat ∧ deviceOk s i.part a 32 = true ∧ a % 32 = 0 ∧
    cacheBytes (splitOf s i.part) = 0 ∧ Uncached s ∧ poisonOf s (a / 64) = none ∧ (∀ l, overlay s (c / 64) a l = l) ∧ bs = memRead s.mem.bytes a 32

/-- The formats of a MATRIX slot may stand together, and its layer is no RERUN layer (Table 13-3). -/
def FormatsOk (s : State) (k : Core) (x : XSlot) (i : Inst) : Prop :=
  instOf s k.ins = some i ∧ x.sfmt.val ≤ 4 ∧ (x.pfmt = x.sfmt ∨ ((x.sfmt.val = 2 ∨ x.sfmt.val = 3) ∧ (x.pfmt.val = 2 ∨ x.pfmt.val = 3))) ∧ (x.sfmt.val = 4 → x.group = 0) ∧ x.ofmt.val ≤ 5 ∧ layerMode (lget 0 i.layers x.layer) ≠ 2

end Sys2Proof.Claims

/-- Elementwise vector operations (R188–R190; Table 12-3, 1–14): integers wrap and shift by B modulo the width, FP results are rounded once, masks keep or
zero, comparisons write a mask, conversions take their halves; nothing but the destination register changes. -/
def Obligations.VectorLanesAreComputedUnderTheMask : Prop := ∀ (s : State) (c : Fin 27648) (k : Core), Running s c k →
  ∀ (v : VSlot) f w n A B D X Y Z, f = v.fmt.val → w = vWidth f → n = vCount f →
  A = (fun j => vInt f (elem w (getV k v.va) j)) → B = (fun j => vInt f (elem w (getV k v.vb) j)) → D = (fun j => vInt f (elem w (getV k v.vd) j)) →
  X = (fun j => fdec (vFmt f) (elem w (getV k v.va) j)) → Y = (fun j => fdec (vFmt f) (elem w (getV k v.vb) j)) → Z = (fun j => fdec (vFmt f) (elem w (getV k v.vd) j)) →
  (f = 1 ∨ f = 2 ∨ f = 5 → ∀ p ∈ ([(.vadd c v, fun j => wrapInt w (A j + B j)), (.vsub c v, fun j => wrapInt w (A j - B j)),
      (.vmin c v, fun j => wrapInt w (if B j < A j then B j else A j)), (.vmax c v, fun j => wrapInt w (if A j < B j then B j else A j)),
      (.vand c v, fun j => elem w (getV k v.va) j &&& elem w (getV k v.vb) j), (.vor c v, fun j => elem w (getV k v.va) j ||| elem w (getV k v.vb) j),
      (.vxor c v, fun j => elem w (getV k v.va) j ^^^ elem w (getV k v.vb) j),
      (.vshl c v, fun j => wrapInt w (A j * 2 ^ (elem w (getV k v.vb) j % w))),
      (.vshr c v, fun j => wrapInt w (A j / 2 ^ (elem w (getV k v.vb) j % w)))] : List (Instr × (Nat → Nat))), Lanes p.1 s c k v w n p.2) ∧
  (f = 1 ∨ f = 2 → Lanes (.vmul c v) s c k v w n (fun j => wrapInt w (A j * B j)) ∧ Lanes (.vfma c v) s c k v w n (fun j => wrapInt w (A j * B j + D j))) ∧
  (f = 0 ∨ f = 3 ∨ f = 4 → ∀ p ∈ ([(.vadd c v, fun j => fadd (X j) (Y j)), (.vsub c v, fun j => fadd (X j) (fneg (Y j))),
      (.vmin c v, fun j => fmin (X j) (Y j)), (.vmax c v, fun j => fmax (X j) (Y j))] : List (Instr × (Nat → FVal))),
      Lanes p.1 s c k v w n (fun j => fenc (vFmt f) (p.2 j))) ∧
  (f = 0 → Lanes (.vmul c v) s c k v w n (fun j => fenc fp32 (fmul (X j) (Y j))) ∧ Lanes (.vfma c v) s c k v w n (fun j => fenc fp32 (fadd (fmul (X j) (Y j)) (Z j)))) ∧
  (f ≤ 5 → v.mod.val < 6 ∨ (v.mod.val = 6 ∧ (f = 0 ∨ f = 3 ∨ f = 4)) → ∃ r : BitVec 32, Slot (.vcmp c v) s c (setK k (v.vd.val % 8) r) ∧
    ∀ j < 32, r.getLsbD j = (decide (j < n) && if (getK k v.ksel).getLsbD j then
      (if f = 0 ∨ f = 3 ∨ f = 4 then lget false [feqV (X j) (Y j), !feqV (X j) (Y j), fltV (X j) (Y j), fltV (X j) (Y j) || feqV (X j) (Y j), fltV (Y j) (X j),
          fltV (Y j) (X j) || feqV (X j) (Y j), isNan (X j) || isNan (Y j)] v.mod
        else lget false [decide (A j = B j), decide (A j ≠ B j), decide (A j < B j), decide (A j ≤ B j), decide (B j < A j), decide (B j ≤ A j)] v.mod)
      else !v.mz && (getK k (v.vd.val % 8)).getLsbD j)) ∧
  (f = 0 → v.mod = 1 → Lanes (.vcvt c v) s c k v 32 8 (fun j => wrapInt 32 (toIntSat (X j) (-2147483648) 2147483647).1)) ∧
  (f = 0 → v.mod = 3 ∨ v.mod = 4 → Lanes (.vcvt c v) s c k v 16 16 (fun j => fenc (vFmt v.mod) (if j < 8 then X j else Y (j - 8)))) ∧
  (f = 1 → v.mod = 0 → Lanes (.vcvt c v) s c k v 32 8 (fun j => fenc fp32 (ofInt (A j)))) ∧
  (f = 3 ∨ f = 4 → v.mod = 0 ∨ v.mod = 8 → Lanes (.vcvt c v) s c k v 32 8 (fun j => fenc fp32 (X (j + v.mod.val)))) ∧
  (f ≤ 5 → Lanes (.vbcast c v) s c k v w n (fun _ => (getS k v.va).toNat))

/-- Movement, scans, reductions and masks (R191–R195; Table 12-3, 15–26): elements move by index, pack and unpack under a mask, scans carry from word to word,
a VSCANX waits for the other tasks of its grove and delivers each its prefix and the total, and mask operations write one mask. -/
def Obligations.ScansAndMasksMoveElements : Prop := ∀ (s : State) (c : Fin 27648) (k : Core), Running s c k →
  ∀ (v : VSlot) f w n a act head op c0, f = v.fmt.val → f ≤ 5 → w = vWidth f → n = vCount f → a = (fun j => elem w (getV k v.va) j) →
  act = (List.range n).filter (fun j => (getK k v.ksel).getLsbD j) → head = (fun j => (getK k v.ksel).getLsbD j) → op = scanOp f v.mod →
  -- an inactive element contributes the identity; the first result of a segment is the element itself, a NaN the canonical one
  c0 = (if v.mod.val < 8 then scanId f v.mod else k.carry % 2 ^ w) → ∀ b : Nat → Nat, b = (fun j => if head j then a j else scanId f v.mod) →
  (v.vb.val < n → Slot (.vmovs c v) s c (setS k v.vd (BitVec.ofNat 32 (if f = 5 then wrapInt 32 (signedOf 8 (a v.vb)) else a v.vb)))) ∧
  Lanes (.vperm c v) s c k v w n (fun j => a (elem w (getV k v.vb) j % n)) ∧
  Lanes (.vexpand c v) s c k v w n (fun j => a (act.filter (· < j)).length) ∧
  (∃ r, Slot (.vcompress c v) s c (setV k v.vd r) ∧
    ∀ j < n, elem w r j = if j < act.length then a (lget 0 act j) else if v.mz then 0 else elem w (getV k v.vd) j) ∧
  Slot (.vcpop c v) s c (setS k v.vd (BitVec.ofNat 32 act.length)) ∧
  (v.mod.val % 4 ≠ 3 ∨ f = 1 ∨ f = 2 ∨ f = 5 →
    (∃ r cy, Slot (.vscan c v) s c { setV k v.vd r with carry := cy } ∧ cy = ((List.range n).map b).foldl op c0 ∧
      ∀ j < n, elem w r j = if head j then ((List.range (if bitOf v.mod 2 then j else j + 1)).map b).foldl op c0 % 2 ^ w
        else if v.mz then 0 else elem w (getV k v.vd) j) ∧
    (v.mz = false → ∃ r cy, Slot (.vsegscan c v) s c { setV k v.vd r with carry := cy } ∧
      -- `fold j`: the running value after element `j`, started again at each head
      ∃ fold : Nat → Nat, (∀ j < n, fold j = if head j then vCanon f (a j) else op (if j = 0 then c0 else fold (j - 1)) (a j)) ∧ cy = fold (n - 1) ∧
        ∀ j < n, elem w r j = (if bitOf v.mod 2 then (if head j then scanId f v.mod else if j = 0 then c0 else fold (j - 1)) else fold j) % 2 ^ w) ∧
    (∃ r, Slot (.vreduce c v) s c (setV k v.vd r) ∧ elem w r 0 = (act.map a).foldl op (scanId f v.mod) % 2 ^ w ∧ ∀ j < n, 0 < j → elem w r j = 0) ∧
    (bitOf v.mod 2 = false → k.scan = none → ∀ d kd w0 t0 t1, tasksOn s k (c.val / 64) = [t0, t1] → t0.1.place = .core d → t1.1.place = .core c → d ≠ c.val →
      sfind s.gr.cores d = some kd → (kd.scan = none → Answers (.vscanx c v) s fun t =>
        CoreBecomes s t c { k with scan := some ⟨f, v.mod, if v.mod.val < 8 then k.carry % 2 ^ w else a 0, v.vd, v.vb, false⟩ }) ∧
      (kd.scan = some w0 → w0.fmt = f → w0.mod = v.mod.val → w0.word = false → w0.vd ≠ w0.vb → v.vd ≠ v.vb → Answers (.vscanx c v) s fun t =>
        ∃ i0 i1 tot, i0 = scanId f v.mod ∧ i1 = op i0 w0.value ∧ tot = op i1 (if v.mod.val < 8 then k.carry % 2 ^ w else a 0) ∧
        sfind t.gr.cores d = some (setV (setV { kd with scan := none } w0.vd (packElems w (List.replicate n i0))) w0.vb (packElems w (List.replicate n tot))) ∧
        sfind t.gr.cores c = some (setV (setV k v.vd (packElems w (List.replicate n i1))) v.vb (packElems w (List.replicate n tot))) ∧
        (∀ e, e ≠ d → e ≠ c.val → sfind t.gr.cores e = sfind s.gr.cores e) ∧ t = { s with gr := { s.gr with cores := t.gr.cores }, free := t.free }))) ∧
  (∀ x y, x = getK k (v.va.val % 8) → y = getK k (v.vb.val % 8) → v.mod.val ≤ 3 → ∃ r, Slot (.vkop c v) s c (setK k (v.vd.val % 8) r) ∧
    ∀ j < 32, r.getLsbD j = (decide (j < n) && lget false [x.getLsbD j && y.getLsbD j, x.getLsbD j || y.getLsbD j, x.getLsbD j != y.getLsbD j,
      x.getLsbD j && !y.getLsbD j] v.mod)) ∧
  (∃ r, Slot (.vkmov c v) s c (setK k (v.vd.val % 8) r) ∧ ∀ j < 32, r.getLsbD j = (decide (j < n) && (getS k v.va).getLsbD j)) ∧
  Slot (.vmovk c v) s c (setS k v.vd (getK k (v.va.val % 8)))

/-- The MATRIX slot (R197–R205): PANEL loads 32 bytes of a row, MMA takes a scale slice where one is due, else multiplies the row by the streamed weights into
each column's accumulator, DRAIN scales, converts and packs the block, ZERO clears it; nothing else of the block or the core changes. -/
def Obligations.MatrixSlotsAccumulateAndDrain : Prop := ∀ (s : State) (c : Fin 27648) (k : Core), Running s c k →
  ∀ (m : MemSlot) (x : XSlot) i g kp, FormatsOk s k x i → g = groupSize x.group → kp = sget 0 k.mat.kp x.row →
  (∀ bs, Streams s c k m bs → ∀ j ∈ [Instr.panel c x m, .mld c m 1 x], ∃ ps, Slot j s c { k with mat := { k.mat with panels := ps } } ∧ sfind ps x.row = some ⟨x.pfmt, bs, x.layer⟩ ∧
    ∀ r, r ≠ x.row.val → sfind ps r = sfind k.mat.panels r) ∧
  (∀ bs, Streams s c k m bs → ∀ j ∈ [Instr.mma c x m, .mld c m 2 x], ∀ p wt pv, sfind k.mat.panels x.row = some p → p.fmt = x.pfmt.val → p.bytes ≠ [] →
    (g ≠ 0 → rowLen x.pfmt p % g = 0) → kp < rowLen x.pfmt p → wt = leNat bs → pv = leNat p.bytes →
    (isScaleIter x k.mat = true → ∃ sl, Slot j s c { k with mat := { k.mat with slice := sl, sliceDone := insertNat k.mat.sliceDone x.row } } ∧
      sget 0 sl x.row = BitVec.ofNat 256 wt ∧ ∀ r, r ≠ x.row.val → sget 0 sl r = sget 0 k.mat.slice r) ∧
    (isScaleIter x k.mat = false → ∃ mt, mt.panels = k.mat.panels ∧ mt.slice = k.mat.slice ∧
      sget 0 mt.kp x.row = (if rowLen x.pfmt p ≤ kp + kStep x.sfmt then 0 else kp + kStep x.sfmt) ∧
      (∀ r, r ≠ x.row.val → sget 0 mt.kp r = sget 0 k.mat.kp r) ∧
      (∀ key, (∀ n < 8, key ≠ accKey x.row x.cb n) → sget 0 mt.acc key = sget 0 k.mat.acc key) ∧
      (g = 0 → mt.part = k.mat.part) ∧
      -- no sum leaves the 32-bit range: integers add exactly
      (mIsInt x.sfmt = true → (∀ n < 8, ((sget 0 k.mat.acc (accKey x.row x.cb n)).toInt.natAbs < 2 ^ 30 ∧ (sget 0 k.mat.part (partKey x.row n)).toInt.natAbs < 2 ^ 30)) →
        Slot j s c { k with mat := mt } ∧ ∀ n < 8,
          let dot := (List.range (kStep x.sfmt)).foldl (fun t e => t + mInt x.pfmt pv (kp + e) * mInt x.sfmt wt (kStep x.sfmt * n + e)) (0 : Int)
          let sum := (sget 0 k.mat.part (partKey x.row n)).toInt + dot
          (g = 0 → (sget 0 mt.acc (accKey x.row x.cb n)).toInt = (sget 0 k.mat.acc (accKey x.row x.cb n)).toInt + dot) ∧
          (g ≠ 0 → (kp + kStep x.sfmt) % g ≠ 0 → (sget 0 mt.part (partKey x.row n)).toInt = sum ∧ sget 0 mt.acc (accKey x.row x.cb n) = sget 0 k.mat.acc (accKey x.row x.cb n)) ∧
          (g ≠ 0 → (kp + kStep x.sfmt) % g = 0 → sget 0 mt.part (partKey x.row n) = 0 ∧ sget 0 mt.acc (accKey x.row x.cb n) =
            bits32 (fadd (val32 (sget 0 k.mat.acc (accKey x.row x.cb n))) (fmul (ofInt sum) (fdec bf16 (field (sget 0 k.mat.slice x.row).toNat
              (16 * (8 * ((kp / g) % 2) + n) + 15) (16 * (8 * ((kp / g) % 2) + n)))))))) ∧
      -- FP8 products are summed exactly and added with one rounding; BF16 products one after the other
      (mIsInt x.sfmt = false → Slot j s c { k with mat := mt } ∧ ∀ n < 8, g = 0 → sget 0 mt.acc (accKey x.row x.cb n) =
        (let prods := (List.range (kStep x.sfmt)).map (fun e => fmul (fdec (mFmt x.pfmt) (mBits x.pfmt pv (kp + e))) (fdec (mFmt x.sfmt) (mBits x.sfmt wt (kStep x.sfmt * n + e))))
         let a := sget 0 k.mat.acc (accKey x.row x.cb n)
         if x.sfmt.val = 4 then prods.foldl (fun z p => bits32 (fadd (val32 z) p)) a else bits32 (fadd (val32 a) (prods.foldl fadd (.fin false 0 0))))))) ∧
  (∀ p y e out sats, sfind k.mat.pend x.row = none → sfind k.mat.panels x.row = some p → (∀ l, i.owner ≠ .list l) → (nodeOf i k.node).any (·.ent.checked) = false →
    layerTrip (lget 0 i.layers x.layer) = 0 → e = effScale i x.layer →
    y = (fun n => frnd fp32 (fmul (if mIsInt x.sfmt && decide (x.group.val = 0) then ofInt (sget 0 k.mat.acc (accKey x.row x.cb n)).toInt
      else val32 (sget 0 k.mat.acc (accKey x.row x.cb n))) (effScale i p.layer))) →
    out = (fun n => convOut x.ofmt (layerSat (lget 0 i.layers x.layer)) (frnd fp32 (fdiv (y n) e))) → sats = (List.range 8).countP (fun n => (out n).2) →
    ∃ r, Slot (.drain c x) s c { setV k x.vd r with sat := if sats = 0 then k.sat else sset 0 k.sat x.layer (sget 0 k.sat x.layer + sats) } ∧
      ∀ n < 8, elem (outWidth x.ofmt) r n = (out n).1 % 2 ^ outWidth x.ofmt) ∧
  (∃ mt, Slot (.zeroBlock c x) s c { k with mat := mt } ∧ mt.panels = k.mat.panels ∧ mt.slice = k.mat.slice ∧ sget 0 mt.kp x.row = 0 ∧ sfind mt.pend x.row = none ∧
    (∀ n < 8, sget 0 mt.acc (accKey x.row x.cb n) = 0 ∧ sget 0 mt.part (partKey x.row n) = 0) ∧ sget 0 mt.q (8 * x.row.val + x.cb) = 0 ∧ sget 0 mt.m (8 * x.row.val + x.cb) = 0 ∧
    (∀ key, (∀ n < 8, key ≠ accKey x.row x.cb n) → sget 0 mt.acc key = sget 0 k.mat.acc key) ∧ ∀ r, r ≠ x.row.val → sget 0 mt.kp r = sget 0 k.mat.kp r)

/-- Every VECTOR slot whose FMT, MOD and lane number Table 12-3 allows completes (R188–R195): the core's registers are those that the operation gives, and nothing else
of it, of another core, of a grove or a task changes. A VSCANX leaves its contribution while another task of its grove has not issued, delivers to all when the last
has, and one issued again waits on. -/
def Obligations.VectorRowsComplete : Prop := ∀ (s : State) (c : Fin 27648) (k : Core), Running s c k → ∀ v : VSlot,
  (∀ p ∈ ([(.vadd c v, 1), (.vsub c v, 2), (.vmul c v, 3), (.vfma c v, 4), (.vmin c v, 5), (.vmax c v, 6), (.vand c v, 7), (.vor c v, 8), (.vxor c v, 9), (.vshl c v, 10),
      (.vshr c v, 11), (.vcmp c v, 12), (.vcvt c v, 13), (.vbcast c v, 14), (.vmovs c v, 15), (.vperm c v, 16), (.vcompress c v, 17), (.vexpand c v, 18), (.vcpop c v, 19),
      (.vscan c v, 20), (.vsegscan c v, 21), (.vreduce c v, 23), (.vkop c v, 24), (.vkmov c v, 25), (.vmovk c v, 26)] : List (Instr × Nat)),
    vectorBad { vop := p.2, v } = false → Slot p.1 s c (vectorRegs { vop := p.2, v } true 0 k k)) ∧
  (vectorBad { vop := 22, v } = false → ∀ s1, s1 = modCore s c (fun z => { z with scan := some ⟨v.fmt, v.mod, scanShare k v, v.vd, v.vb, false⟩ }) →
    (k.scan = none → scanReady s1 k (c / 64) = none → Answers (.vscanx c v) s fun t =>
      CoreBecomes s t c { k with scan := some ⟨v.fmt, v.mod, scanShare k v, v.vd, v.vb, false⟩ }) ∧
    (∀ l, k.scan = none → scanReady s1 k (c / 64) = some l → scanAgrees l = true → exec (.vscanx c v) s = .next (scanDeliver s1 l)) ∧
    (k.scan.isSome = true → exec (.vscanx c v) s = .next s))

/-- Every MATRIX slot that breaks no rule of issue and names no RERUN layer completes (R197, R201, R203–R206): ZERO clears its block, DRAIN writes the packed block to vD,
PANEL and MMA take the 32 bytes that their MLD streams; the other cores, memory and every grove's store are as they were. -/
def Obligations.MatrixRowsComplete : Prop := ∀ (s : State) (c : Fin 27648) (k : Core), Running s c k →
  ∀ (m : MemSlot) (x : XSlot) (i : Inst), instOf s k.ins = some i → layerMode (lget 0 i.layers x.layer) ≠ 2 →
  (issueFault s k { mop := 4, x } = none → Slot (.zeroBlock c x) s c { k with mat := zeroIter x k.mat }) ∧
  (∀ b, b = drainBlock x i k.mat → issueFault s k { mop := 3, x } = none → Answers (.drain c x) s fun t => ∃ r sat,
    sfind t.gr.cores c = some { setV k x.vd r with mat := b.mat, sat, waiting := false, scanOut := none } ∧
    (∀ n < 8, elem (outWidth x.ofmt) r n = lget 0 b.bits n % 2 ^ outWidth x.ofmt) ∧ (b.sat = 0 → sat = k.sat) ∧
    (∀ e, e ≠ c.val → sfind t.gr.cores e = sfind s.gr.cores e) ∧ t.gr.groves = s.gr.groves ∧
    t = { s with gr := t.gr, root := t.root, trk := t.trk, ev := t.ev, free := t.free }) ∧
  (∀ bs, Streams s c k m bs → issueFault s k { mop := 1, x, mem := 5, m } = none → ∀ j ∈ [Instr.panel c x m, .mld c m 1 x],
    Slot j s c { k with mat := panelIter x true (leNat bs) k.mat }) ∧
  (∀ bs, Streams s c k m bs → issueFault s k { mop := 2, x, mem := 5, m } = none → ∀ j ∈ [Instr.mma c x m, .mld c m 2 x], Answers j s fun t => ∃ fr sat,
    sfind t.gr.cores c = some { k with mat := (mmaIter x (leNat bs) fr k.mat).mat, sat, waiting := false, scanOut := none } ∧
    ((mmaIter x (leNat bs) fr k.mat).sat = 0 → sat = k.sat) ∧
    (∀ e, e ≠ c.val → sfind t.gr.cores e = sfind s.gr.cores e) ∧ t.gr.groves = s.gr.groves ∧
    t = { s with gr := t.gr, root := t.root, trk := t.trk, ev := t.ev, free := t.free })

/-- A word that names a RERUN layer, issued by a task whose node is not CHECKED, raises UNIT_FAULT with cause 0x08 (R209): so does each MATRIX slot by itself,
and so does every word that breaks no other rule of issue. -/
def Obligations.RerunLayersNeedACheckedNode : Prop := ∀ (s : State) (c : Fin 27648) (k : Core) (i : Inst), Running s c k → instOf s k.ins = some i →
  (nodeOf i k.node).any (·.ent.checked) = false →
  (∀ (m : MemSlot) (x : XSlot), layerMode (lget 0 i.layers x.layer) = 2 → x.sfmt.val ≤ 4 → x.pfmt = x.sfmt → (x.sfmt.val = 4 → x.group = 0) → x.ofmt.val ≤ 5 →
    (∀ j ∈ [Instr.panel c x m, .mld c m 1 x, .drain c x, .zeroBlock c x], Excepts j s c k 0x08) ∧
    (∀ p, sfind k.mat.panels x.row = some p → p.bytes ≠ [] → (x.group ≠ 0 → rowLen x.pfmt p % groupSize x.group = 0) →
      ∀ j ∈ [Instr.mma c x m, .mld c m 2 x], Excepts j s c k 0x08)) ∧
  (∀ w p a k1, Fetches s c k w p a → k1 = { k with inPatch := p, upc := a } → k.iter = 0 → k.scan = none → k.scanOut = none → w.cond ≤ 38 →
    condTrue s c k1 w.cond = true → w.next ≤ 4 → w.sop ≤ 15 → memBad w = false → vectorBad w = false → matrixBad w k1 = false → twoWriters w = false →
    w.mop ≠ 0 → layerMode (lget 0 i.layers w.x.layer) = 2 → Excepts (.wordIssue c) s c k1 0x08)

/-! ## The Canopy and memory (chapter 15) -/

/-- Atomics and reductions at the home (R238, R239; Table 15-5): an aligned operation in range on unpoisoned memory writes its result and nothing else, and is
counted; a misaligned one, or one past the end of memory, does nothing. -/
def Obligations.AtomicsUpdateTheirBytes : Prop := ∀ (s : State) (p : AtomArgs) a o cp old,
  a = p.addr.toNat → o = p.operand.toNat → cp = p.compare.toNat → old = (fun n => leNat (memRead s.mem.bytes a n)) →
  (∀ q ∈ ([(.add32 p, 4, old 4 + o), (.add64 p, 8, old 8 + o), (.fadd32 p, 4, fenc fp32 (fadd (fdec fp32 (old 4)) (fdec fp32 (o % 2 ^ 32)))),
      (.min32 p, 4, wrapInt 32 (min (signedOf 32 (old 4)) (signedOf 32 o))), (.max32 p, 4, wrapInt 32 (max (signedOf 32 (old 4)) (signedOf 32 o))),
      (.umin32 p, 4, min (old 4) (o % 2 ^ 32)), (.umax32 p, 4, max (old 4) (o % 2 ^ 32)), (.min64 p, 8, wrapInt 64 (min (signedOf 64 (old 8)) (signedOf 64 o))),
      (.max64 p, 8, wrapInt 64 (max (signedOf 64 (old 8)) (signedOf 64 o))), (.and64 p, 8, old 8 &&& o), (.or64 p, 8, old 8 ||| (o % 2 ^ 64)),
      (.xor64 p, 8, old 8 ^^^ (o % 2 ^ 64)), (.swap32 p, 4, o), (.swap64 p, 8, o), (.cas32 p, 4, if old 4 = cp % 2 ^ 32 then o else old 4),
      (.cas64 p, 8, if old 8 = cp then o else old 8), (.fmin32 p, 4, fenc fp32 (fmin (fdec fp32 (old 4)) (fdec fp32 (o % 2 ^ 32)))),
      (.fmax32 p, 4, fenc fp32 (fmax (fdec fp32 (old 4)) (fdec fp32 (o % 2 ^ 32))))] : List (Instr × Nat × Nat)),
    (a % q.2.1 = 0 → a + q.2.1 ≤ usable s → Uncached s → poisonOf s (a / 64) = none → Answers q.1 s fun t => Stored s t a (leBytes q.2.1 q.2.2) ∧
      t.canopy.atomics = s.canopy.atomics + 1 ∧ t = { s with mem := { s.mem with bytes := t.mem.bytes }, canopy := t.canopy, trk := t.trk, ev := t.ev }) ∧
    (¬(a % q.2.1 = 0 ∧ a + q.2.1 ≤ usable s) → exec q.1 s = .next s)) ∧
  (∀ q ∈ ([(.raddF32 p, 32, fun x y => fenc fp32 (fadd (fdec fp32 x) (fdec fp32 y))), (.raddBf16 p, 16, fun x y => fenc bf16 (fadd (fdec bf16 x) (fdec bf16 y))),
      (.rmaxF32 p, 32, fun x y => fenc fp32 (fmax (fdec fp32 x) (fdec fp32 y))), (.rminF32 p, 32, fun x y => fenc fp32 (fmin (fdec fp32 x) (fdec fp32 y))),
      (.raddI32 p, 32, fun x y => x + y), (.rmaxBf16 p, 16, fun x y => fenc bf16 (fmax (fdec bf16 x) (fdec bf16 y)))] : List (Instr × Nat × (Nat → Nat → Nat))),
    (a % 32 = 0 → a + 32 ≤ usable s → Uncached s → poisonOf s (a / 64) = none → Answers q.1 s fun t =>
      (∀ j < 256 / q.2.1, field (leNat (memRead t.mem.bytes a 32)) (q.2.1 * j + q.2.1 - 1) (q.2.1 * j) =
        q.2.2 (field (old 32) (q.2.1 * j + q.2.1 - 1) (q.2.1 * j)) (field o (q.2.1 * j + q.2.1 - 1) (q.2.1 * j)) % 2 ^ q.2.1) ∧
      (∀ b, b < a ∨ a + 32 ≤ b → memByte t.mem.bytes b = memByte s.mem.bytes b) ∧
      t.canopy.atomics = s.canopy.atomics + 1 ∧ t = { s with mem := { s.mem with bytes := t.mem.bytes }, canopy := t.canopy, trk := t.trk, ev := t.ev }) ∧
    (¬(a % 32 = 0 ∧ a + 32 ≤ usable s) → exec q.1 s = .next s))

namespace Sys2Proof.Claims

/-- From `s` to `t` only the directory protocol of one line moves (with event counts and the order of use of lines): the copies and entries of other lines, and all of memory, are as they were. -/
def OnlyLine (s t : State) (line : Nat) : Prop :=
  (∀ g l, g < 512 → l ≠ line → copyOfLine t g l = copyOfLine s g l) ∧ (∀ l, l ≠ line → dirOf t l = dirOf s l) ∧ t = { s with canopy := t.canopy, trk := t.trk, ev := t.ev }

/-- There is room for a line in its slice set, and in the grove's cache set and eviction buffer; its cells hide no error. -/
def Roomy (s : State) (g line : Nat) : Prop :=
  ((sfind s.canopy.lines line).isSome = true ∨ s.canopy.lines.length < 16) ∧ sfind s.mem.latent line = none ∧ evRoom s g = true ∧
  (s.canopy.copies.filter (fun q => decide (q.1 % 512 = g) && decide (q.2.st ≠ .evicting))).length < 8

/-- One message more is on its way. -/
def Sent (s t : State) (m : DMsg) (g line : Nat) (data : List Byte) : Prop := t.canopy.flights = s.canopy.flights ++ [⟨m, g, line, data⟩]

/-- One message has arrived and another is on its way. -/
def Replied (s t : State) (f : Flight) (m : DMsg) (data : List Byte) : Prop := t.canopy.flights = s.canopy.flights.erase f ++ [⟨m, f.g, f.line, data⟩]

end Sys2Proof.Claims

/-- The directory protocol (R235–R237, Table 15-2): a request on a quiet line is answered or sends its snoops, a snooped grove answers by the state of its copy,
the home answers the requester when the last answer is in, evictions write back and are acknowledged, and an answer installs its copy. -/
def Obligations.DirectoryMessagesMoveOneLine : Prop := ∀ (s : State) (g : Fin 432) (line : BitVec 42) (l : Nat), l = line.toNat → Roomy s g l →
  (lineBusy s l = false →
    (copyOfLine s g l = none → ∀ p ∈ [(Instr.rdS g line, DMsg.rdS), (.rdX g line, .rdX), (.upg g line, .upg)],
      (dirOf s l = .u → Answers p.1 s fun t => Sent s t (if p.2 = .rdS then .dataE else .dataX) g l (homeLine s l) ∧ dirOf t l = .ow g ∧ OnlyLine s t l) ∧
      (∀ o, dirOf s l = .ow o → o ≠ g.val → Answers p.1 s fun t => Sent s t (if p.2 = .rdS then .snpSh else .snpInv) o l [] ∧
        sfind t.canopy.homes l = some { req := p.2, g := g, waiting := [o] } ∧ dirOf t l = .ow o ∧ OnlyLine s t l)) ∧
    (∀ m, dirOf s l = .sh m → copyOfLine s g l = none → Answers (.rdS g line) s fun t =>
      Sent s t .dataS g l (homeLine s l) ∧ dirOf t l = .sh (m ||| (1 <<< (g.val / 8))) ∧ OnlyLine s t l) ∧
    (∀ m, dirOf s l = .sh m → groupGroves m g = [] → copyOfLine s g l = none → Answers (.upg g line) s fun t =>
      Sent s t .dataX g l (homeLine s l) ∧ dirOf t l = .ow g ∧ OnlyLine s t l) ∧
    (∀ m, dirOf s l = .sh m → groupGroves m g ≠ [] → ∀ p ∈ [(Instr.rdX g line, DMsg.rdX), (.upg g line, .upg)],
      (copyOfLine s g l = none ∨ (p.2 = .upg ∧ ∃ c, copyOfLine s g l = some c ∧ c.st = .shared)) → Answers p.1 s fun t =>
      t.canopy.flights = s.canopy.flights ++ (groupGroves m g).map (fun x => ⟨.snpInv, x, l, []⟩) ∧
      sfind t.canopy.homes l = some { req := p.2, g := g, waiting := groupGroves m g } ∧ OnlyLine s t l)) ∧
  ((sfind s.canopy.homes l).isSome = true → copyOfLine s g l = none → ∀ p ∈ [(Instr.rdS g line, DMsg.rdS), (.rdX g line, .rdX), (.upg g line, .upg)],
    exec p.1 s = .next { s with canopy := { s.canopy with queue := s.canopy.queue ++ [(p.2, g.val, l)] } }) ∧
  (∀ p ∈ [(Instr.snpSh g line, DMsg.snpSh), (.snpInv g line, .snpInv)], ∀ f, flightFor s p.2 g l = some f →
    (copyOfLine s g l = none → Answers p.1 s fun t => Replied s t f .rspI [] ∧ copyOfLine t g l = none ∧ OnlyLine s t l) ∧
    (∀ c, copyOfLine s g l = some c → Answers p.1 s fun t => OnlyLine s t l ∧ dirOf t l = dirOf s l ∧
      (c.st = .modified → Replied s t f .rspD c.data ∧ copyOfLine t g l = if p.2 = .snpSh then some { c with st := .shared } else none) ∧
      (c.st = .shared ∨ c.st = .exclusive → Replied s t f (if p.2 = .snpSh then .rspS else .rspI) [] ∧
        copyOfLine t g l = if p.2 = .snpSh then some { c with st := .shared } else none) ∧
      (c.st = .evicting → Replied s t f .evictingA [] ∧ copyOfLine t g l = some c))) ∧
  -- the last answer: the requester is served
  (∀ h : HomeTxn, sfind s.canopy.homes l = some h → h.waiting = [g.val] → h.acks = [] → (∀ q ∈ s.canopy.queue, q.2.2 ≠ l) → dirOf s l = .ow g →
    (∀ f, flightFor s .rspS g l = some f → h.req = .rdS → g.val ∉ h.evHave → Answers (.rspS g line) s fun t =>
      t.canopy.flights = s.canopy.flights.erase f ++ [⟨.dataS, h.g, l, homeLine s l⟩] ∧ dirOf t l = .sh ((1 <<< (g.val / 8)) ||| (1 <<< (h.g / 8))) ∧
      sfind t.canopy.homes l = none ∧ OnlyLine s t l) ∧
    (∀ f, flightFor s .rspS g l = some f → h.req = .rdS → g.val ∈ h.evHave → Answers (.rspS g line) s fun t =>
      t.canopy.flights = s.canopy.flights.erase f ++ [⟨.evictAck, g.val, l, []⟩, ⟨.dataS, h.g, l, homeLine s l⟩] ∧ sfind t.canopy.homes l = none ∧ OnlyLine s t l) ∧
    (∀ f, flightFor s .rspI g l = some f → g.val ∉ h.evHave → Answers (.rspI g line) s fun t =>
      t.canopy.flights = s.canopy.flights.erase f ++ [⟨if h.req = .rdS then .dataE else .dataX, h.g, l, homeLine s l⟩] ∧ dirOf t l = .ow h.g ∧
      sfind t.canopy.homes l = none ∧ OnlyLine s t l) ∧
    (∀ f, flightFor s .rspD g l = some f → f.data.length = 64 → g.val ∉ h.evHave → Answers (.rspD g line) s fun t => Stored s t (64 * l) f.data ∧
      t.canopy.flights = s.canopy.flights.erase f ++ [⟨if h.req = .rdS then .dataS else .dataX, h.g, l, f.data⟩] ∧ sfind t.canopy.homes l = none ∧
      dirOf t l = (if h.req = .rdS then .sh ((1 <<< (g.val / 8)) ||| (1 <<< (h.g / 8))) else .ow h.g) ∧
      t = { s with mem := { s.mem with bytes := t.mem.bytes }, canopy := t.canopy, trk := t.trk, ev := t.ev }) ∧
    (∀ f, flightFor s .evictingA g l = some f → g.val ∉ h.evHave → Answers (.evicting g line) s fun t =>
      sfind t.canopy.homes l = some { h with evWait := g.val :: h.evWait } ∧ t.canopy.flights = s.canopy.flights.erase f ∧ OnlyLine s t l) ∧
    (∀ f, flightFor s .evictingA g l = some f → g.val ∈ h.evHave → Answers (.evicting g line) s fun t =>
      t.canopy.flights = s.canopy.flights.erase f ++ [⟨if h.req = .rdS then .dataE else .dataX, h.g, l, homeLine s l⟩, ⟨.evictAck, g.val, l, []⟩] ∧
      t.canopy.crossings = s.canopy.crossings + 1 ∧ sfind t.canopy.homes l = none ∧ OnlyLine s t l)) ∧
  -- the last sharer gives the line up for an upgrade of one that still holds its copy
  (∀ (h : HomeTxn) f m c, sfind s.canopy.homes l = some h → h.waiting = [g.val] → h.acks = [] → (∀ q ∈ s.canopy.queue, q.2.2 ≠ l) → dirOf s l = .sh m → h.req = .upg →
    bitOf m (h.g / 8) = true → copyOfLine s h.g l = some c → c.st ≠ .evicting → g.val ∉ h.evHave → flightFor s .rspI g l = some f → Answers (.rspI g line) s fun t =>
      t.canopy.flights = s.canopy.flights.erase f ++ [⟨.upgAck, h.g, l, []⟩] ∧ dirOf t l = .ow h.g ∧ sfind t.canopy.homes l = none ∧ OnlyLine s t l) ∧
  -- evictions start, arrive and are acknowledged
  (∀ c, copyOfLine s g l = some c →
    (c.st = .modified → flightFor s .evictD g l = none → Answers (.evictD g line) s fun t => Sent s t .evictD g l c.data ∧
      copyOfLine t g l = some { c with st := .evicting, dirty := true } ∧ OnlyLine s t l) ∧
    (c.st = .shared ∨ c.st = .exclusive → flightFor s .evictC g l = none → Answers (.evictC g line) s fun t => Sent s t .evictC g l [] ∧
      copyOfLine t g l = some { c with st := .evicting } ∧ OnlyLine s t l)) ∧
  (sfind s.canopy.homes l = none → dirOf s l = .ow g →
    (∀ f, flightFor s .evictD g l = some f → f.data.length = 64 → Answers (.evictD g line) s fun t => Stored s t (64 * l) f.data ∧ Replied s t f .evictAck [] ∧
      dirOf t l = .u ∧ t = { s with mem := { s.mem with bytes := t.mem.bytes }, canopy := t.canopy }) ∧
    (∀ f, flightFor s .evictC g l = some f → f.data = [] → Answers (.evictC g line) s fun t => Replied s t f .evictAck [] ∧ dirOf t l = .u ∧ OnlyLine s t l)) ∧
  (∀ p ∈ [(Instr.evictAck g line, DMsg.evictAck, none), (.dataE g line, .dataE, some CopyState.exclusive), (.dataS g line, .dataS, some .shared), (.dataX g line, .dataX, some .modified)],
    ∀ f, flightFor s p.2.1 g l = some f → Answers p.1 s fun t => copyOfLine t g l = p.2.2.map (fun x => ⟨x, f.data, false⟩) ∧
      t.canopy.flights = s.canopy.flights.erase f ∧ dirOf t l = dirOf s l ∧ OnlyLine s t l) ∧
  (∀ f c, flightFor s .upgAck g l = some f → copyOfLine s g l = some c → Answers (.upgAck g line) s fun t => copyOfLine t g l = some { c with st := .modified } ∧
    t.canopy.flights = s.canopy.flights.erase f ∧ dirOf t l = dirOf s l ∧ OnlyLine s t l)

namespace Sys2Proof.Claims

/-- A memory sequencer word leaves its port with `y`, but for Z and its place in its program; other ports keep theirs. -/
def PortBecomes (s t : State) (port : Nat) (y : MPort) : Prop :=
  mport t port = { y with z := (mport t port).z, seq := (mport t port).seq } ∧ (∀ p, p ≠ port → mport t p = mport s p) ∧
  t = { s with ports := t.ports, free := s.free + 1, trk := t.trk, ev := t.ev }

end Sys2Proof.Claims

/-- Memory sequencer commands (R243–R246, Table 15-8): each does to its bank, rank or registers what JESD209-5C's command of that name does; reads bring the
column of the open row and writes replace it, under the mask; POLL sets Z and NEXT is taken; with QSEL 1 to 3 the operands
are the queue's and open; a reserved QSEL, POLL or NEXT fences the port with cause 0x20. -/
def Obligations.SequencerCommandsActOnTheirPort : Prop := ∀ (s : State) (p : Fin 48) (m o : MSlot) (x : MPort) rk bk, x = mport s p →
  o = operandsOf m (Config.freeBits s.free / 2 ^ 520) → (m.qsel = 0 → o = m) → rk = 2 * o.ch.val + o.rank.val → bk = 16 * rk + o.bank.val →
  m.qsel.toNat ≤ 3 → m.poll.toNat ≤ 7 → NextFits 2 x.seq m.next m.target.toNat →
  (∀ q ∈ ([(.deselect p m, x), (.act p m, { x with openRow := sput x.openRow bk o.row.toNat, activations := sset 0 x.activations bk (sget 0 x.activations bk + 1) }),
      (.pre p m, { x with openRow := sdel x.openRow bk }), (.prea p m, { x with openRow := x.openRow.filter (fun q => decide (q.1 / 16 ≠ rk)) }),
      (.refpb p m, { x with refreshed := x.refreshed + 1, refreshedAt := s.time.clock }), (.refab p m, { x with refreshed := x.refreshed + 16, refreshedAt := s.time.clock }),
      (.rfm p m, { x with activations := sdel x.activations bk }), (.srx p m, { x with selfRefresh := x.selfRefresh.filter (· ≠ rk) }),
      (.sre p m, { x with selfRefresh := insertNat x.selfRefresh rk, wckSynced := x.wckSynced.filter (· ≠ rk) }),
      (.pde p m, { x with powerDown := insertNat x.powerDown rk }), (.pdx p m, { x with powerDown := x.powerDown.filter (· ≠ rk) }),
      (.casWs p m, { x with wckSynced := insertNat x.wckSynced rk }), (.zqLatch p m, { x with zqLatched := true }), (.mpc p m, { x with lastMpc := m.imm.toNat }),
      (.mrw p m, { x with modeRegs := sset 0 x.modeRegs (256 * rk + field m.imm.toNat 15 8) (m.imm.toNat % 256) }),
      (.mrr p m, { x with readData := BitVec.ofNat 512 (sget 0 x.modeRegs (256 * rk + field m.imm.toNat 15 8)) })] : List (Instr × MPort)),
    Answers q.1 s fun t => PortBecomes s t p q.2 ∧ t.trk = s.trk ∧ t.ev = s.ev ∧ (m.poll = 0 → (mport t p).z = x.z) ∧
      (m.poll = 7 → (mport t p).z = decide (s.power.lpddrSleep ≠ 0)) ∧ pacedNext 2 x.seq (mport t p).z m.next m.target.toNat = some (mport t p).seq) ∧
  (∃ d, Answers (.rdc p m) s fun t => PortBecomes s t p { x with readData := d }) ∧
  (∀ d : BitVec 512, Answers (.wff p m d) s fun t => PortBecomes s t p { x with fifo := x.fifo ++ [d] }) ∧
  (∀ d l, x.fifo = d :: l → Answers (.rff p m) s fun t => PortBecomes s t p { x with readData := d, fifo := l }) ∧
  (x.fifo = [] → ∃ d, Answers (.rff p m) s fun t => PortBecomes s t p { x with readData := d }) ∧
  (∀ r key, sfind x.openRow bk = some r → key = bk * 2 ^ 24 + 64 * r + o.col.toNat →
    (∀ d : BitVec 512, Answers (.wr32 p m d) s fun t => PortBecomes s t p { x with cells := sput x.cells key d }) ∧
    (∀ (d : BitVec 512) (mask : BitVec 64) old, sfind x.cells key = some old → Answers (.mwr32 p m d mask) s fun t =>
      ∃ v : BitVec 512, PortBecomes s t p { x with cells := sput x.cells key v } ∧
        ∀ b < 512, v.getLsbD b = if mask.getLsbD (b / 8) then old.getLsbD b else d.getLsbD b) ∧
    (∀ old, sfind x.cells key = some old → Answers (.rd32 p m .clean) s fun t => PortBecomes s t p { x with readData := old })) ∧
  (sfind x.openRow bk = none → ∀ d : BitVec 512, Answers (.wr32 p m d) s fun t => PortBecomes s t p x) ∧
  (∀ i ∈ [Instr.act p { m with qsel := 4 }, .act p { m with poll := 8 }], serving s (unitPort p) = true → (unitSum s (unitPort p)).inSurvey = false → Answers i s fun t =>
    (unitSum t (unitPort p)).state = 2 ∧ (unitSum t (unitPort p)).cause = 0x20 ∧ (∀ u, u ≠ unitPort p → unitSum t u = unitSum s u) ∧ mport t p = { x with seq := { x.seq with running := false } } ∧
    ∀ q, q ≠ p.val → mport t q = mport s q) ∧
  (serving s (unitPort p) = true → (unitSum s (unitPort p)).inSurvey = false → Answers (.act p { m with next := 9 }) s fun t =>
    (unitSum t (unitPort p)).state = 2 ∧ (unitSum t (unitPort p)).cause = 0x20 ∧ (mport t p).seq.running = false)

/-- Errors and checks of memory and slices (R244, R248–R250, R261, R313, R320): the packages' report and drift checks, scrub, corrected and uncorrectable errors
where they lie, and the bank map's flip. -/
def Sys2Proof.Claims.MemoryErrorsAreCountedAndPoisoned : Prop := ∀ (s : State),
  (∀ (p : Fin 48) (rep : BitVec 8) n, Answers (.refreshRateRead p rep n) s fun t => mport t p = { mport s p with refreshRate := rep.toNat, rfmAt := n } ∧
    (∀ q, q ≠ p.val → mport t q = mport s q) ∧ t = { s with ports := t.ports }) ∧
  (∀ (p : Fin 48) (ch : Fin 4) n, Answers (.oscillatorCheck p ch n true) s fun t => mport t p = { mport s p with drift := (mport t p).drift } ∧
    (∀ k, sget 0 (mport t p).drift k = if k = ch.val then (if 5 < n then 0 else n) else sget 0 (mport s p).drift k) ∧
    (∀ q, q ≠ p.val → mport t q = mport s q) ∧ t = { s with ports := t.ports }) ∧
  (∀ (p : Fin 48) (ch : Fin 4) n, 5 < n → serving s (unitPort p) = true → (unitSum s (unitPort p)).inSurvey = false → Answers (.oscillatorCheck p ch n false) s fun t =>
    (unitSum t (unitPort p)).state = 2 ∧ (unitSum t (unitPort p)).cause = 0x21) ∧
  (∀ (p : Fin 48) (line : BitVec 42) (x : MPort), x = mport s p → dparam s 0x4003 1 ≠ 0 → s.mem.eccOn = true → portOf (64 * line.toNat) = p → 64 * line.toNat < usable s →
    (sfind s.mem.latent line.toNat = none → exec (.patrolScrub p line .clean) s = .next s) ∧
    (∀ e, sfind s.mem.latent line.toNat = some e → exec (.patrolScrub p line .clean) s = exec (.patrolScrub p line e) s) ∧
    (Answers (.patrolScrub p line .corrected) s fun t => mport t p = { x with corrected := x.corrected + 1 } ∧ sfind t.mem.latent line.toNat = none ∧
      t = { s with ports := t.ports, trk := t.trk, ev := t.ev, mem := { s.mem with latent := t.mem.latent } }) ∧
    (Answers (.patrolScrub p line .uncorrectable) s fun t => mport t p = { x with uncorrected := x.uncorrected + 1, lastUe := 64 * line.toNat } ∧
      sfind t.mem.poison line.toNat = some 0 ∧ t.mem.poisoned = s.mem.poisoned + 1 ∧ Occurs s t (0x050 + p) ∧
      (∀ l, l ≠ line.toNat → sfind t.mem.poison l = sfind s.mem.poison l) ∧ t = { s with ports := t.ports, mem := t.mem, ev := t.ev } ∧ t.mem.bytes = s.mem.bytes)) ∧
  (∀ (d : Fin 6) (b : Fin 50) (at_ : SliceLoc), b.val ∈ activeBanks s d →
    ((s.canopy.bankHour = [] ∨ (sget (0, 0) s.canopy.bankHour (50 * d.val + b)).2 < 255) → Answers (.sliceEccError d b at_ false) s fun t =>
      sget 0 t.canopy.corrected d = sget 0 s.canopy.corrected d + 1 ∧ t = { s with canopy := t.canopy, trk := t.trk, ev := t.ev } ∧ t.canopy.lines = s.canopy.lines) ∧
    (∀ i ∈ [Instr.sliceEccError d b at_ true, .reservedUe d b at_], isReservedLoc at_ = true → Answers i s fun t =>
      sget 0 t.canopy.uncorrected d = sget 0 s.canopy.uncorrected d + 1 ∧ Occurs s t (0x080 + d) ∧ Occurs s t 0x026 ∧
      (∀ a, at_ = .hot a → sfind t.thk.hot a.toNat = none) ∧ (∀ n, at_ = .stand n → standOf t n = none ∨ standOf s n = none) ∧
      (∀ n k e, at_ = .staging n k → entryOf s n = some e → k < stageLines e.addr e.bytes.length → (∃ x ∈ t.rows.staged, x.id = e.id ∧ x.bad.isSome = true) ∧
        (e.state = .committed → ∀ f, sfind s.thk.prefetch e.addr = some f → ∃ aux, sfind t.thk.prefetch e.addr = some { f with poison := some aux }))) ∧
    (∀ a c, at_ = .line a true → sfind s.canopy.lines (a.toNat / 64) = some c → c.dirty = true → Answers (.sliceEccError d b at_ true) s fun t =>
      sget 0 t.canopy.uncorrected d = sget 0 s.canopy.uncorrected d + 1 ∧ Occurs s t (0x080 + d) ∧
      sfind t.mem.poison (a.toNat / 64) = some 1 ∧ t.mem.poisoned = s.mem.poisoned + 1 ∧ t.mem.bytes = s.mem.bytes)) ∧
  (∀ (d : Fin 6) l, l = s.canopy.flipWait.filter (fun b => decide (b / 50 = d.val)) → l ≠ [] → s.canopy.homes = [] → Answers (.dirEpochFlip d) s fun t =>
    (∀ b ∈ t.canopy.flipWait, b / 50 ≠ d.val) ∧ (∀ b ∈ activeBanks s d, b ∈ activeBanks t d) ∧
    ((activeBanks s d).length + l.length ≤ 48 → ∀ b ∈ l, b % 50 ∈ activeBanks t d) ∧ (∀ e, e ≠ d.val → activeBanks t e = activeBanks s e) ∧
    t = { s with canopy := { s.canopy with flipWait := t.canopy.flipWait, active := t.canopy.active } })

/-- BAR2 (R103, R109, R232, R233, R248): a port that is not up, or work intake that has stopped, does nothing; before memory is ready reads return 0 and writes are discarded; afterwards a read returns
the mapped bytes, 0 past their end and ones in poisoned lines, and a write stores its mapped bytes and nothing else. -/
def Sys2Proof.Claims.BarAccessesReachMemory : Prop := ∀ (s : State) (port : Fin 2) (fn : Fin 73) (off : BitVec 41) a room, bar2Map s port fn off.toNat = (a, room) →
  (lget false s.boot.hostL0 port = false ∨ s.power.intakeStopped = true → ∀ acc, exec (.bar2Access port fn off acc) s = .next s) ∧
  (lget false s.boot.hostL0 port = true → s.power.intakeStopped = false → s.boot.stage < 6 →
    (∀ len, exec (.bar2Access port fn off (.read len)) s = .next { s with pcie := { s.pcie with bar2Read := List.replicate len.toNat 0 } }) ∧
    ∀ d, exec (.bar2Access port fn off (.write d)) s = .next s) ∧
  (lget false s.boot.hostL0 port = true → s.power.intakeStopped = false → 6 ≤ s.boot.stage → Uncached s →
    (∀ len : BitVec 12, Answers (.bar2Access port fn off (.read len)) s fun t => t.pcie.bar2Read.length = len.toNat ∧
      (∀ k < len.toNat, lget 0 t.pcie.bar2Read k = if room ≤ k then 0 else if (poisonOf s ((a + k) / 64)).isSome then 0xFF else memByte s.mem.bytes (a + k)) ∧
      t = { counted s t with pcie := { s.pcie with bar2Read := t.pcie.bar2Read, aer := t.pcie.aer } } ∧
      (firstPoison s a (min len.toNat room) = none → t.pcie.aer = s.pcie.aer)) ∧
    ∀ d : List Byte, Answers (.bar2Access port fn off (.write d)) s fun t => Stored s t a (d.take room) ∧ t = written s t)

/-! ## The fabric (chapter 17) -/

namespace Sys2Proof.Claims

/-- Only one fabric port changes, and with it counters. -/
def OnlyFabPort (s t : State) (p : Nat) (y : FPort) : Prop :=
  fport t p = y ∧ (∀ q, q ≠ p → fport t q = fport s q) ∧ t = { s with fab := { s.fab with ports := t.fab.ports }, trk := t.trk }

/-- One more flit has been sent: an IDLE one with NAK, whose ACKSEQ is the highest LSEQ received in order. -/
def Nak (t : State) (p : Nat) (x : FPort) : Prop :=
  ∃ i, (fport t p).sent = i :: x.sent ∧ flKind i.toNat = 0 ∧ flNak i.toNat = true ∧ flAck i.toNat = x.rxSeq % 4096

/-- A flit of a KIND on VC 3 with a message has been put into a port's queue: it waits there, or it is in the retry buffer and on the link. -/
def GoesOut (s t : State) (p k : Nat) (m : FabMsg) : Prop :=
  (fport t p).waiting.length + (fport t p).retry.length = (fport s p).waiting.length + (fport s p).retry.length + 1 ∧
  ∃ f : LFlit, f.msg = some m ∧ flKind f.flit.toNat = k ∧ flVc f.flit.toNat = 3 ∧
    (f ∈ (fport t p).waiting ∨ ((∃ q, (q, f) ∈ (fport t p).retry) ∧ m ∈ t.fab.msgs))

/-- The state with what sending flits by ports changes: the ports, the messages on the links, counters, and draws of open values. -/
def sentBy (s t : State) : State := { s with fab := { s.fab with ports := t.fab.ports, msgs := t.fab.msgs }, trk := t.trk, free := t.free }

/-- A flit whose CRC is right, which acknowledges nothing that waits, asks for no replay and returns no credit. -/
def PlainFlit (x : FPort) (f : BitVec 1024) : Prop :=
  crcOk f = true ∧ flNak f.toNat = false ∧ flCredits f.toNat = 0 ∧ (∀ q ∈ x.retry, q.1 ≠ flAck f.toNat) ∧ x.waiting = [] ∧ x.credits.all (· ≤ 128) = true

end Sys2Proof.Claims

/-- Links (R264–R268, R271, R272): training fails or brings the port UP at the width of its good lanes, with a HELLO on the link; a bad codeword, CRC or LSEQ is
discarded with a NAK; a good OP flit joins the transit queue and is acknowledged, one with an invalid DST is discarded; replays repeat what is unacknowledged until
the link is lost; flits are forwarded when their port can send them, taken or given up. -/
def Obligations.FlitsArriveInOrderAndGoOn : Prop := ∀ (s : State) (p : Fin 12) (x : FPort), x = fport s p →
  (mayTrain s p = true → x.fails < 2 → Answers (.portTrain p .fail) s fun t => OnlyFabPort s t p { x with state := 1, fails := x.fails + 1 }) ∧
  (mayTrain s p = true → 2 ≤ x.fails → serving s (unitFabric p) = true → Answers (.portTrain p .fail) s fun t =>
    (unitSum t (unitFabric p)).state = 1 ∧ (unitSum t (unitFabric p)).cause = 0x30 ∧ (fport t p).fails = 0 ∧ (fport t p).left = true ∧ p.val ∉ t.fab.usable) ∧
  (∀ (good : BitVec 4) (delay : BitVec 16) w, mayTrain s p = true → serving s (unitFabric p) = true →
    w = (if good = 15 ∧ field (portCfg s p) 1 0 = 0 then 4 else if field (portCfg s p) 1 0 ≤ 1 ∧ (good.toNat % 4 = 3 ∨ 12 ≤ good.toNat) then 2 else 1) →
    good ≠ 0 → Answers (.portTrain p (.up good delay)) s fun t => (fport t p).state = 2 ∧ (fport t p).width = w ∧ (fport t p).lanes = good.toNat ∧
      (x.waiting = [] → (fport t p).credits = [128, 128, 128, 127] ∧ ∃ f, (fport t p).retry = [(0, f)] ∧ flKind f.flit.toNat = 2 ∧ flVc f.flit.toNat = 3 ∧
        ∃ a i pr bp bs b, f.msg = some (.hello p s.fuses.serial.toNat a i pr bp bs b)) ∧
      (fport t p).fails = 0 ∧ (fport t p).linkDelay = delay.toNat ∧
      (p.val ∈ t.fab.usable ↔ x.left = false ∨ p.val ∈ s.fab.usable) ∧ (∀ q, q ≠ p.val → fport t q = fport s q) ∧ t = { s with fab := t.fab, trk := t.trk, free := t.free }) ∧
  (x.state = 2 → ∀ (f : Flit) n, n = f.data.toNat →
    (Answers (.flitReceive p f .uncorrectable) s fun t =>
      OnlyFabPort s t p (sendIdle { x with uncorrectable := x.uncorrectable + 1, nak := true, discarded := x.discarded + 1 }) ∧ Nak t p x) ∧
    (crcOk f.data = false → Answers (.flitReceive p f .clean) s fun t => OnlyFabPort s t p (sendIdle { x with nak := true, discarded := x.discarded + 1 }) ∧ Nak t p x) ∧
    (∀ cw, cw = .clean ∨ cw = .corrected → PlainFlit x f.data →
      (flKind n = 0 → Answers (.flitReceive p f cw) s fun t => OnlyFabPort s t p { x with corrected := x.corrected + (if cw = .corrected then 1 else 0) }) ∧
      (flKind n ≠ 0 → flLseq n ≠ (x.rxSeq + 1) % 4096 → Answers (.flitReceive p f cw) s fun t =>
        OnlyFabPort s t p (sendIdle { x with corrected := x.corrected + (if cw = .corrected then 1 else 0), nak := true, discarded := x.discarded + 1 }) ∧ Nak t p x) ∧
      (flKind n = 1 → flLseq n = (x.rxSeq + 1) % 4096 → flDst n ≤ 4096 → Answers (.flitReceive p f cw) s fun t =>
        OnlyFabPort s t p (sendIdle { x with
          corrected := x.corrected + (if cw = .corrected then 1 else 0), rxSeq := flLseq n, ackDue := true, transit := x.transit ++ [⟨p, f.data, s.time.clock⟩] })) ∧
      (flKind n = 1 ∨ flKind n = 2 → flLseq n = (x.rxSeq + 1) % 4096 → 4096 < flDst n → Answers (.flitReceive p f cw) s fun t =>
        OnlyFabPort s t p (sendIdle { x with
          corrected := x.corrected + (if cw = .corrected then 1 else 0), rxSeq := flLseq n, ackDue := true, discarded := x.discarded + 1,
          owed := lset x.owed (flVc n) (lget 0 x.owed (flVc n) + 1) }))) ∧
    (∀ l g l', crcOk f.data = true → flKind n = 0 → flNak n = false → x.waiting = [] → x.retry = l ++ (flAck n, g) :: l' → (∀ q ∈ l, q.1 ≠ flAck n) →
      Answers (.flitReceive p f .clean) s fun t => OnlyFabPort s t p { x with
        acked := flAck n, attempts := 0, retry := l', credits := lset x.credits (flCvc n) (min 128 (lget 0 x.credits (flCvc n) + flCredits n)) })) ∧
  (x.state = 2 → x.retry ≠ [] → x.attempts < 8 → Answers (.replay p) s fun t => OnlyFabPort s t p { x with
    attempts := x.attempts + 1, replays := x.replays + 1, nak := false, ackDue := false, owed := (fport t p).owed, sent := (fport t p).sent } ∧
    ∃ l, (fport t p).sent = l ++ x.sent ∧ l.reverse.map (fun g => (flLseq g.toNat, flPayload g.toNat)) =
      x.retry.map (fun q => (q.1 % 4096, flPayload (flitBits q.2).toNat))) ∧
  (∀ q f o, x.state = 2 → x.retry = [(q, f)] → x.waiting = [] → s.fab.out = [o] → o.dest = flDst f.flit.toNat → o.dest ≠ 0 → o.oseq = BitVec.ofNat 64 f.op → f.op ≠ 0 →
    flVc f.flit.toNat ≠ 1 → o.lost < 4 → otherManager s = none → hasRoute { s with fab := { s.fab with usable := s.fab.usable.filter (· ≠ p.val) } } o.dest = true →
    ∀ i ∈ (if x.attempts < 8 then [Instr.linkLost p] else [.linkLost p, .replay p]), Answers i s fun t =>
      (fport t p).state = 3 ∧ (fport t p).left = true ∧ (fport t p).retry = [] ∧ (fport t p).linkLost = x.linkLost + 1 ∧ p.val ∉ t.fab.usable ∧ Occurs s t (0x08C + p) ∧
      t.fab.out = [{ o with lost := o.lost + 1, resent := true }] ∧ t.trail.e2eResends = s.trail.e2eResends + 1 ∧ t.root = s.root ∧ t.dir = s.dir) ∧
  (∀ u l n, x.transit = u :: l → u.port ≠ 14 → n = u.flit.toNat →
    (Answers (.transitTimeout p) s fun t => (fport t p).transit = l ∧ lget 0 t.fab.stats 5 = lget 0 s.fab.stats 5 + (if 5 < s.fab.stats.length then 1 else 0) ∧
      (x.state ≠ 2 → flVc n < x.owed.length → lget 0 (fport t p).owed (flVc n) = lget 0 x.owed (flVc n) + 1) ∧
      (x.state = 2 → x.owed = [0, 0, 0, 0] → (fport t p).owed = x.owed ∧ ∃ i, (fport t p).sent = i :: x.sent ∧ flKind i.toNat = 0 ∧ flCvc i.toNat = flVc n ∧ flCredits i.toNat = 1) ∧
      t = { s with fab := { s.fab with ports := t.fab.ports, stats := t.fab.stats } }) ∧
    (routePort s (flEpoch n) (flDst n) ≠ some 14 → flDst n ≠ 0 → flHops n ≤ 1 → Answers (.flitForward p) s fun t => (fport t p).transit = l ∧
      t = { s with fab := { s.fab with ports := t.fab.ports, stats := t.fab.stats } }) ∧
    (∀ q y, routePort s (flEpoch n) (flDst n) = some q → q < 12 → q ≠ p.val → flDst n ≠ 0 → 1 < flHops n → y = fport s q → lget 0 y.credits (flVc n) = 0 → l = [] →
      exec (.flitForward p) s = .next s) ∧
    (∀ q y, routePort s (flEpoch n) (flDst n) = some q → q < 12 → q ≠ p.val → flDst n ≠ 0 → 1 < flHops n → y = fport s q → y.state = 2 → y.waiting = [] →
      y.retry.length < 512 → y.busy = [] → 0 < lget 0 y.credits (flVc n) → Answers (.flitForward p) s fun t => (fport t p).transit = l ∧
      (fport t q).retry = y.retry ++ [(y.lseq, ⟨0, BitVec.ofNat 1024 (putField n 111 104 (flHops n - 1)), none, 0⟩)] ∧ (fport t q).lseq = (y.lseq + 1) % 4096 ∧
      (∀ r, r ≠ p.val → r ≠ q → fport t r = fport s r) ∧ t = { s with fab := { s.fab with ports := t.fab.ports }, trk := t.trk }) ∧
    (routePort s (flEpoch n) (flDst n) = some 14 → flFirst n = true → 1 < flCount n → flCount n ≤ 37 → Answers (.flitForward p) s fun t => (fport t p).transit = l ∧
      (∃ a, t.fab.assembly = a :: s.fab.assembly ∧ a.src = flSrc n ∧ a.nflits = flCount n ∧ a.got = 1 ∧ a.bytes = flPayload n) ∧
      t = { s with fab := { s.fab with ports := t.fab.ports, assembly := t.fab.assembly } })) ∧
  (∀ (src : BitVec 16) (oseq : BitVec 64), s.fab.assembly.any (fun a => decide (a.src = src.toNat) && decide (a.oseq = oseq)) = true → Answers (.opAssemblyTimeout src oseq) s fun t =>
    (∀ a, a ∈ t.fab.assembly ↔ a ∈ s.fab.assembly ∧ ¬(a.src = src.toNat ∧ a.oseq = oseq)) ∧
    t = { s with fab := { s.fab with assembly := t.fab.assembly, discarded := s.fab.discarded + 1 } })

/-- Discovery, the manager and fabric time (R269, R283, R329): HELLO and BEACON go out on every UP port and what neighbours report decides the election; a manager
that falls silent is dropped; the first TIME of a period is used and passed on. -/
def Obligations.NeighboursElectAManagerAndTime : Prop := ∀ (s : State), solo s = false →
  (∀ i, (i = Instr.hello none ∨ ∃ (m : HelloMsg), i = .hello (some m) ∧ (fport s m.port).state = 2) → Answers i s fun t =>
    (∀ c, (c = selfCand t ∨ ∃ q, (q, c) ∈ t.fab.heard ∧ q < 12 ∧ (fport t q).state = 2) → c.priority ≠ 0 →
      ∃ b, t.fab.manager = some b ∧ ¬(b.priority < c.priority ∨ (c.priority = b.priority ∧ c.serial < b.serial))) ∧
    (t.fab.manager.map (·.serial) ≠ s.fab.manager.map (·.serial) → Occurs s t 0x098) ∧
    t = { s with fab := t.fab, dir := t.dir, ev := t.ev, trk := t.trk, free := t.free }) ∧
  (Answers (.hello none) s fun t => ∀ p ∈ upPorts s, ∃ a i pr bp bs b, GoesOut s t p 2 (.hello p s.fuses.serial.toNat a i pr bp bs b)) ∧
  (∀ m : HelloMsg, (fport s m.port).state = 2 → Answers (.hello (some m)) s fun t => (fport t m.port).peerAddr = m.addr.toNat ∧
    ((m.bestPriority = 0 ∨ (m.priority ≠ 0 ∧ ¬candBetter ⟨m.bestPriority.toNat, m.bestSerial.toNat⟩ ⟨m.priority.toNat, m.serial.toNat⟩ = true)) →
      sfind t.fab.heard m.port = some ⟨m.priority.toNat, m.serial.toNat⟩)) ∧
  (s.fab.isManager = true → Answers (.beacon none) s fun t => t.fab.beaconNo = s.fab.beaconNo + 1 ∧
    (∀ p ∈ upPorts s, GoesOut s t p 2 (.beacon p s.fuses.serial.toNat (fabAddr s) (s.fab.beaconNo + 1) (dparam s 0x5001 4))) ∧
    t = { sentBy s t with fab := { (sentBy s t).fab with beaconNo := t.fab.beaconNo, beacons := t.fab.beacons } }) ∧
  (∀ m : BeaconMsg, (fport s m.port).state = 2 →
    (m.number.toNat ≤ sget 0 s.fab.beacons m.serial.toNat → exec (.beacon (some m)) s = .next s) ∧
    (sget 0 s.fab.beacons m.serial.toNat < m.number.toNat → m.hops ≠ 0 → Answers (.beacon (some m)) s fun t =>
      sget 0 t.fab.beacons m.serial.toNat = m.number.toNat ∧
      (∀ p ∈ upPorts s, p ≠ m.port.val → GoesOut s t p 2 (.beacon p m.serial.toNat m.addr.toNat m.number.toNat (m.hops.toNat - 1))) ∧ fport t m.port = fport s m.port ∧
      t = { sentBy s t with fab := { (sentBy s t).fab with beacons := t.fab.beacons, beaconNo := t.fab.beaconNo, managerAddr := t.fab.managerAddr } })) ∧
  (∀ c, s.fab.isManager = false → s.fab.manager = some c → c.serial ≠ s.fuses.serial.toNat → Answers .managerTimeout s fun t =>
    (∀ q ∈ t.fab.heard, q.2 ≠ c) ∧ t.fab.manager ≠ some c ∧ Occurs s t 0x098 ∧ t = { s with fab := t.fab, dir := t.dir, ev := t.ev }) ∧
  (s.fab.isManager = true → Answers .timeSend s fun t => (∀ p ∈ upPorts s, GoesOut s t p 1 (.time p s.time.dev)) ∧ t = sentBy s t) ∧
  (∀ (p : Fin 12) (v : BitVec 64) res hops w, w = v.toNat + (fport s p).linkDelay + res → s.fab.isManager = false → (fport s p).state = 2 →
    (s.fab.lastTime = 0 ∨ s.fab.lastTime + 500000 ≤ w ∨ w + 500000 ≤ s.fab.lastTime) → Answers (.timeOp p v res hops) s fun t => t.fab.lastTime = w ∧
      (∀ q ∈ upPorts s, q ≠ p.val → GoesOut s t q 1 (.time q w)) ∧ fport t p = fport s p ∧
      (s.time.src ≠ 2 → t = { sentBy s t with fab := { (sentBy s t).fab with lastTime := w } }) ∧
      (s.time.src = 2 → t.time.dev = max s.time.dev w ∧ t.time.lastRef = s.time.clock ∧ t.fab.peers = s.fab.peers))

namespace Sys2Proof.Claims

/-- An operation that has arrived for this device as a new one: the fabric is there, its source is a device, no sleep waits for work, both incarnations match,
and its number is new in the window of its source (R277, R278). -/
def Fresh (s : State) (m : OpMsg) : Prop :=
  fabricOn s = true ∧ 1 ≤ m.src.toNat ∧ m.src.toNat ≤ 4096 ∧ m.disc = none ∧ workArrives s = s ∧ m.dinc = s.seed.incarnation ∧
  (∀ w, sfind s.fab.windows m.src.toNat = some w → (w.inc = m.sinc ∧ w.high < m.oseq.toNat + 1024 ∧ sfind w.seen m.oseq.toNat = none) ∨
    (w.inc ≠ m.sinc ∧ (m.sinc - w.inc).toNat ≤ 32767))

/-- The operation is executed and answered: `P` holds of the state its execution leaves, its source's window has its answer, and the answer is sent. -/
def Executes (i : Instr) (s : State) (m : OpMsg) (status : Nat) (value stored : List Byte) (P : State → Prop) : Prop :=
  Answers i s fun t => ∃ u, t = sendAnswer u m.src.toNat m.oseq status value ∧ P u ∧ u.seed = s.seed ∧
    ∃ w, sfind u.fab.windows m.src.toNat = some w ∧ w.inc = m.sinc ∧ sfind w.seen m.oseq.toNat = some (.answered status (leNat stored))

/-- The state with the fabric's windows and statistics of another. -/
def seenFrom (s u : State) : State := { s with fab := { s.fab with windows := u.fab.windows, stats := u.fab.stats } }

/-- A token of a source under a ticket changed; every other token as it was. -/
def onTicket (src k : Nat) (st : TokSt) (t : Token) : Token := if t.src = some src ∧ t.st = .prov k then { t with st := st } else t

/-- Every queue's tokens have been changed by a map. -/
def QueuesMapped (s u : State) (g : Token → Token) : Prop :=
  ∀ i x q z, instOf s i = some x → queueOf x q = some z → ∃ x', instOf u i = some x' ∧ queueOf x' q = some { z with tokens := z.tokens.map g, flight := z.flight.map g }

end Sys2Proof.Claims

/-- Operations of Table 17-4 at their destination (R140, R240, R270, R274–R279): each is executed once, entered in the window of its source and answered; a repeated
one is answered again and not executed; one for a former incarnation is answered UNREACHABLE. -/
def Sys2Proof.Claims.FabricOperationsExecuteOnce : Prop := ∀ (s : State) (m : OpMsg), Fresh s m →
  (∀ r x, r = field m.arg.toNat 11 0 → ringOf s r = some x → x.state = 1 ∨ x.state = 3 → x.remoteOk = true →
    (x.isLocal = true → (x.sqTail - x.sqHead).toNat < depth x → Uncached s → Executes (.submit m) s m stOk (leBytes 8 x.appendSeq.toNat) (leBytes 8 x.appendSeq.toNat) fun u =>
      Stored s u (x.sqBase + 64 * (x.sqTail.toNat % depth x)) (leBytes 8 x.appendSeq.toNat ++ bytesAt m.data 8 56) ∧
      ringOf u r = some { x with appendSeq := x.appendSeq + 1, sqTail := x.sqTail + 1 } ∧ (∀ q, q ≠ r → ringOf u q = ringOf s q) ∧
      u = { written (seenFrom s u) u with trail := { s.trail with rings := u.trail.rings, doorbells := u.trail.doorbells } }) ∧
    (x.isLocal = true → depth x ≤ (x.sqTail - x.sqHead).toNat → Executes (.submit m) s m stRingFull [] [] fun u => u = seenFrom s u) ∧
    (∀ v, v = BitVec.ofNat 32 (leAt m.data 0 4) → (v - x.sqHead).toNat ≤ depth x → (v - x.sqTail).toNat ≤ depth x → Executes (.doorbell m) s m stOk [] [] fun u =>
      ringOf u r = some { x with sqTail := v } ∧ u = { seenFrom s u with trail := { s.trail with rings := u.trail.rings, doorbells := u.trail.doorbells } })) ∧
  (ringOf s (field m.arg.toNat 11 0) = none → ∀ i ∈ [Instr.submit m, .doorbell m], Executes i s m stRemoteDenied [] [] fun u => u = seenFrom s u) ∧
  (bitOf m.arg.toNat 16 = false → (s.root.staging.filter (fun u => decide (u.die = (m.src.toNat - 1) % 6))).length < 4096 →
    Executes (.tokenOp m) s m stOk [] [] fun u => (∃ z, u.root.staging = s.root.staging ++ [z] ∧ z.src = m.src.toNat ∧ z.part = m.part.toNat ∧ z.key = leAt m.data 0 4 ∧
      z.node = field m.arg.toNat 15 0 ∧ z.data = BitVec.ofNat 128 (leAt m.data 4 16) ∧ z.st = (if m.prov then .prov m.ticket.toNat else .confirmed)) ∧
    (m.prov = false → u.fb = s.fb) ∧ (m.prov = true → ∃ z, u.fb.provRx = s.fb.provRx ++ [z] ∧ z.src = m.src.toNat ∧ z.ticket = m.ticket.toNat ∧ z.state = 0) ∧
    u = { seenFrom s u with root := { s.root with staging := u.root.staging }, fb := { s.fb with provRx := u.fb.provRx } }) ∧
  (∀ a, 12 ≤ m.data.length → m.data.length ≤ 4108 → remoteReloc s m false true (m.data.length - 12) = .ok a → Uncached s → Executes (.fabWrite m) s m stOk [] [] fun u =>
    Stored s u a (m.data.drop 12) ∧ u = written (seenFrom s u) u) ∧
  (∀ a n, n = leAt m.data 12 4 → n ≤ 4096 → remoteReloc s m true false n = .ok a → Uncached s → firstPoison s a n = none →
    Executes (.fabRead m) s m stOk (memRead s.mem.bytes a n) [] fun u => u = counted (seenFrom s u) u) ∧
  (∀ a n code old v w, code = leAt m.data 12 1 % 128 → atomSize code = some n → fetchOk code (bitOf (leAt m.data 12 1) 7) = true →
    remoteReloc s m (bitOf (leAt m.data 12 1) 7) true n = .ok a → a % n = 0 → Uncached s → poisonOf s (a / 64) = none → old = leNat (memRead s.mem.bytes a n) →
    (v, w) = atomOperands code (8 * n) (leAt m.data 13 32) → ∀ val, val = leBytes 8 (if bitOf (leAt m.data 12 1) 7 then old else 0) →
    Executes (.atomic m) s m stOk val val fun u => Stored s u a (leBytes n (atomNew code old v w)) ∧
      u = written (seenFrom s u) u) ∧
  (∀ e, (∀ r a b, remoteReloc s m r a b = .error e) → 12 ≤ m.data.length → m.data.length ≤ 4108 → leAt m.data 12 4 ≤ 4096 →
    ∀ i ∈ [Instr.fabWrite m, .fabRead m], Executes i s m e [] [] fun u => u = seenFrom s u) ∧
  (leAt m.data 0 1 = 1 → leAt m.data 6 2 = 0 → (∀ x ∈ s.dir.txns, x.num ≠ 0) → ∃ v, leAt v 0 1 = 0x81 ∧ Executes (.mgmt m) s m stOk v (v.take 8) fun u =>
    u.mem = s.mem ∧ u.dir.params = s.dir.params ∧ u.dir.txns = s.dir.txns) ∧
  (Executes (.routeNotice m) s m stOk [] [] fun u => u = { seenFrom s u with fab := { (seenFrom s u).fab with
    notices := (m.src.toNat, leAt m.data 0 1, leAt m.data 1 1) :: s.fab.notices } }) ∧
  (∀ dinc, Executes (.probe { m with dinc }) s m stOk (leBytes 2 s.seed.incarnation.toNat) [] fun u => u = seenFrom s u) ∧
  (∀ i ∈ [Instr.submit { m with dinc := m.dinc + 1 }, .doorbell { m with dinc := m.dinc + 1 }, .tokenOp { m with dinc := m.dinc + 1 },
      .fabWrite { m with dinc := m.dinc + 1 }, .atomic { m with dinc := m.dinc + 1 }], Answers i s fun t => ∃ w, w.inc = m.sinc ∧
      (∀ v, sfind s.fab.windows m.src.toNat = some v → v.inc = m.sinc → w = v) ∧ (∀ v, sfind s.fab.windows m.src.toNat = some v → v.inc ≠ m.sinc → w.seen = []) ∧
      t = sendAnswer { s with fab := { s.fab with windows := sput s.fab.windows m.src.toNat w } } m.src.toNat m.oseq stUnreachable []) ∧
  (∀ w st v n, s.fab.windows = [(m.src.toNat, w)] → w.inc = m.sinc → w.high < n.toNat + 1024 → sfind w.seen n.toNat = some (.answered st v) →
    ∀ q ∈ [(Instr.submit { m with oseq := n }, 1), (.doorbell { m with oseq := n }, 2), (.tokenOp { m with oseq := n }, 3), (.fabWrite { m with oseq := n }, 4),
      (.atomic { m with oseq := n }, 6), (.confirm { m with oseq := n }, 8), (.retract { m with oseq := n }, 9)],
    Answers q.1 s fun t => ∃ u bs, t = sendAnswer u m.src.toNat n st bs ∧ u = { s with fab := { s.fab with stats := u.fab.stats } })

/-- Source-routed operations (R270): one with ports still to follow goes on with its arrival port recorded; at its end one that does not name the current
manager's serial is DENIED, and one that does is executed for the manager; answers return along the recorded path. -/
def Sys2Proof.Claims.SourceRoutedOperationsFollowTheirPath : Prop := ∀ (s : State) (m : OpMsg) (d : Disc), fabricOn s = true →
  (∀ q l, d.route = q :: l → (fport s q).state = 2 → d.path.length + 1 < dparam s 0x5001 4 → Answers (.mgmt { m with disc := some d }) s fun t =>
    GoesOut s t q 2 (.disc q (l.map (·.val)) ((d.path ++ [d.port]).map (·.val)) d.serial.toNat m.oseq.toNat m.data) ∧ t = sentBy s t) ∧
  (d.route = [] → workArrives s = s → s.fab.manager.map (·.serial) ≠ some d.serial.toNat → Answers (.mgmt { m with disc := some d }) s fun t =>
    ∃ v, leAt v 10 1 = dsDenied ∧ 128 ≤ leAt v 0 1 ∧ GoesOut s t d.port 2 (.discRsp d.port (d.path.reverse.map (·.val)) m.oseq.toNat stOk v) ∧ t = sentBy s t) ∧
  (∀ u r, d.route = [] → workArrives s = s → s.fab.manager.map (·.serial) = some d.serial.toNat → mgmtRun s (BitVec.ofNat 16 (managerNow s)) m.data = (u, some r) →
    Answers (.mgmt { m with disc := some d }) s fun t =>
      GoesOut u t d.port 2 (.discRsp d.port (d.path.reverse.map (·.val)) m.oseq.toNat stOk (rspBytes r)) ∧ t = sentBy u t) ∧
  (∀ (a : AnsMsg) q l, a.path = q :: l → (fport s q).state = 2 → Answers (.answer a) s fun t =>
    GoesOut s t q 2 (.discRsp q (l.map (·.val)) a.oseq.toNat a.status.toNat a.value) ∧ t = sentBy s t)

/-- Resolution of provisional tokens (R160, R281, R282, R303): CONFIRM commits the tokens of a source and ticket, RETRACT and an expired window mark them
retracted, a CONFIRM after the window is answered TIMEOUT, and RESEND_REQ marks the destination that asks. -/
def Obligations.TicketsConfirmAndRetractTokens : Prop := ∀ (s : State) (m : OpMsg) (k : BitVec 24) src, Fresh s m → m.data = leBytes 4 k.toNat → src = m.src.toNat →
  ((∀ r ∈ s.fb.provRx, r.src = src → r.ticket = k.toNat → r.state = 0) → Executes (.confirm m) s m stOk [] [] fun u =>
    QueuesMapped s u (onTicket src k.toNat .confirmed) ∧
    u.root.staging = s.root.staging.map (fun t => if t.src = src ∧ t.st = .prov k.toNat then { t with st := .confirmed } else t) ∧
    (∀ r, r ∈ u.fb.provRx ↔ r ∈ s.fb.provRx ∧ ¬(r.src = src ∧ r.ticket = k.toNat)) ∧
    u = { seenFrom s u with root := { s.root with insts := u.root.insts, staging := u.root.staging }, fb := { s.fb with provRx := u.fb.provRx } }) ∧
  (∀ r ∈ s.fb.provRx, r.src = src → r.ticket = k.toNat → r.state = 1 → Executes (.confirm m) s m stTimeout [] [] fun u => r ∈ u.fb.provRx) ∧
  (Executes (.retract m) s m stOk [] [] fun u => QueuesMapped s u (onTicket src k.toNat (.retracted k.toNat)) ∧
    (∀ r ∈ u.fb.provRx, r.src = src → r.ticket = k.toNat → r.state = 1) ∧
    (∀ i x n y, instOf s i = some x → nodeOf x n = some y → (∀ f ∈ y.firings, ∀ t ∈ f.taken, t.src = none ∧ t.st = .confirmed) →
      ∃ x', instOf u i = some x' ∧ nodeOf x' n = some y) ∧
    u = { seenFrom s u with root := { s.root with insts := u.root.insts, staging := u.root.staging }, fb := { s.fb with provRx := u.fb.provRx } }) ∧
  (∀ e, s.fb.store = [e] → e.ticket = k.toNat → e.resolved = 0 → e.dests.any (fun x => decide (x.dest = src) && decide (x.state ≠ 1)) = true →
    Executes (.resendReq m) s m stOk [] [] fun u =>
      u.fb.store = [{ e with dests := e.dests.map (fun x => if x.dest = src then { x with state := 2 } else x) }] ∧
      u = { seenFrom s u with fb := { s.fb with store := u.fb.store } }) ∧
  ((∃ r ∈ s.fb.provRx, r.src = src ∧ r.ticket = k.toNat ∧ r.state = 0) →
    Answers (.provWindowExpiry m.src k) s fun t => QueuesMapped s t (onTicket src k.toNat (.retracted k.toNat)) ∧
      (∀ r ∈ t.fb.provRx, r.src = src → r.ticket = k.toNat → r.state = 1) ∧
      (hasRoute s src = true → (peerOf s src).inc.isSome = true → ∃ o ∈ t.fab.out, o.dest = src ∧ o.opc = 0x0A ∧ o.data = leBytes 4 k.toNat ∧ o.oseq = (peerOf s src).next) ∧
      t.mem = s.mem ∧ t.dir = s.dir ∧ t.trail = s.trail)

/-- Answers and timers of this device's operations (R142, R275, R277, R279): an answer ends the operation and its command, a PROBE's brings the incarnation, UNREACHABLE
ends what is outstanding to the destination and sends a PROBE, RING_FULL parks a TOKEN until its retry, the first timeout resends and the second ends with TIMEOUT. -/
def Obligations.AnswersAndTimersEndOperations : Prop := ∀ (s : State) (o : OutOp) (a : AnsMsg), fabricOn s = true → s.fab.out = [o] → o.sent = true → o.oseq ≠ 0 →
  1 ≤ o.dest → o.dest ≤ 4096 → a.src.toNat = o.dest → a.oseq = o.oseq → a.transit = false → a.path = [] →
  (∀ r q c, o.owner = .cmd r q → cmdOf s r q = some c → c.result = none →
    (o.opc = 0x01 → a.status.toNat ≠ stUnreachable → Answers (.answer a) s fun t => t.fab.out = [] ∧
      (∃ d, cmdOf t r q = some d ∧ d.result.map (·.status) = some a.status.toNat ∧ (a.status.toNat = stOk → d.result.map (·.aux) = some (leAt a.value 0 4))) ∧
      t = { cmdsFrom s t with fab := { s.fab with out := [] } }) ∧
    (a.status.toNat = stUnreachable → o.opc ≠ 0x0D → Answers (.answer a) s fun t => (peerOf t o.dest).inc = none ∧
      (∀ z ∈ t.fab.out, z.dest = o.dest ∧ z.opc = 0x0D) ∧ (hasRoute s o.dest = true → t.fab.out ≠ []) ∧
      (∃ d, cmdOf t r q = some d ∧ d.result.map (·.status) = some stUnreachable)) ∧
    (o.parked = false → o.opc ≠ 0x0D → 1 ≤ o.expired → Answers (.opTimeoutExpiry (BitVec.ofNat 16 o.dest) o.oseq) s fun t => t.fab.out = [] ∧
      (∃ d, cmdOf t r q = some d ∧ d.result.map (·.status) = some stTimeout) ∧ t = { cmdsFrom s t with fab := { s.fab with out := [] } })) ∧
  (o.opc = 0x0D → o.owner = .other → Answers (.answer a) s fun t => t.fab.out = [] ∧ (peerOf t o.dest).inc = some (BitVec.ofNat 16 (leAt a.value 0 2)) ∧
    t = { s with fab := { s.fab with out := [], peers := t.fab.peers } }) ∧
  (o.opc = 0x03 → a.status.toNat = stRingFull → exec (.answer a) s = .next { s with fab := { s.fab with out := [{ o with parked := true }] } }) ∧
  (o.parked = true → hasRoute s o.dest = true → Answers (.tokenRetry (BitVec.ofNat 16 o.dest) o.oseq) s fun t => t.fab.out = [{ o with parked := false }] ∧
    t.trail = s.trail ∧ t = { sentBy s t with fab := { (sentBy s t).fab with out := t.fab.out } }) ∧
  (o.parked = false → o.expired = 0 → hasRoute s o.dest = true → Answers (.opTimeoutExpiry (BitVec.ofNat 16 o.dest) o.oseq) s fun t =>
    t.fab.out = [{ o with expired := 1, resent := true }] ∧
    t = { sentBy s t with fab := { (sentBy s t).fab with out := t.fab.out }, trail := { s.trail with e2eResends := s.trail.e2eResends + 1 } })

/-! ## Firebreak, the Lookout, counters and Tracks (chapters 19, 20 and 21) -/

/-- Units leave and return (R297, R307–R311, R316): a hard fault puts a SERVING unit into CLEARING (a memory port into FENCED), ends a return as a retirement, and
is only recorded otherwise; CLEARING ends FENCED, and goes on while a grove's tasks may still finish; a unit that passes its survey serves again, one that fails is retired; a survey round takes its units, not before its PERIOD has passed. -/
def Obligations.UnitsAreFencedAndReturn : Prop := ∀ (s : State) (u : BitVec 16) (k : Nat) (x : UnitSum), k = u.toNat → x = unitSum s k → isUnit s k = true → s.fb.round = none →
  (∀ cause : BitVec 8, hardCause (unitKind k) cause.toNat = true →
    (x.state = 0 → x.inSurvey = false → Answers (.hardFault u cause) s fun t => (unitSum t k).state = (if unitKind k = 3 then 2 else 1) ∧ (unitSum t k).cause = cause.toNat ∧
      (unitKind k ≠ 3 → k ∈ t.fb.hardClearing) ∧ (unitKind k = 4 → unitIndex k ∉ t.fab.usable) ∧ (∀ v, v ≠ k → unitSum t v = unitSum s v) ∧
      t = { s with seed := t.seed, fb := t.fb, fab := t.fab, ev := t.ev }) ∧
    (x.state = 3 → Answers (.hardFault u cause) s fun t => (unitSum t k).state = 2 ∧ (unitSum t k).retired = true ∧ (unitSum t k).cause = cause.toNat ∧
      Occurs s t 0x022 ∧ Occurs s t 0x024 ∧ ∀ v, v ≠ k → unitSum t v = unitSum s v) ∧
    (x.state = 1 ∨ x.state = 2 → Answers (.hardFault u cause) s fun t => t.seed = withRecord s 2 k x.state x.state cause.toNat ∧
      t = { s with seed := t.seed, ev := t.ev })) ∧
  (x.state ≠ 1 → exec (.clearDone u) s = .next s) ∧
  (x.state = 1 → x.inSurvey = false → x.returned = false → x.cause ≠ 0x05 → dparam s 0x6003 4 ≠ 1 →
    (unitKind k = 2 ∨ (unitKind k = 4 ∧ (fport s (unitIndex k)).state ≠ 2) → Answers (.clearDone u) s fun t => (unitSum t k).state = 2 ∧
      (unitSum t k).fences = x.fences + 1 ∧ (unitSum t k).cause = x.cause ∧ Occurs s t 0x022 ∧ k ∉ t.fb.hardClearing ∧
      (unitKind k = 2 → unitIndex k ∈ t.canopy.removed ∧ unitIndex k % 50 ∉ activeBanks t (unitIndex k / 50)) ∧ (∀ v, v ≠ k → unitSum t v = unitSum s v) ∧
      t = { accessed s t with seed := t.seed, fb := t.fb, fab := t.fab }) ∧
    (clearGoesOn s k = true → exec (.clearDone u) s = .next s) ∧
    (unitKind k = 1 → s.root.insts = [] → s.root.queues = [] → s.gr.cores = [] → s.canopy.copies = [] → Answers (.clearDone u) s fun t => (unitSum t k).state = 2 ∧
      unitIndex k ∈ t.groves.gated ∧ (groveOf t (unitIndex k)).store = [] ∧ (groveOf t (unitIndex k)).fill.isSome = true ∧ Occurs s t 0x022 ∧
      (∀ g, g ≠ unitIndex k → groveOf t g = groveOf s g) ∧ ∀ v, v ≠ k → unitSum t v = unitSum s v)) ∧
  (∀ e : BitVec 16, x.state = 3 → unitKind k ≠ 3 →
    (unitKind k = 1 → sfind s.groves.joining (unitIndex k) ≠ some .waiting) →
    (Answers (.regrowDone u false e) s fun t => (unitSum t k).state = 2 ∧ (unitSum t k).retired = true ∧ (unitSum t k).cause = 0x05 ∧ Occurs s t 0x022 ∧ Occurs s t 0x024 ∧
      ∀ v, v ≠ k → unitSum t v = unitSum s v) ∧
    (unitKind k = 2 → Answers (.regrowDone u true e) s fun t => (unitSum t k).state = 0 ∧ (unitSum t k).returned = true ∧ unitIndex k ∉ t.canopy.removed ∧ Occurs s t 0x023) ∧
    (unitKind k = 4 → (fport s (unitIndex k)).width ≠ 0 → Answers (.regrowDone u true e) s fun t => (unitSum t k).state = 0 ∧ (fport t (unitIndex k)).state = 2 ∧ Occurs s t 0x023) ∧
    (∀ g, g = unitIndex k → unitKind k = 1 → Answers (.regrowDone u true e) s fun t => (groveOf t g).store = [] ∧ (groveOf t g).fill = none ∧
      ((groveTarget s g).isSome = true → (unitSum t k).state = 3 ∧ sfind t.groves.joining g = some .waiting) ∧
      ((groveTarget s g).isSome = false → (unitSum t k).state = 0 ∧ Occurs s t 0x023))) ∧
  (roundDue s = false → exec .surveyRound s = .next s) ∧
  (isReady s = true → roundDue s = true →
    (bitOf (dparam s 0x6006 1) 24 = false → bitOf (dparam s 0x6006 1) 25 = false → Answers .surveyRound s fun t => t.fb.round = none ∧ t.fb.rounds = s.fb.rounds + 1 ∧
      Occurs s t 0x025 ∧ t.fb.roundAt = s.time.dev ∧ t = { s with fb := t.fb, ev := t.ev }) ∧
    (∀ g < 432, bitOf (dparam s 0x6006 1) 24 = true → bitOf (dparam s 0x6006 1) 25 = false → 1 ≤ field (dparam s 0x6006 1) 23 16 → partOfGrove s g = none →
      (∀ h < 432, serving s (unitGrove h) = decide (h = g)) → Answers .surveyRound s fun t => (unitSum t (unitGrove g)).state = 1 ∧ (unitSum t (unitGrove g)).inSurvey = true ∧
      t.fb.round = some ⟨[], [unitGrove g]⟩ ∧ t.root = s.root ∧ t.gr = s.gr ∧ ∀ v, v ≠ unitGrove g → unitSum t v = unitSum s v))

/-- Device time and the Lookout (R322–R332): a second ends with one record for each class it measures, a minute with its batches due; a batch is sealed with the
next BSEQ of its class into the ledger; a PPS edge sets or steers the time; a lost reference leaves it free. -/
def Sys2Proof.Claims.SecondsAndMinutesAreRecorded : Prop := ∀ s : State,
  (Answers .secondBoundary s fun t => t.time.dev = (second s + 1) * 1000000000 ∧ t.time.clock + s.time.dev = s.time.clock + t.time.dev ∧
    (∀ c < 256, lkEnabled s c = true → ∃ r ∈ (if (second s + 1) % 60 = 0 then t.look.due else t.look.minute), r.cls = (nowRec s c).cls ∧ r.second = (nowRec s c).second ∧
      r.tokens = (nowRec s c).tokens ∧ r.arrivals = (nowRec s c).arrivals ∧ r.bins = (nowRec s c).bins ∧ r.exceed = (nowRec s c).exceed ∧
      (lkMisses r ≠ 0 → Occurs s t 0x0A1)) ∧
    ((second s + 1) % 60 = 0 → ∀ c < 256, lkEnabled s c = true → (c, second s / 60) ∈ t.look.toSeal) ∧
    t = { s with time := t.time, look := t.look, ev := t.ev }) ∧
  (∀ (c : Fin 256) m, s.look.toSeal.find? (fun p => p.1 = c.val) = some (c.val, m) → Answers (.batchSeal c) s fun t =>
    sget 0 t.seed.bseq c = sget 0 s.seed.bseq c + 1 ∧ (∀ d, d ≠ c.val → sget 0 t.seed.bseq d = sget 0 s.seed.bseq d) ∧ t.look.sealed = s.look.sealed + 1 ∧
    (∃ b, t.look.store.getLast? = some b ∧ b.cls = c ∧ b.pos = s.look.writePtr ∧ leAt b.bytes 0 4 = 0x5247444C ∧ leAt b.bytes 6 1 = c ∧
      leAt b.bytes 12 8 = (sget 0 s.seed.bseq c + 1) % 2 ^ 64 ∧ t.look.writePtr = s.look.writePtr + b.bytes.length) ∧
    t.look.toSeal = s.look.toSeal.erase (c.val, m) ∧ Occurs s t 0x0A0 ∧ t = { s with seed := { s.seed with bseq := t.seed.bseq }, look := t.look, ev := t.ev, free := t.free }) ∧
  (∀ c : Fin 256, s.look.toSeal.find? (fun p => p.1 = c.val) = none → exec (.batchSeal c) s = .next s) ∧
  (s.time.src = 1 → lget 3 s.und.mioFunc 35 = 0 →
    (∀ v, s.time.setPending = some v → second s < v → Answers .ppsEdge s fun t => t.time.dev = v * 1000000000 ∧ t.time.setPending = none ∧ t.time.lastRef = s.time.clock ∧
      t = { s with time := t.time, look := t.look, ev := t.ev }) ∧
    (∀ r, r = ((s.time.dev + 500000000) / 1000000000) * 1000000000 → s.time.setPending = none → Answers .ppsEdge s fun t => t.time.dev = max s.time.dev r ∧
      t.time.lastRef = s.time.clock ∧ (r ≤ s.time.dev → t.time.locked = decide (s.time.dev ≤ r + 1000)) ∧ t = { s with time := t.time, look := t.look, ev := t.ev })) ∧
  (s.time.src ≠ 0 → s.time.lost = false → (s.time.src = 1 → s.time.lastRef + 1500000000 ≤ s.time.clock) →
    (s.time.src ≠ 1 → solo s = true ∨ s.time.lastRef + 3000000 ≤ s.time.clock) → Answers .timeSourceLost s fun t => Occurs s t 0x0A2 ∧
    t = { s with time := { s.time with lost := true, locked := false }, look := { s.look with lockedAll := false }, ev := t.ev }) ∧
  (s.time.src = 0 ∨ s.time.lost = true → exec .timeSourceLost s = .next s)

/-- Counters and Tracks (R336, R339, R341, R342): a wrap leaves the counter at 0 with OVF set, adds 2⁴⁸ to CARRY and raises its events; an interval arms a grove or
misses; a tagged sample reaches its die's buffer. -/
def Sys2Proof.Claims.CountersWrapAndSamplesAreKept : Prop := ∀ s : State,
  (∀ (p : Fin 72) (g : Fin 432) (n : Fin 8), ctrEnabled s (.grove p g n) = true → (groveCtr s g).pc.length = 8 → Answers (.counterWrap (.grove p g n)) s fun t =>
    lget 1 (groveCtr t g).pc n = 0 ∧ bitOf (groveCtr t g).ovf n = true ∧ (∀ m < 8, m ≠ n.val → lget 0 (groveCtr t g).pc m = lget 0 (groveCtr s g).pc m) ∧
    sget 0 t.trk.carry (12 * p.val + n) = (sget 0 s.trk.carry (12 * p.val + n) + 2 ^ 48) % 2 ^ 64 ∧ (∀ h, h ≠ g.val → groveCtr t h = groveCtr s h) ∧
    (bitOf (ctrEntry (gctrCfg s p) n) 9 = true → Occurs s t 0x0A8 ∧ Occurs s t (0x155 + 2 * p)) ∧ (bitOf (ctrEntry (gctrCfg s p) n) 9 = false → t.ev = s.ev) ∧
    t = { s with trk := { s.trk with grove := t.trk.grove, carry := t.trk.carry }, ev := t.ev }) ∧
  (∀ (d : Fin 6) (n : Fin 16), ctrEnabled s (.die d n) = true → (dieCtr s d).pc.length = 8 → Answers (.counterWrap (.die d n)) s fun t =>
    lget 1 (dieCtr t d).pc n = 0 ∧ bitOf (dieCtr t d).ovf n = true ∧ (∀ e, e ≠ d.val → dieCtr t e = dieCtr s e) ∧
    (bitOf (ctrEntry (dieCfg s d) n) 9 = true → Occurs s t 0x0A8) ∧ t = { s with trk := { s.trk with die := t.trk.die }, ev := t.ev }) ∧
  (∀ (g : Fin 432) p, ctrPart s g = some p → field (tracksCfg s p) 31 0 ≠ 0 →
    (g.val ∉ s.trk.armed → sfind s.trk.tagged g = none → Answers (.tracksIntervalEnd g) s fun t => (∀ h, h ∈ t.trk.armed ↔ h = g.val ∨ h ∈ s.trk.armed) ∧
      t = { s with trk := { s.trk with armed := t.trk.armed } }) ∧
    (g.val ∈ s.trk.armed ∨ (sfind s.trk.tagged g).isSome = true → Answers (.tracksIntervalEnd g) s fun t =>
      sget {} t.trk.bufs (g.val / 72) = { sget {} s.trk.bufs (g.val / 72) with missed := (sget {} s.trk.bufs (g.val / 72)).missed + 1 } ∧
      t = { s with trk := { s.trk with bufs := t.trk.bufs } })) ∧
  (∀ (g : Fin 432) p v b, sfind s.trk.tagged g = some (p, v) → b = sget {} s.trk.bufs (g.val / 72) →
    ((tracksStop s = false ∨ (b.full = false ∧ b.wp - b.base < 4096)) → Answers (.tracksSampleWrite g) s fun t => ∃ y, y = sget {} t.trk.bufs (g.val / 72) ∧ y.wp = b.wp + 1 ∧
      y.entries = ((b.wp, p, v) :: b.entries).take 4096 ∧ sfind t.trk.tagged g = none ∧ (tracksStop s = true → 4096 ≤ b.wp + 1 - b.base → y.full = true ∧ Occurs s t 0x0AF) ∧
      (watermark s ≠ 0 → watermark s ≤ b.wp + 1 - b.mark → Occurs s t (0x0A9 + g.val / 72)) ∧
      t = { s with trk := { s.trk with bufs := t.trk.bufs, tagged := t.trk.tagged }, ev := t.ev }) ∧
    (tracksStop s = true → b.full = false → 4096 ≤ b.wp - b.base → Answers (.tracksSampleWrite g) s fun t =>
      sget {} t.trk.bufs (g.val / 72) = { b with missed := b.missed + 1, full := true } ∧ Occurs s t 0x0AF ∧
      t = { s with trk := { s.trk with bufs := t.trk.bufs, tagged := t.trk.tagged }, ev := t.ev }) ∧
    (tracksStop s = true → b.full = true → Answers (.tracksSampleWrite g) s fun t => sget {} t.trk.bufs (g.val / 72) = { b with missed := b.missed + 1 } ∧
      sfind t.trk.tagged g = none ∧ t = { s with trk := { s.trk with bufs := t.trk.bufs, tagged := t.trk.tagged } }))

/-- Isolation of grove words (R9, R171, R173): whatever a word, a slot or a NEXT action of a grove does, exceptions included, it writes no parameter and no
transaction, nothing of Seedbank, of start-up, of the pins and the power state, of the events' configuration, of the Lookout or of device time. -/
def Obligations.GroveWordsLeaveManagementAlone : Prop := ∀ (s t : State) (c : Fin 27648) (i : Instr),
  (∃ (d a b : Fin 32) (imm : BitVec 48) (tg : BitVec 14) (m : MemSlot) (x : XSlot) (v : VSlot) (mop : Fin 16),
    i ∈ [.wordIssue c, .waitStuck c, .jump c tg, .bz c tg, .bnz c tg, .loopOp c tg, .callOp c tg, .returnOp c, .endTask c, .pjump c tg,
      .add c d a b, .sub c d a b, .andOp c d a b, .orOp c d a b, .xorOp c d a b, .shl c d a b, .shr c d a b, .cmp c a b, .li c d imm, .seta c d imm, .adda c d a,
      .setlc c imm, .setf c imm, .clrf c imm, .barrier c imm, .ld c m, .st c m, .dld c m, .dst c m, .mld c m mop x, .atom c m imm,
      .panel c x m, .mma c x m, .drain c x, .zeroBlock c x, .vadd c v, .vsub c v, .vmul c v, .vfma c v, .vmin c v, .vmax c v, .vand c v, .vor c v, .vxor c v,
      .vshl c v, .vshr c v, .vcmp c v, .vcvt c v, .vbcast c v, .vmovs c v, .vperm c v, .vcompress c v, .vexpand c v, .vcpop c v, .vscan c v, .vsegscan c v,
      .vscanx c v, .vreduce c v, .vkop c v, .vkmov c v, .vmovk c v]) →
  exec i s = .next t → t.dir = s.dir ∧ t.seed = s.seed ∧ t.boot = s.boot ∧ t.pins = s.pins ∧ t.power = s.power ∧ t.und = s.und ∧ t.pcie = s.pcie ∧ t.look = s.look ∧
    t.time = s.time ∧ t.fuses = s.fuses ∧ t.fieldBus = s.fieldBus ∧ t.rows = s.rows ∧ t.posted = s.posted

/-! ## The merged statements -/

/-- `PowerOnSamplesTheStraps` and `HardwareFaultsResetTheDeviceCold`: the statements of these names together. -/
def Obligations.PowerOnAndHardwareFaultsRestart : Prop := Sys2Proof.Claims.PowerOnSamplesTheStraps ∧ Sys2Proof.Claims.HardwareFaultsResetTheDeviceCold

/-- `ThermalTripStopsTheClocks` and `ThermalStepFollowsTheHottestSensor` and `CapStepHoldsTheAverageAtTheCap` and `AutogateStopsAndWakesOneDomain`: the statements of these names together. -/
def Obligations.PowerAndHeatAreLimited : Prop := Sys2Proof.Claims.ThermalTripStopsTheClocks ∧ Sys2Proof.Claims.ThermalStepFollowsTheHottestSensor ∧ Sys2Proof.Claims.CapStepHoldsTheAverageAtTheCap ∧ Sys2Proof.Claims.AutogateStopsAndWakesOneDomain

/-- `StartUpReachesStageFive` and `StartUpReachesReady`: the statements of these names together. -/
def Obligations.StartUpPassesItsStages : Prop := Sys2Proof.Claims.StartUpReachesStageFive ∧ Sys2Proof.Claims.StartUpReachesReady

/-- `PerstResetsAndLinksTrain` and `FunctionResetsEmptyTheMailbox`: the statements of these names together. -/
def Obligations.HostResetsAndLinksTrain : Prop := Sys2Proof.Claims.PerstResetsAndLinksTrain ∧ Sys2Proof.Claims.FunctionResetsEmptyTheMailbox

/-- `TransactionCommitAppliesItsWrites` and `RestoreDefaultsEmptiesTheJournal`: the statements of these names together. -/
def Obligations.CommitsApplyAndDefaultsReturn : Prop := Sys2Proof.Claims.TransactionCommitAppliesItsWrites ∧ Sys2Proof.Claims.RestoreDefaultsEmptiesTheJournal

/-- `ManagementWritesTakeEffect` and `DeviceWritesTakeEffect`: the statements of these names together. -/
def Obligations.ParameterRowsTakeEffect : Prop := Sys2Proof.Claims.ManagementWritesTakeEffect ∧ Sys2Proof.Claims.DeviceWritesTakeEffect

/-- `MailboxRequestsAreAnsweredOnce` and `FieldRequestsAreAnsweredOnTheirBus`: the statements of these names together. -/
def Obligations.RequestsAreAnsweredOnTheirWay : Prop := Sys2Proof.Claims.MailboxRequestsAreAnsweredOnce ∧ Sys2Proof.Claims.FieldRequestsAreAnsweredOnTheirBus

/-- `SegmentsGoInSequence` and `FieldBusAnnouncesAndWatchesItsNode`: the statements of these names together. -/
def Obligations.FieldBusSegmentsAndNodes : Prop := Sys2Proof.Claims.SegmentsGoInSequence ∧ Sys2Proof.Claims.FieldBusAnnouncesAndWatchesItsNode

/-- `WardenWindowsAndTraps` and `WardenMemoryInstructions` and `WardensTakeAndMaskEvents`: the statements of these names together. -/
def Obligations.WardensRunTrapAndMask : Prop := Sys2Proof.Claims.WardenWindowsAndTraps ∧ Sys2Proof.Claims.WardenMemoryInstructions ∧ Sys2Proof.Claims.WardensTakeAndMaskEvents

/-- `OccurrencesPendOverrunAndCoalesce` and `DeliveryIssuesTheLowestEligibleSource`: the statements of these names together. -/
def Obligations.OccurrencesPendAndAreDelivered : Prop := Sys2Proof.Claims.OccurrencesPendOverrunAndCoalesce ∧ Sys2Proof.Claims.DeliveryIssuesTheLowestEligibleSource

/-- `PinSwitchesStartFromTheOldFunction` and `ConfigurationWritesTakeEffect`: the statements of these names together. -/
def Obligations.PinsSwitchAndConfigurationIsWritten : Prop := Sys2Proof.Claims.PinSwitchesStartFromTheOldFunction ∧ Sys2Proof.Claims.ConfigurationWritesTakeEffect

/-- `SleepIsEnteredFromIdleness` and `WakesEndSleep` and `GrovesJoinAndLeaveAtBoundaries`: the statements of these names together. -/
def Obligations.SleepWakesAndGroves : Prop := Sys2Proof.Claims.SleepIsEnteredFromIdleness ∧ Sys2Proof.Claims.WakesEndSleep ∧ Sys2Proof.Claims.GrovesJoinAndLeaveAtBoundaries

/-- `DoorbellsMoveTailAndHead` and `CompletionWritesRecordThenStatusWord`: the statements of these names together. -/
def Obligations.RingsTakeDoorbellsAndCompletions : Prop := Sys2Proof.Claims.DoorbellsMoveTailAndHead ∧ Sys2Proof.Claims.CompletionWritesRecordThenStatusWord

/-- `ModelSwitchLoadsItsSlot` and `StepBoundariesListTheReadyStands`: the statements of these names together. -/
def Obligations.ModelsSwitchAndStepsList : Prop := Sys2Proof.Claims.ModelSwitchLoadsItsSlot ∧ Sys2Proof.Claims.StepBoundariesListTheReadyStands

/-- `GathersAndHotRowsFollowTheirCommands` and `ThicketTasksAndPrefetchReadTheirRows` and `ThicketWordsActOnTheirEngine`: the statements of these names together. -/
def Obligations.ThicketEnginesReadTheirRows : Prop := Sys2Proof.Claims.GathersAndHotRowsFollowTheirCommands ∧ Sys2Proof.Claims.ThicketTasksAndPrefetchReadTheirRows ∧ Sys2Proof.Claims.ThicketWordsActOnTheirEngine

/-- `RowUpdatesStageAndCommit` and `RowVersionsOutliveTheirReaders`: the statements of these names together. -/
def Obligations.RowUpdatesAndVersions : Prop := Sys2Proof.Claims.RowUpdatesStageAndCommit ∧ Sys2Proof.Claims.RowVersionsOutliveTheirReaders

/-- `ShadowedTasksAreReleasedOrUndone` and `FailedChecksReturnTheFiring`: the statements of these names together. -/
def Obligations.ShadowedTasksAreCheckedAndReturned : Prop := Sys2Proof.Claims.ShadowedTasksAreReleasedOrUndone ∧ Sys2Proof.Claims.FailedChecksReturnTheFiring

/-- `SelfTestsPatchSwitchesAndTickets` and `CanopyCopyAndRemoteOutputNodes`: the statements of these names together. -/
def Obligations.SelfTestsSwitchesAndSliceNodes : Prop := Sys2Proof.Claims.SelfTestsPatchSwitchesAndTickets ∧ Sys2Proof.Claims.CanopyCopyAndRemoteOutputNodes

/-- `MemoryErrorsAreCountedAndPoisoned` and `BarAccessesReachMemory`: the statements of these names together. -/
def Obligations.MemoryErrorsAndBarAccesses : Prop := Sys2Proof.Claims.MemoryErrorsAreCountedAndPoisoned ∧ Sys2Proof.Claims.BarAccessesReachMemory

/-- `FabricOperationsExecuteOnce` and `SourceRoutedOperationsFollowTheirPath`: the statements of these names together. -/
def Obligations.FabricOperationsExecuteAndFollowPaths : Prop := Sys2Proof.Claims.FabricOperationsExecuteOnce ∧ Sys2Proof.Claims.SourceRoutedOperationsFollowTheirPath

/-- `SecondsAndMinutesAreRecorded` and `CountersWrapAndSamplesAreKept`: the statements of these names together. -/
def Obligations.TimeIsRecordedAndCounted : Prop := Sys2Proof.Claims.SecondsAndMinutesAreRecorded ∧ Sys2Proof.Claims.CountersWrapAndSamplesAreKept

/-- `ResetLeavesTheBlockIdle` and `MemoryIsCanonicalAtReset`: the statements of these names together. -/
def Obligations.ResetLeavesTheBlockIdleAndCanonical : Prop := Sys2Proof.Claims.ResetLeavesTheBlockIdle ∧ Sys2Proof.Claims.MemoryIsCanonicalAtReset

/-- `AcceptedContainersAreSignedAndNotRolledBack` and `ContainerIntakeVerifiesBeforeApplying`: the statements of these names together. -/
def Obligations.ContainersAreVerifiedAndTakenIn : Prop := Sys2Proof.Claims.AcceptedContainersAreSignedAndNotRolledBack ∧ Sys2Proof.Claims.ContainerIntakeVerifiesBeforeApplying

/-- `DirectoryReadsAnswerAndStoreNothing` and `TransactionsStageWithoutChange`: the statements of these names together. -/
def Obligations.ReadsAndTransactionsChangeNothing : Prop := Sys2Proof.Claims.DirectoryReadsAnswerAndStoreNothing ∧ Sys2Proof.Claims.TransactionsStageWithoutChange

/-- `ReadyTasksReachCores` and `InstancesCompleteOrDeadlock`: the statements of these names together. -/
def Obligations.TasksRunAndInstancesEnd : Prop := Sys2Proof.Claims.ReadyTasksReachCores ∧ Sys2Proof.Claims.InstancesCompleteOrDeadlock
end

