-- ==== Sys2Proof/Laws/Memory.lean ====
section
/-!
SUPPORT. The laws of keyed lists and of the bytes of memory: a read after a write answers what was written, every other place is as it was, and
every operation keeps the canonical form.
-/
namespace Sys2Proof.Machine

variable {α : Type}

/-- Every key of a list lies above a bound. -/
def keysAbove (b : Nat) (m : Sparse α) : Prop := ∀ p ∈ m, b < p.1

theorem keysAbove_mono {b c : Nat} {m : Sparse α} (h : keysAbove b m) (hc : c ≤ b) : keysAbove c m :=
  fun p hp => Nat.lt_of_le_of_lt hc (h p hp)

/-- The canonical form, read off at the head. -/
theorem swf_cons [DecidableEq α] (d : α) (k : Nat) (v : α) (m : Sparse α) :
    swf d ((k, v) :: m) = true ↔ v ≠ d ∧ keysAbove k m ∧ swf d m = true := by
  induction m generalizing k v with
  | nil => simp [swf, keysAbove]
  | cons p m ih =>
    obtain ⟨k', v'⟩ := p
    simp only [swf, Bool.and_eq_true, decide_eq_true_eq]
    constructor
    · rintro ⟨⟨h1, h2⟩, h3⟩
      refine ⟨h1, ?_, h3⟩
      intro q hq
      rcases List.mem_cons.1 hq with rfl | hq
      · exact h2
      · exact Nat.lt_trans h2 (((ih k' v').1 h3).2.1 q hq)
    · rintro ⟨h1, h2, h3⟩
      exact ⟨⟨h1, h2 (k', v') (List.mem_cons_self ..)⟩, h3⟩

theorem sget_above (d : α) {k : Nat} {m : Sparse α} (h : keysAbove k m) {j : Nat} (hj : j ≤ k) : sget d m j = d := by
  induction m with
  | nil => rfl
  | cons p m ih =>
    have hp := h p (List.mem_cons_self ..)
    have : j ≠ p.1 := by omega
    simp only [sget, if_neg this]
    exact ih (fun q hq => h q (List.mem_cons_of_mem _ hq))

/-- What a put entry and every other key read as. -/
theorem sget_sput (d : α) (m : Sparse α) (k j : Nat) (v : α) : sget d (sput m k v) j = if j = k then v else sget d m j := by
  induction m with
  | nil => simp [sput, sget]
  | cons p m ih =>
    obtain ⟨k', v'⟩ := p
    by_cases h1 : k < k'
    · simp [sput, sget, h1]
    · by_cases h2 : k = k'
      · subst h2
        by_cases hj : j = k <;> simp [sput, sget, hj]
      · simp only [sput, if_neg h1, if_neg h2, sget, ih]
        by_cases hj : j = k'
        · subst hj
          simp [Ne.symm h2]
        · simp [hj]

@[simp] theorem sget_sput_self (d : α) (m : Sparse α) (k : Nat) (v : α) : sget d (sput m k v) k = v := by simp [sget_sput]

/-- A dropped key reads as the default, every other as before. -/
theorem sget_sdel (d : α) (m : Sparse α) (k j : Nat) : sget d (sdel m k) j = if j = k then d else sget d m j := by
  induction m with
  | nil => simp [sdel, sget]
  | cons p m ih =>
    obtain ⟨k', v'⟩ := p
    unfold sdel at ih
    by_cases h : k' = k
    · subst h
      by_cases hj : j = k' <;> simp_all [sdel, sget]
    · by_cases hj : j = k'
      · subst hj
        simp [sdel, sget, h]
      · simpa [sdel, sget, h, hj] using ih

/-- A write reads back, and every other key reads as before. -/
theorem sget_sset [DecidableEq α] (d : α) (m : Sparse α) (k j : Nat) (v : α) :
    sget d (sset d m k v) j = if j = k then v else sget d m j := by
  unfold sset
  split
  · next h => subst h; rw [sget_sdel]
  · rw [sget_sput]

/-- What is listed after an entry is put. -/
theorem sfind_sput (m : Sparse α) (k j : Nat) (v : α) : sfind (sput m k v) j = if j = k then some v else sfind m j := by
  induction m with
  | nil => simp [sput, sfind]
  | cons p m ih =>
    obtain ⟨k', v'⟩ := p
    by_cases h1 : k < k'
    · simp [sput, sfind, h1]
    · by_cases h2 : k = k'
      · subst h2
        by_cases hj : j = k <;> simp [sput, sfind, hj]
      · simp only [sput, if_neg h1, if_neg h2, sfind, ih]
        by_cases hj : j = k'
        · subst hj
          simp [Ne.symm h2]
        · simp [hj]

/-- What is listed after a key is dropped. -/
theorem sfind_sdel (m : Sparse α) (k j : Nat) : sfind (sdel m k) j = if j = k then none else sfind m j := by
  induction m with
  | nil => simp [sdel, sfind]
  | cons p m ih =>
    obtain ⟨k', v'⟩ := p
    unfold sdel at ih
    by_cases h : k' = k
    · subst h
      by_cases hj : j = k' <;> simp_all [sdel, sfind]
    · by_cases hj : j = k'
      · subst hj
        simp [sdel, sfind, h]
      · simpa [sdel, sfind, h, hj] using ih

theorem keysAbove_sput {b k : Nat} {m : Sparse α} {v : α} (h : keysAbove b m) (hk : b < k) : keysAbove b (sput m k v) := by
  induction m with
  | nil => intro p hp; simp only [sput, List.mem_singleton] at hp; subst hp; exact hk
  | cons q m ih =>
    have h1 := h q (List.mem_cons_self ..)
    have h2 := ih (fun p hp => h p (List.mem_cons_of_mem _ hp))
    intro p hp
    simp only [sput] at hp
    split at hp
    · rcases List.mem_cons.1 hp with rfl | hp
      · exact hk
      · exact h p hp
    · split at hp
      · rcases List.mem_cons.1 hp with rfl | hp
        · exact hk
        · exact h p (List.mem_cons_of_mem _ hp)
      · rcases List.mem_cons.1 hp with rfl | hp
        · exact h1
        · exact h2 p hp

theorem keysAbove_sdel {b k : Nat} {m : Sparse α} (h : keysAbove b m) : keysAbove b (sdel m k) :=
  fun p hp => h p (List.mem_filter.1 hp).1

/-- Putting an entry that is not the default keeps the canonical form. -/
theorem swf_sput [DecidableEq α] (d : α) (m : Sparse α) (k : Nat) (v : α) (hv : v ≠ d) (h : swf d m = true) : swf d (sput m k v) = true := by
  induction m with
  | nil => simp [sput, swf, hv]
  | cons p m ih =>
    obtain ⟨k', v'⟩ := p
    obtain ⟨h1, h2, h3⟩ := (swf_cons d k' v' m).1 h
    simp only [sput]
    split
    · next hk =>
      refine (swf_cons d _ _ _).2 ⟨hv, ?_, h⟩
      intro q hq
      rcases List.mem_cons.1 hq with rfl | hq
      · exact hk
      · exact Nat.lt_trans hk (h2 q hq)
    · split
      · next hk => subst hk; exact (swf_cons d _ _ _).2 ⟨hv, h2, h3⟩
      · next hk1 hk2 => exact (swf_cons d _ _ _).2 ⟨h1, keysAbove_sput h2 (by omega), ih h3⟩

/-- Dropping a key keeps the canonical form. -/
theorem swf_sdel [DecidableEq α] (d : α) (m : Sparse α) (k : Nat) (h : swf d m = true) : swf d (sdel m k) = true := by
  induction m with
  | nil => rfl
  | cons p m ih =>
    obtain ⟨k', v'⟩ := p
    obtain ⟨h1, h2, h3⟩ := (swf_cons d k' v' m).1 h
    by_cases hk : k' = k
    · have e : sdel ((k', v') :: m) k = sdel m k := by simp [sdel, hk]
      rw [e]; exact ih h3
    · have e : sdel ((k', v') :: m) k = (k', v') :: sdel m k := by simp [sdel, hk]
      rw [e]; exact (swf_cons d _ _ _).2 ⟨h1, keysAbove_sdel h2, ih h3⟩

/-- A write keeps the canonical form. -/
theorem swf_sset [DecidableEq α] (d : α) (m : Sparse α) (k : Nat) (v : α) (h : swf d m = true) : swf d (sset d m k v) = true := by
  unfold sset
  split
  · exact swf_sdel d m k h
  · next hv => exact swf_sput d m k v hv h

/-- Two lists in canonical form that read the same everywhere are the same list. -/
theorem swf_ext [DecidableEq α] (d : α) (m n : Sparse α) (hm : swf d m = true) (hn : swf d n = true)
    (h : ∀ k, sget d m k = sget d n k) : m = n := by
  induction m generalizing n with
  | nil =>
    cases n with
    | nil => rfl
    | cons q n =>
      obtain ⟨j, w⟩ := q
      have := h j
      simp only [sget, if_pos] at this
      exact absurd this.symm ((swf_cons d j w n).1 hn).1
  | cons p m ih =>
    obtain ⟨k, v⟩ := p
    obtain ⟨a1, a2, a3⟩ := (swf_cons d k v m).1 hm
    cases n with
    | nil =>
      have := h k
      simp only [sget, if_pos] at this
      exact absurd this a1
    | cons q n =>
      obtain ⟨j, w⟩ := q
      obtain ⟨b1, b2, b3⟩ := (swf_cons d j w n).1 hn
      have hkj : k = j := by
        rcases Nat.lt_trichotomy k j with hlt | heq | hgt
        · have e := h k
          have hne : k ≠ j := by omega
          simp only [sget, if_true, if_neg hne] at e
          rw [sget_above d b2 (Nat.le_of_lt hlt)] at e
          exact absurd e a1
        · exact heq
        · have e := h j
          have hne : j ≠ k := by omega
          simp only [sget, if_true, if_neg hne] at e
          rw [sget_above d a2 (Nat.le_of_lt hgt)] at e
          exact absurd e.symm b1
      subst hkj
      have hv : v = w := by have e := h k; simpa [sget] using e
      subst hv
      congr 1
      refine ih n a3 b3 ?_
      intro i
      by_cases hi : i = k
      · subst hi; rw [sget_above d a2 (Nat.le_refl _), sget_above d b2 (Nat.le_refl _)]
      · have e := h i; simpa [sget, hi] using e

/-! ## Bytes of memory -/

/-- Writing bytes keeps the canonical form. -/
theorem memWrite_wf (bs : List Byte) (m : Sparse Byte) (a : Nat) (h : Memory.wf m = true) : Memory.wf (memWrite m a bs) = true := by
  induction bs generalizing m a with
  | nil => exact h
  | cons b bs ih => exact ih _ _ (swf_sset 0 m a b h)

/-- A byte read after bytes are written: the written byte inside them, the old one outside. -/
theorem memByte_memWrite (bs : List Byte) (m : Sparse Byte) (a x : Nat) :
    memByte (memWrite m a bs) x = if a ≤ x ∧ x < a + bs.length then lget 0 bs (x - a) else memByte m x := by
  induction bs generalizing m a with
  | nil =>
    have : ¬(a ≤ x ∧ x < a + ([] : List Byte).length) := by simp
    rw [if_neg this]; rfl
  | cons b bs ih =>
    simp only [memWrite, ih, List.length_cons]
    by_cases hx : x = a
    · subst hx
      have h1 : ¬(x + 1 ≤ x ∧ x < x + 1 + bs.length) := by omega
      have h2 : x ≤ x ∧ x < x + (bs.length + 1) := by omega
      rw [if_neg h1, if_pos h2]
      simp [memByte, sget_sset, lget]
    · by_cases hin : a ≤ x ∧ x < a + (bs.length + 1)
      · have h1 : a + 1 ≤ x ∧ x < a + 1 + bs.length := by omega
        rw [if_pos h1, if_pos hin]
        have : x - a = (x - (a + 1)) + 1 := by omega
        rw [this]; simp [lget]
      · have h1 : ¬(a + 1 ≤ x ∧ x < a + 1 + bs.length) := by omega
        rw [if_neg h1, if_neg hin]
        simp [memByte, sget_sset, hx]

@[simp] theorem memRead_length (m : Sparse Byte) (a n : Nat) : (memRead m a n).length = n := by
  induction n generalizing a with
  | zero => rfl
  | succ n ih => simp [memRead, ih]

/-- The byte at a place of a read is the byte of memory there. -/
theorem memRead_get (m : Sparse Byte) (a n k : Nat) (h : k < n) : lget 0 (memRead m a n) k = memByte m (a + k) := by
  induction n generalizing a k with
  | zero => omega
  | succ n ih =>
    cases k with
    | zero => simp [memRead, lget]
    | succ k =>
      have e := ih (a + 1) k (by omega)
      have : a + 1 + k = a + (k + 1) := by omega
      rw [this] at e
      simpa [memRead, lget] using e

/-- A read of what was written there. -/
theorem memRead_memWrite (bs : List Byte) (m : Sparse Byte) (a k : Nat) (h : k < bs.length) :
    lget 0 (memRead (memWrite m a bs) a bs.length) k = lget 0 bs k := by
  rw [memRead_get _ _ _ _ h, memByte_memWrite]
  have : a ≤ a + k ∧ a + k < a + bs.length := by omega
  rw [if_pos this]
  congr 1
  omega

end Sys2Proof.Machine
end

