-- ==== Sys2Proof/Laws/State.lean ====
section
/-!
SUPPORT. What the primitive updates of the state leave alone: one lemma for each update and each field of `State` that it does not touch.
-/
namespace Sys2Proof.Machine

@[simp] theorem setParam_fuses (s : State) (idx sub inst v : Nat) : (setParam s idx sub inst v).fuses = s.fuses := rfl
@[simp] theorem setParam_pins (s : State) (idx sub inst v : Nat) : (setParam s idx sub inst v).pins = s.pins := rfl
@[simp] theorem setParam_power (s : State) (idx sub inst v : Nat) : (setParam s idx sub inst v).power = s.power := rfl
@[simp] theorem setParam_boot (s : State) (idx sub inst v : Nat) : (setParam s idx sub inst v).boot = s.boot := rfl
@[simp] theorem setParam_seed (s : State) (idx sub inst v : Nat) : (setParam s idx sub inst v).seed = s.seed := rfl
@[simp] theorem setParam_fieldBus (s : State) (idx sub inst v : Nat) : (setParam s idx sub inst v).fieldBus = s.fieldBus := rfl
@[simp] theorem setParam_und (s : State) (idx sub inst v : Nat) : (setParam s idx sub inst v).und = s.und := rfl
@[simp] theorem setParam_ev (s : State) (idx sub inst v : Nat) : (setParam s idx sub inst v).ev = s.ev := rfl
@[simp] theorem setParam_time (s : State) (idx sub inst v : Nat) : (setParam s idx sub inst v).time = s.time := rfl
@[simp] theorem setParam_groves (s : State) (idx sub inst v : Nat) : (setParam s idx sub inst v).groves = s.groves := rfl
@[simp] theorem setParam_fb (s : State) (idx sub inst v : Nat) : (setParam s idx sub inst v).fb = s.fb := rfl
@[simp] theorem setParam_trail (s : State) (idx sub inst v : Nat) : (setParam s idx sub inst v).trail = s.trail := rfl
@[simp] theorem setParam_stands (s : State) (idx sub inst v : Nat) : (setParam s idx sub inst v).stands = s.stands := rfl
@[simp] theorem setParam_thk (s : State) (idx sub inst v : Nat) : (setParam s idx sub inst v).thk = s.thk := rfl
@[simp] theorem setParam_rows (s : State) (idx sub inst v : Nat) : (setParam s idx sub inst v).rows = s.rows := rfl
@[simp] theorem setParam_mem (s : State) (idx sub inst v : Nat) : (setParam s idx sub inst v).mem = s.mem := rfl
@[simp] theorem setParam_canopy (s : State) (idx sub inst v : Nat) : (setParam s idx sub inst v).canopy = s.canopy := rfl
@[simp] theorem setParam_ports (s : State) (idx sub inst v : Nat) : (setParam s idx sub inst v).ports = s.ports := rfl
@[simp] theorem setParam_fab (s : State) (idx sub inst v : Nat) : (setParam s idx sub inst v).fab = s.fab := rfl
@[simp] theorem setParam_look (s : State) (idx sub inst v : Nat) : (setParam s idx sub inst v).look = s.look := rfl
@[simp] theorem setParam_root (s : State) (idx sub inst v : Nat) : (setParam s idx sub inst v).root = s.root := rfl
@[simp] theorem setParam_gr (s : State) (idx sub inst v : Nat) : (setParam s idx sub inst v).gr = s.gr := rfl
@[simp] theorem setParam_trk (s : State) (idx sub inst v : Nat) : (setParam s idx sub inst v).trk = s.trk := rfl
@[simp] theorem setParam_pcie (s : State) (idx sub inst v : Nat) : (setParam s idx sub inst v).pcie = s.pcie := rfl
@[simp] theorem setParam_asleep (s : State) (idx sub inst v : Nat) : (setParam s idx sub inst v).asleep = s.asleep := rfl
@[simp] theorem setParam_free (s : State) (idx sub inst v : Nat) : (setParam s idx sub inst v).free = s.free := rfl
@[simp] theorem setParam_posted (s : State) (idx sub inst v : Nat) : (setParam s idx sub inst v).posted = s.posted := rfl
@[simp] theorem setParam_pending (s : State) (idx sub inst v : Nat) : (setParam s idx sub inst v).pending = s.pending := rfl

@[simp] theorem clearParam_fuses (s : State) (idx sub inst : Nat) : (clearParam s idx sub inst).fuses = s.fuses := rfl
@[simp] theorem clearParam_pins (s : State) (idx sub inst : Nat) : (clearParam s idx sub inst).pins = s.pins := rfl
@[simp] theorem clearParam_power (s : State) (idx sub inst : Nat) : (clearParam s idx sub inst).power = s.power := rfl
@[simp] theorem clearParam_boot (s : State) (idx sub inst : Nat) : (clearParam s idx sub inst).boot = s.boot := rfl
@[simp] theorem clearParam_seed (s : State) (idx sub inst : Nat) : (clearParam s idx sub inst).seed = s.seed := rfl
@[simp] theorem clearParam_fieldBus (s : State) (idx sub inst : Nat) : (clearParam s idx sub inst).fieldBus = s.fieldBus := rfl
@[simp] theorem clearParam_und (s : State) (idx sub inst : Nat) : (clearParam s idx sub inst).und = s.und := rfl
@[simp] theorem clearParam_ev (s : State) (idx sub inst : Nat) : (clearParam s idx sub inst).ev = s.ev := rfl
@[simp] theorem clearParam_time (s : State) (idx sub inst : Nat) : (clearParam s idx sub inst).time = s.time := rfl
@[simp] theorem clearParam_groves (s : State) (idx sub inst : Nat) : (clearParam s idx sub inst).groves = s.groves := rfl
@[simp] theorem clearParam_fb (s : State) (idx sub inst : Nat) : (clearParam s idx sub inst).fb = s.fb := rfl
@[simp] theorem clearParam_trail (s : State) (idx sub inst : Nat) : (clearParam s idx sub inst).trail = s.trail := rfl
@[simp] theorem clearParam_stands (s : State) (idx sub inst : Nat) : (clearParam s idx sub inst).stands = s.stands := rfl
@[simp] theorem clearParam_thk (s : State) (idx sub inst : Nat) : (clearParam s idx sub inst).thk = s.thk := rfl
@[simp] theorem clearParam_rows (s : State) (idx sub inst : Nat) : (clearParam s idx sub inst).rows = s.rows := rfl
@[simp] theorem clearParam_mem (s : State) (idx sub inst : Nat) : (clearParam s idx sub inst).mem = s.mem := rfl
@[simp] theorem clearParam_canopy (s : State) (idx sub inst : Nat) : (clearParam s idx sub inst).canopy = s.canopy := rfl
@[simp] theorem clearParam_ports (s : State) (idx sub inst : Nat) : (clearParam s idx sub inst).ports = s.ports := rfl
@[simp] theorem clearParam_fab (s : State) (idx sub inst : Nat) : (clearParam s idx sub inst).fab = s.fab := rfl
@[simp] theorem clearParam_look (s : State) (idx sub inst : Nat) : (clearParam s idx sub inst).look = s.look := rfl
@[simp] theorem clearParam_root (s : State) (idx sub inst : Nat) : (clearParam s idx sub inst).root = s.root := rfl
@[simp] theorem clearParam_gr (s : State) (idx sub inst : Nat) : (clearParam s idx sub inst).gr = s.gr := rfl
@[simp] theorem clearParam_trk (s : State) (idx sub inst : Nat) : (clearParam s idx sub inst).trk = s.trk := rfl
@[simp] theorem clearParam_pcie (s : State) (idx sub inst : Nat) : (clearParam s idx sub inst).pcie = s.pcie := rfl
@[simp] theorem clearParam_asleep (s : State) (idx sub inst : Nat) : (clearParam s idx sub inst).asleep = s.asleep := rfl
@[simp] theorem clearParam_free (s : State) (idx sub inst : Nat) : (clearParam s idx sub inst).free = s.free := rfl
@[simp] theorem clearParam_posted (s : State) (idx sub inst : Nat) : (clearParam s idx sub inst).posted = s.posted := rfl
@[simp] theorem clearParam_pending (s : State) (idx sub inst : Nat) : (clearParam s idx sub inst).pending = s.pending := rfl

@[simp] theorem journalPut_fuses (s : State) (idx sub inst v : Nat) : (journalPut s idx sub inst v).fuses = s.fuses := rfl
@[simp] theorem journalPut_pins (s : State) (idx sub inst v : Nat) : (journalPut s idx sub inst v).pins = s.pins := rfl
@[simp] theorem journalPut_power (s : State) (idx sub inst v : Nat) : (journalPut s idx sub inst v).power = s.power := rfl
@[simp] theorem journalPut_boot (s : State) (idx sub inst v : Nat) : (journalPut s idx sub inst v).boot = s.boot := rfl
@[simp] theorem journalPut_dir (s : State) (idx sub inst v : Nat) : (journalPut s idx sub inst v).dir = s.dir := rfl
@[simp] theorem journalPut_fieldBus (s : State) (idx sub inst v : Nat) : (journalPut s idx sub inst v).fieldBus = s.fieldBus := rfl
@[simp] theorem journalPut_und (s : State) (idx sub inst v : Nat) : (journalPut s idx sub inst v).und = s.und := rfl
@[simp] theorem journalPut_ev (s : State) (idx sub inst v : Nat) : (journalPut s idx sub inst v).ev = s.ev := rfl
@[simp] theorem journalPut_time (s : State) (idx sub inst v : Nat) : (journalPut s idx sub inst v).time = s.time := rfl
@[simp] theorem journalPut_groves (s : State) (idx sub inst v : Nat) : (journalPut s idx sub inst v).groves = s.groves := rfl
@[simp] theorem journalPut_fb (s : State) (idx sub inst v : Nat) : (journalPut s idx sub inst v).fb = s.fb := rfl
@[simp] theorem journalPut_trail (s : State) (idx sub inst v : Nat) : (journalPut s idx sub inst v).trail = s.trail := rfl
@[simp] theorem journalPut_stands (s : State) (idx sub inst v : Nat) : (journalPut s idx sub inst v).stands = s.stands := rfl
@[simp] theorem journalPut_thk (s : State) (idx sub inst v : Nat) : (journalPut s idx sub inst v).thk = s.thk := rfl
@[simp] theorem journalPut_rows (s : State) (idx sub inst v : Nat) : (journalPut s idx sub inst v).rows = s.rows := rfl
@[simp] theorem journalPut_mem (s : State) (idx sub inst v : Nat) : (journalPut s idx sub inst v).mem = s.mem := rfl
@[simp] theorem journalPut_canopy (s : State) (idx sub inst v : Nat) : (journalPut s idx sub inst v).canopy = s.canopy := rfl
@[simp] theorem journalPut_ports (s : State) (idx sub inst v : Nat) : (journalPut s idx sub inst v).ports = s.ports := rfl
@[simp] theorem journalPut_fab (s : State) (idx sub inst v : Nat) : (journalPut s idx sub inst v).fab = s.fab := rfl
@[simp] theorem journalPut_look (s : State) (idx sub inst v : Nat) : (journalPut s idx sub inst v).look = s.look := rfl
@[simp] theorem journalPut_root (s : State) (idx sub inst v : Nat) : (journalPut s idx sub inst v).root = s.root := rfl
@[simp] theorem journalPut_gr (s : State) (idx sub inst v : Nat) : (journalPut s idx sub inst v).gr = s.gr := rfl
@[simp] theorem journalPut_trk (s : State) (idx sub inst v : Nat) : (journalPut s idx sub inst v).trk = s.trk := rfl
@[simp] theorem journalPut_pcie (s : State) (idx sub inst v : Nat) : (journalPut s idx sub inst v).pcie = s.pcie := rfl
@[simp] theorem journalPut_asleep (s : State) (idx sub inst v : Nat) : (journalPut s idx sub inst v).asleep = s.asleep := rfl
@[simp] theorem journalPut_free (s : State) (idx sub inst v : Nat) : (journalPut s idx sub inst v).free = s.free := rfl
@[simp] theorem journalPut_posted (s : State) (idx sub inst v : Nat) : (journalPut s idx sub inst v).posted = s.posted := rfl
@[simp] theorem journalPut_pending (s : State) (idx sub inst v : Nat) : (journalPut s idx sub inst v).pending = s.pending := rfl

@[simp] theorem pushRecord_fuses (s : State) (type unit fromS toS detail : Nat) : (pushRecord s type unit fromS toS detail).fuses = s.fuses := rfl
@[simp] theorem pushRecord_pins (s : State) (type unit fromS toS detail : Nat) : (pushRecord s type unit fromS toS detail).pins = s.pins := rfl
@[simp] theorem pushRecord_power (s : State) (type unit fromS toS detail : Nat) : (pushRecord s type unit fromS toS detail).power = s.power := rfl
@[simp] theorem pushRecord_boot (s : State) (type unit fromS toS detail : Nat) : (pushRecord s type unit fromS toS detail).boot = s.boot := rfl
@[simp] theorem pushRecord_dir (s : State) (type unit fromS toS detail : Nat) : (pushRecord s type unit fromS toS detail).dir = s.dir := rfl
@[simp] theorem pushRecord_fieldBus (s : State) (type unit fromS toS detail : Nat) : (pushRecord s type unit fromS toS detail).fieldBus = s.fieldBus := rfl
@[simp] theorem pushRecord_und (s : State) (type unit fromS toS detail : Nat) : (pushRecord s type unit fromS toS detail).und = s.und := rfl
@[simp] theorem pushRecord_ev (s : State) (type unit fromS toS detail : Nat) : (pushRecord s type unit fromS toS detail).ev = s.ev := rfl
@[simp] theorem pushRecord_time (s : State) (type unit fromS toS detail : Nat) : (pushRecord s type unit fromS toS detail).time = s.time := rfl
@[simp] theorem pushRecord_groves (s : State) (type unit fromS toS detail : Nat) : (pushRecord s type unit fromS toS detail).groves = s.groves := rfl
@[simp] theorem pushRecord_fb (s : State) (type unit fromS toS detail : Nat) : (pushRecord s type unit fromS toS detail).fb = s.fb := rfl
@[simp] theorem pushRecord_trail (s : State) (type unit fromS toS detail : Nat) : (pushRecord s type unit fromS toS detail).trail = s.trail := rfl
@[simp] theorem pushRecord_stands (s : State) (type unit fromS toS detail : Nat) : (pushRecord s type unit fromS toS detail).stands = s.stands := rfl
@[simp] theorem pushRecord_thk (s : State) (type unit fromS toS detail : Nat) : (pushRecord s type unit fromS toS detail).thk = s.thk := rfl
@[simp] theorem pushRecord_rows (s : State) (type unit fromS toS detail : Nat) : (pushRecord s type unit fromS toS detail).rows = s.rows := rfl
@[simp] theorem pushRecord_mem (s : State) (type unit fromS toS detail : Nat) : (pushRecord s type unit fromS toS detail).mem = s.mem := rfl
@[simp] theorem pushRecord_canopy (s : State) (type unit fromS toS detail : Nat) : (pushRecord s type unit fromS toS detail).canopy = s.canopy := rfl
@[simp] theorem pushRecord_ports (s : State) (type unit fromS toS detail : Nat) : (pushRecord s type unit fromS toS detail).ports = s.ports := rfl
@[simp] theorem pushRecord_fab (s : State) (type unit fromS toS detail : Nat) : (pushRecord s type unit fromS toS detail).fab = s.fab := rfl
@[simp] theorem pushRecord_look (s : State) (type unit fromS toS detail : Nat) : (pushRecord s type unit fromS toS detail).look = s.look := rfl
@[simp] theorem pushRecord_root (s : State) (type unit fromS toS detail : Nat) : (pushRecord s type unit fromS toS detail).root = s.root := rfl
@[simp] theorem pushRecord_gr (s : State) (type unit fromS toS detail : Nat) : (pushRecord s type unit fromS toS detail).gr = s.gr := rfl
@[simp] theorem pushRecord_trk (s : State) (type unit fromS toS detail : Nat) : (pushRecord s type unit fromS toS detail).trk = s.trk := rfl
@[simp] theorem pushRecord_pcie (s : State) (type unit fromS toS detail : Nat) : (pushRecord s type unit fromS toS detail).pcie = s.pcie := rfl
@[simp] theorem pushRecord_asleep (s : State) (type unit fromS toS detail : Nat) : (pushRecord s type unit fromS toS detail).asleep = s.asleep := rfl
@[simp] theorem pushRecord_free (s : State) (type unit fromS toS detail : Nat) : (pushRecord s type unit fromS toS detail).free = s.free := rfl
@[simp] theorem pushRecord_posted (s : State) (type unit fromS toS detail : Nat) : (pushRecord s type unit fromS toS detail).posted = s.posted := rfl
@[simp] theorem pushRecord_pending (s : State) (type unit fromS toS detail : Nat) : (pushRecord s type unit fromS toS detail).pending = s.pending := rfl

@[simp] theorem raise_fuses (s : State) (src : Nat) : (raise s src).fuses = s.fuses := by unfold raise; dsimp only; (repeat' split) <;> rfl
@[simp] theorem raise_pins (s : State) (src : Nat) : (raise s src).pins = s.pins := by unfold raise; dsimp only; (repeat' split) <;> rfl
@[simp] theorem raise_power (s : State) (src : Nat) : (raise s src).power = s.power := by unfold raise; dsimp only; (repeat' split) <;> rfl
@[simp] theorem raise_boot (s : State) (src : Nat) : (raise s src).boot = s.boot := by unfold raise; dsimp only; (repeat' split) <;> rfl
@[simp] theorem raise_seed (s : State) (src : Nat) : (raise s src).seed = s.seed := by unfold raise; dsimp only; (repeat' split) <;> rfl
@[simp] theorem raise_dir (s : State) (src : Nat) : (raise s src).dir = s.dir := by unfold raise; dsimp only; (repeat' split) <;> rfl
@[simp] theorem raise_fieldBus (s : State) (src : Nat) : (raise s src).fieldBus = s.fieldBus := by unfold raise; dsimp only; (repeat' split) <;> rfl
@[simp] theorem raise_und (s : State) (src : Nat) : (raise s src).und = s.und := by unfold raise; dsimp only; (repeat' split) <;> rfl
@[simp] theorem raise_time (s : State) (src : Nat) : (raise s src).time = s.time := by unfold raise; dsimp only; (repeat' split) <;> rfl
@[simp] theorem raise_groves (s : State) (src : Nat) : (raise s src).groves = s.groves := by unfold raise; dsimp only; (repeat' split) <;> rfl
@[simp] theorem raise_fb (s : State) (src : Nat) : (raise s src).fb = s.fb := by unfold raise; dsimp only; (repeat' split) <;> rfl
@[simp] theorem raise_trail (s : State) (src : Nat) : (raise s src).trail = s.trail := by unfold raise; dsimp only; (repeat' split) <;> rfl
@[simp] theorem raise_stands (s : State) (src : Nat) : (raise s src).stands = s.stands := by unfold raise; dsimp only; (repeat' split) <;> rfl
@[simp] theorem raise_thk (s : State) (src : Nat) : (raise s src).thk = s.thk := by unfold raise; dsimp only; (repeat' split) <;> rfl
@[simp] theorem raise_rows (s : State) (src : Nat) : (raise s src).rows = s.rows := by unfold raise; dsimp only; (repeat' split) <;> rfl
@[simp] theorem raise_mem (s : State) (src : Nat) : (raise s src).mem = s.mem := by unfold raise; dsimp only; (repeat' split) <;> rfl
@[simp] theorem raise_canopy (s : State) (src : Nat) : (raise s src).canopy = s.canopy := by unfold raise; dsimp only; (repeat' split) <;> rfl
@[simp] theorem raise_ports (s : State) (src : Nat) : (raise s src).ports = s.ports := by unfold raise; dsimp only; (repeat' split) <;> rfl
@[simp] theorem raise_fab (s : State) (src : Nat) : (raise s src).fab = s.fab := by unfold raise; dsimp only; (repeat' split) <;> rfl
@[simp] theorem raise_look (s : State) (src : Nat) : (raise s src).look = s.look := by unfold raise; dsimp only; (repeat' split) <;> rfl
@[simp] theorem raise_root (s : State) (src : Nat) : (raise s src).root = s.root := by unfold raise; dsimp only; (repeat' split) <;> rfl
@[simp] theorem raise_gr (s : State) (src : Nat) : (raise s src).gr = s.gr := by unfold raise; dsimp only; (repeat' split) <;> rfl
@[simp] theorem raise_trk (s : State) (src : Nat) : (raise s src).trk = s.trk := by unfold raise; dsimp only; (repeat' split) <;> rfl
@[simp] theorem raise_pcie (s : State) (src : Nat) : (raise s src).pcie = s.pcie := by unfold raise; dsimp only; (repeat' split) <;> rfl
@[simp] theorem raise_asleep (s : State) (src : Nat) : (raise s src).asleep = s.asleep := by unfold raise; dsimp only; (repeat' split) <;> rfl
@[simp] theorem raise_free (s : State) (src : Nat) : (raise s src).free = s.free := by unfold raise; dsimp only; (repeat' split) <;> rfl
@[simp] theorem raise_posted (s : State) (src : Nat) : (raise s src).posted = s.posted := by unfold raise; dsimp only; (repeat' split) <;> rfl
@[simp] theorem raise_pending (s : State) (src : Nat) : (raise s src).pending = s.pending := by unfold raise; dsimp only; (repeat' split) <;> rfl

@[simp] theorem clearPending_fuses (s : State) (src : Nat) : (clearPending s src).fuses = s.fuses := rfl
@[simp] theorem clearPending_pins (s : State) (src : Nat) : (clearPending s src).pins = s.pins := rfl
@[simp] theorem clearPending_power (s : State) (src : Nat) : (clearPending s src).power = s.power := rfl
@[simp] theorem clearPending_boot (s : State) (src : Nat) : (clearPending s src).boot = s.boot := rfl
@[simp] theorem clearPending_seed (s : State) (src : Nat) : (clearPending s src).seed = s.seed := rfl
@[simp] theorem clearPending_dir (s : State) (src : Nat) : (clearPending s src).dir = s.dir := rfl
@[simp] theorem clearPending_fieldBus (s : State) (src : Nat) : (clearPending s src).fieldBus = s.fieldBus := rfl
@[simp] theorem clearPending_und (s : State) (src : Nat) : (clearPending s src).und = s.und := rfl
@[simp] theorem clearPending_time (s : State) (src : Nat) : (clearPending s src).time = s.time := rfl
@[simp] theorem clearPending_groves (s : State) (src : Nat) : (clearPending s src).groves = s.groves := rfl
@[simp] theorem clearPending_fb (s : State) (src : Nat) : (clearPending s src).fb = s.fb := rfl
@[simp] theorem clearPending_trail (s : State) (src : Nat) : (clearPending s src).trail = s.trail := rfl
@[simp] theorem clearPending_stands (s : State) (src : Nat) : (clearPending s src).stands = s.stands := rfl
@[simp] theorem clearPending_thk (s : State) (src : Nat) : (clearPending s src).thk = s.thk := rfl
@[simp] theorem clearPending_rows (s : State) (src : Nat) : (clearPending s src).rows = s.rows := rfl
@[simp] theorem clearPending_mem (s : State) (src : Nat) : (clearPending s src).mem = s.mem := rfl
@[simp] theorem clearPending_canopy (s : State) (src : Nat) : (clearPending s src).canopy = s.canopy := rfl
@[simp] theorem clearPending_ports (s : State) (src : Nat) : (clearPending s src).ports = s.ports := rfl
@[simp] theorem clearPending_fab (s : State) (src : Nat) : (clearPending s src).fab = s.fab := rfl
@[simp] theorem clearPending_look (s : State) (src : Nat) : (clearPending s src).look = s.look := rfl
@[simp] theorem clearPending_root (s : State) (src : Nat) : (clearPending s src).root = s.root := rfl
@[simp] theorem clearPending_gr (s : State) (src : Nat) : (clearPending s src).gr = s.gr := rfl
@[simp] theorem clearPending_trk (s : State) (src : Nat) : (clearPending s src).trk = s.trk := rfl
@[simp] theorem clearPending_pcie (s : State) (src : Nat) : (clearPending s src).pcie = s.pcie := rfl
@[simp] theorem clearPending_asleep (s : State) (src : Nat) : (clearPending s src).asleep = s.asleep := rfl
@[simp] theorem clearPending_free (s : State) (src : Nat) : (clearPending s src).free = s.free := rfl
@[simp] theorem clearPending_posted (s : State) (src : Nat) : (clearPending s src).posted = s.posted := rfl
@[simp] theorem clearPending_pending (s : State) (src : Nat) : (clearPending s src).pending = s.pending := rfl

@[simp] theorem record_fuses (s : State) (type unit fromS toS detail : Nat) : (record s type unit fromS toS detail).fuses = s.fuses := by unfold record; dsimp only; (repeat' split) <;> simp
@[simp] theorem record_pins (s : State) (type unit fromS toS detail : Nat) : (record s type unit fromS toS detail).pins = s.pins := by unfold record; dsimp only; (repeat' split) <;> simp
@[simp] theorem record_power (s : State) (type unit fromS toS detail : Nat) : (record s type unit fromS toS detail).power = s.power := by unfold record; dsimp only; (repeat' split) <;> simp
@[simp] theorem record_boot (s : State) (type unit fromS toS detail : Nat) : (record s type unit fromS toS detail).boot = s.boot := by unfold record; dsimp only; (repeat' split) <;> simp
@[simp] theorem record_dir (s : State) (type unit fromS toS detail : Nat) : (record s type unit fromS toS detail).dir = s.dir := by unfold record; dsimp only; (repeat' split) <;> simp
@[simp] theorem record_fieldBus (s : State) (type unit fromS toS detail : Nat) : (record s type unit fromS toS detail).fieldBus = s.fieldBus := by unfold record; dsimp only; (repeat' split) <;> simp
@[simp] theorem record_und (s : State) (type unit fromS toS detail : Nat) : (record s type unit fromS toS detail).und = s.und := by unfold record; dsimp only; (repeat' split) <;> simp
@[simp] theorem record_time (s : State) (type unit fromS toS detail : Nat) : (record s type unit fromS toS detail).time = s.time := by unfold record; dsimp only; (repeat' split) <;> simp
@[simp] theorem record_groves (s : State) (type unit fromS toS detail : Nat) : (record s type unit fromS toS detail).groves = s.groves := by unfold record; dsimp only; (repeat' split) <;> simp
@[simp] theorem record_fb (s : State) (type unit fromS toS detail : Nat) : (record s type unit fromS toS detail).fb = s.fb := by unfold record; dsimp only; (repeat' split) <;> simp
@[simp] theorem record_trail (s : State) (type unit fromS toS detail : Nat) : (record s type unit fromS toS detail).trail = s.trail := by unfold record; dsimp only; (repeat' split) <;> simp
@[simp] theorem record_stands (s : State) (type unit fromS toS detail : Nat) : (record s type unit fromS toS detail).stands = s.stands := by unfold record; dsimp only; (repeat' split) <;> simp
@[simp] theorem record_thk (s : State) (type unit fromS toS detail : Nat) : (record s type unit fromS toS detail).thk = s.thk := by unfold record; dsimp only; (repeat' split) <;> simp
@[simp] theorem record_rows (s : State) (type unit fromS toS detail : Nat) : (record s type unit fromS toS detail).rows = s.rows := by unfold record; dsimp only; (repeat' split) <;> simp
@[simp] theorem record_mem (s : State) (type unit fromS toS detail : Nat) : (record s type unit fromS toS detail).mem = s.mem := by unfold record; dsimp only; (repeat' split) <;> simp
@[simp] theorem record_canopy (s : State) (type unit fromS toS detail : Nat) : (record s type unit fromS toS detail).canopy = s.canopy := by unfold record; dsimp only; (repeat' split) <;> simp
@[simp] theorem record_ports (s : State) (type unit fromS toS detail : Nat) : (record s type unit fromS toS detail).ports = s.ports := by unfold record; dsimp only; (repeat' split) <;> simp
@[simp] theorem record_fab (s : State) (type unit fromS toS detail : Nat) : (record s type unit fromS toS detail).fab = s.fab := by unfold record; dsimp only; (repeat' split) <;> simp
@[simp] theorem record_look (s : State) (type unit fromS toS detail : Nat) : (record s type unit fromS toS detail).look = s.look := by unfold record; dsimp only; (repeat' split) <;> simp
@[simp] theorem record_root (s : State) (type unit fromS toS detail : Nat) : (record s type unit fromS toS detail).root = s.root := by unfold record; dsimp only; (repeat' split) <;> simp
@[simp] theorem record_gr (s : State) (type unit fromS toS detail : Nat) : (record s type unit fromS toS detail).gr = s.gr := by unfold record; dsimp only; (repeat' split) <;> simp
@[simp] theorem record_trk (s : State) (type unit fromS toS detail : Nat) : (record s type unit fromS toS detail).trk = s.trk := by unfold record; dsimp only; (repeat' split) <;> simp
@[simp] theorem record_pcie (s : State) (type unit fromS toS detail : Nat) : (record s type unit fromS toS detail).pcie = s.pcie := by unfold record; dsimp only; (repeat' split) <;> simp
@[simp] theorem record_asleep (s : State) (type unit fromS toS detail : Nat) : (record s type unit fromS toS detail).asleep = s.asleep := by unfold record; dsimp only; (repeat' split) <;> simp
@[simp] theorem record_free (s : State) (type unit fromS toS detail : Nat) : (record s type unit fromS toS detail).free = s.free := by unfold record; dsimp only; (repeat' split) <;> simp
@[simp] theorem record_posted (s : State) (type unit fromS toS detail : Nat) : (record s type unit fromS toS detail).posted = s.posted := by unfold record; dsimp only; (repeat' split) <;> simp
@[simp] theorem record_pending (s : State) (type unit fromS toS detail : Nat) : (record s type unit fromS toS detail).pending = s.pending := by unfold record; dsimp only; (repeat' split) <;> simp

@[simp] theorem partError_fuses (s : State) (p : Nat) : (partError s p).fuses = s.fuses := by unfold partError; simp
@[simp] theorem partError_pins (s : State) (p : Nat) : (partError s p).pins = s.pins := by unfold partError; simp
@[simp] theorem partError_power (s : State) (p : Nat) : (partError s p).power = s.power := by unfold partError; simp
@[simp] theorem partError_boot (s : State) (p : Nat) : (partError s p).boot = s.boot := by unfold partError; simp
@[simp] theorem partError_seed (s : State) (p : Nat) : (partError s p).seed = s.seed := by unfold partError; simp
@[simp] theorem partError_dir (s : State) (p : Nat) : (partError s p).dir = s.dir := by unfold partError; simp
@[simp] theorem partError_fieldBus (s : State) (p : Nat) : (partError s p).fieldBus = s.fieldBus := by unfold partError; simp
@[simp] theorem partError_und (s : State) (p : Nat) : (partError s p).und = s.und := by unfold partError; simp
@[simp] theorem partError_time (s : State) (p : Nat) : (partError s p).time = s.time := by unfold partError; simp
@[simp] theorem partError_groves (s : State) (p : Nat) : (partError s p).groves = s.groves := by unfold partError; simp
@[simp] theorem partError_fb (s : State) (p : Nat) : (partError s p).fb = s.fb := by unfold partError; simp
@[simp] theorem partError_trail (s : State) (p : Nat) : (partError s p).trail = s.trail := by unfold partError; simp
@[simp] theorem partError_stands (s : State) (p : Nat) : (partError s p).stands = s.stands := by unfold partError; simp
@[simp] theorem partError_thk (s : State) (p : Nat) : (partError s p).thk = s.thk := by unfold partError; simp
@[simp] theorem partError_rows (s : State) (p : Nat) : (partError s p).rows = s.rows := by unfold partError; simp
@[simp] theorem partError_mem (s : State) (p : Nat) : (partError s p).mem = s.mem := by unfold partError; simp
@[simp] theorem partError_canopy (s : State) (p : Nat) : (partError s p).canopy = s.canopy := by unfold partError; simp
@[simp] theorem partError_ports (s : State) (p : Nat) : (partError s p).ports = s.ports := by unfold partError; simp
@[simp] theorem partError_fab (s : State) (p : Nat) : (partError s p).fab = s.fab := by unfold partError; simp
@[simp] theorem partError_look (s : State) (p : Nat) : (partError s p).look = s.look := by unfold partError; simp
@[simp] theorem partError_root (s : State) (p : Nat) : (partError s p).root = s.root := by unfold partError; simp
@[simp] theorem partError_gr (s : State) (p : Nat) : (partError s p).gr = s.gr := by unfold partError; simp
@[simp] theorem partError_trk (s : State) (p : Nat) : (partError s p).trk = s.trk := by unfold partError; simp
@[simp] theorem partError_pcie (s : State) (p : Nat) : (partError s p).pcie = s.pcie := by unfold partError; simp
@[simp] theorem partError_asleep (s : State) (p : Nat) : (partError s p).asleep = s.asleep := by unfold partError; simp
@[simp] theorem partError_free (s : State) (p : Nat) : (partError s p).free = s.free := by unfold partError; simp
@[simp] theorem partError_posted (s : State) (p : Nat) : (partError s p).posted = s.posted := by unfold partError; simp
@[simp] theorem partError_pending (s : State) (p : Nat) : (partError s p).pending = s.pending := by unfold partError; simp

@[simp] theorem partNotice_fuses (s : State) (p : Nat) : (partNotice s p).fuses = s.fuses := by unfold partNotice; simp
@[simp] theorem partNotice_pins (s : State) (p : Nat) : (partNotice s p).pins = s.pins := by unfold partNotice; simp
@[simp] theorem partNotice_power (s : State) (p : Nat) : (partNotice s p).power = s.power := by unfold partNotice; simp
@[simp] theorem partNotice_boot (s : State) (p : Nat) : (partNotice s p).boot = s.boot := by unfold partNotice; simp
@[simp] theorem partNotice_seed (s : State) (p : Nat) : (partNotice s p).seed = s.seed := by unfold partNotice; simp
@[simp] theorem partNotice_dir (s : State) (p : Nat) : (partNotice s p).dir = s.dir := by unfold partNotice; simp
@[simp] theorem partNotice_fieldBus (s : State) (p : Nat) : (partNotice s p).fieldBus = s.fieldBus := by unfold partNotice; simp
@[simp] theorem partNotice_und (s : State) (p : Nat) : (partNotice s p).und = s.und := by unfold partNotice; simp
@[simp] theorem partNotice_time (s : State) (p : Nat) : (partNotice s p).time = s.time := by unfold partNotice; simp
@[simp] theorem partNotice_groves (s : State) (p : Nat) : (partNotice s p).groves = s.groves := by unfold partNotice; simp
@[simp] theorem partNotice_fb (s : State) (p : Nat) : (partNotice s p).fb = s.fb := by unfold partNotice; simp
@[simp] theorem partNotice_trail (s : State) (p : Nat) : (partNotice s p).trail = s.trail := by unfold partNotice; simp
@[simp] theorem partNotice_stands (s : State) (p : Nat) : (partNotice s p).stands = s.stands := by unfold partNotice; simp
@[simp] theorem partNotice_thk (s : State) (p : Nat) : (partNotice s p).thk = s.thk := by unfold partNotice; simp
@[simp] theorem partNotice_rows (s : State) (p : Nat) : (partNotice s p).rows = s.rows := by unfold partNotice; simp
@[simp] theorem partNotice_mem (s : State) (p : Nat) : (partNotice s p).mem = s.mem := by unfold partNotice; simp
@[simp] theorem partNotice_canopy (s : State) (p : Nat) : (partNotice s p).canopy = s.canopy := by unfold partNotice; simp
@[simp] theorem partNotice_ports (s : State) (p : Nat) : (partNotice s p).ports = s.ports := by unfold partNotice; simp
@[simp] theorem partNotice_fab (s : State) (p : Nat) : (partNotice s p).fab = s.fab := by unfold partNotice; simp
@[simp] theorem partNotice_look (s : State) (p : Nat) : (partNotice s p).look = s.look := by unfold partNotice; simp
@[simp] theorem partNotice_root (s : State) (p : Nat) : (partNotice s p).root = s.root := by unfold partNotice; simp
@[simp] theorem partNotice_gr (s : State) (p : Nat) : (partNotice s p).gr = s.gr := by unfold partNotice; simp
@[simp] theorem partNotice_trk (s : State) (p : Nat) : (partNotice s p).trk = s.trk := by unfold partNotice; simp
@[simp] theorem partNotice_pcie (s : State) (p : Nat) : (partNotice s p).pcie = s.pcie := by unfold partNotice; simp
@[simp] theorem partNotice_asleep (s : State) (p : Nat) : (partNotice s p).asleep = s.asleep := by unfold partNotice; simp
@[simp] theorem partNotice_free (s : State) (p : Nat) : (partNotice s p).free = s.free := by unfold partNotice; simp
@[simp] theorem partNotice_posted (s : State) (p : Nat) : (partNotice s p).posted = s.posted := by unfold partNotice; simp
@[simp] theorem partNotice_pending (s : State) (p : Nat) : (partNotice s p).pending = s.pending := by unfold partNotice; simp

@[simp] theorem modUnit_fuses (s : State) (u : Nat) (f : UnitSum → UnitSum) : (modUnit s u f).fuses = s.fuses := rfl
@[simp] theorem modUnit_pins (s : State) (u : Nat) (f : UnitSum → UnitSum) : (modUnit s u f).pins = s.pins := rfl
@[simp] theorem modUnit_power (s : State) (u : Nat) (f : UnitSum → UnitSum) : (modUnit s u f).power = s.power := rfl
@[simp] theorem modUnit_boot (s : State) (u : Nat) (f : UnitSum → UnitSum) : (modUnit s u f).boot = s.boot := rfl
@[simp] theorem modUnit_dir (s : State) (u : Nat) (f : UnitSum → UnitSum) : (modUnit s u f).dir = s.dir := rfl
@[simp] theorem modUnit_fieldBus (s : State) (u : Nat) (f : UnitSum → UnitSum) : (modUnit s u f).fieldBus = s.fieldBus := rfl
@[simp] theorem modUnit_und (s : State) (u : Nat) (f : UnitSum → UnitSum) : (modUnit s u f).und = s.und := rfl
@[simp] theorem modUnit_ev (s : State) (u : Nat) (f : UnitSum → UnitSum) : (modUnit s u f).ev = s.ev := rfl
@[simp] theorem modUnit_time (s : State) (u : Nat) (f : UnitSum → UnitSum) : (modUnit s u f).time = s.time := rfl
@[simp] theorem modUnit_groves (s : State) (u : Nat) (f : UnitSum → UnitSum) : (modUnit s u f).groves = s.groves := rfl
@[simp] theorem modUnit_fb (s : State) (u : Nat) (f : UnitSum → UnitSum) : (modUnit s u f).fb = s.fb := rfl
@[simp] theorem modUnit_trail (s : State) (u : Nat) (f : UnitSum → UnitSum) : (modUnit s u f).trail = s.trail := rfl
@[simp] theorem modUnit_stands (s : State) (u : Nat) (f : UnitSum → UnitSum) : (modUnit s u f).stands = s.stands := rfl
@[simp] theorem modUnit_thk (s : State) (u : Nat) (f : UnitSum → UnitSum) : (modUnit s u f).thk = s.thk := rfl
@[simp] theorem modUnit_rows (s : State) (u : Nat) (f : UnitSum → UnitSum) : (modUnit s u f).rows = s.rows := rfl
@[simp] theorem modUnit_mem (s : State) (u : Nat) (f : UnitSum → UnitSum) : (modUnit s u f).mem = s.mem := rfl
@[simp] theorem modUnit_canopy (s : State) (u : Nat) (f : UnitSum → UnitSum) : (modUnit s u f).canopy = s.canopy := rfl
@[simp] theorem modUnit_ports (s : State) (u : Nat) (f : UnitSum → UnitSum) : (modUnit s u f).ports = s.ports := rfl
@[simp] theorem modUnit_fab (s : State) (u : Nat) (f : UnitSum → UnitSum) : (modUnit s u f).fab = s.fab := rfl
@[simp] theorem modUnit_look (s : State) (u : Nat) (f : UnitSum → UnitSum) : (modUnit s u f).look = s.look := rfl
@[simp] theorem modUnit_root (s : State) (u : Nat) (f : UnitSum → UnitSum) : (modUnit s u f).root = s.root := rfl
@[simp] theorem modUnit_gr (s : State) (u : Nat) (f : UnitSum → UnitSum) : (modUnit s u f).gr = s.gr := rfl
@[simp] theorem modUnit_trk (s : State) (u : Nat) (f : UnitSum → UnitSum) : (modUnit s u f).trk = s.trk := rfl
@[simp] theorem modUnit_pcie (s : State) (u : Nat) (f : UnitSum → UnitSum) : (modUnit s u f).pcie = s.pcie := rfl
@[simp] theorem modUnit_asleep (s : State) (u : Nat) (f : UnitSum → UnitSum) : (modUnit s u f).asleep = s.asleep := rfl
@[simp] theorem modUnit_free (s : State) (u : Nat) (f : UnitSum → UnitSum) : (modUnit s u f).free = s.free := rfl
@[simp] theorem modUnit_posted (s : State) (u : Nat) (f : UnitSum → UnitSum) : (modUnit s u f).posted = s.posted := rfl
@[simp] theorem modUnit_pending (s : State) (u : Nat) (f : UnitSum → UnitSum) : (modUnit s u f).pending = s.pending := rfl

@[simp] theorem moveUnit_fuses (s : State) (u st : Nat) : (moveUnit s u st).fuses = s.fuses := rfl
@[simp] theorem moveUnit_pins (s : State) (u st : Nat) : (moveUnit s u st).pins = s.pins := rfl
@[simp] theorem moveUnit_power (s : State) (u st : Nat) : (moveUnit s u st).power = s.power := rfl
@[simp] theorem moveUnit_boot (s : State) (u st : Nat) : (moveUnit s u st).boot = s.boot := rfl
@[simp] theorem moveUnit_dir (s : State) (u st : Nat) : (moveUnit s u st).dir = s.dir := rfl
@[simp] theorem moveUnit_fieldBus (s : State) (u st : Nat) : (moveUnit s u st).fieldBus = s.fieldBus := rfl
@[simp] theorem moveUnit_und (s : State) (u st : Nat) : (moveUnit s u st).und = s.und := rfl
@[simp] theorem moveUnit_ev (s : State) (u st : Nat) : (moveUnit s u st).ev = s.ev := rfl
@[simp] theorem moveUnit_time (s : State) (u st : Nat) : (moveUnit s u st).time = s.time := rfl
@[simp] theorem moveUnit_groves (s : State) (u st : Nat) : (moveUnit s u st).groves = s.groves := rfl
@[simp] theorem moveUnit_fb (s : State) (u st : Nat) : (moveUnit s u st).fb = s.fb := rfl
@[simp] theorem moveUnit_trail (s : State) (u st : Nat) : (moveUnit s u st).trail = s.trail := rfl
@[simp] theorem moveUnit_stands (s : State) (u st : Nat) : (moveUnit s u st).stands = s.stands := rfl
@[simp] theorem moveUnit_thk (s : State) (u st : Nat) : (moveUnit s u st).thk = s.thk := rfl
@[simp] theorem moveUnit_rows (s : State) (u st : Nat) : (moveUnit s u st).rows = s.rows := rfl
@[simp] theorem moveUnit_mem (s : State) (u st : Nat) : (moveUnit s u st).mem = s.mem := rfl
@[simp] theorem moveUnit_canopy (s : State) (u st : Nat) : (moveUnit s u st).canopy = s.canopy := rfl
@[simp] theorem moveUnit_ports (s : State) (u st : Nat) : (moveUnit s u st).ports = s.ports := rfl
@[simp] theorem moveUnit_fab (s : State) (u st : Nat) : (moveUnit s u st).fab = s.fab := rfl
@[simp] theorem moveUnit_look (s : State) (u st : Nat) : (moveUnit s u st).look = s.look := rfl
@[simp] theorem moveUnit_root (s : State) (u st : Nat) : (moveUnit s u st).root = s.root := rfl
@[simp] theorem moveUnit_gr (s : State) (u st : Nat) : (moveUnit s u st).gr = s.gr := rfl
@[simp] theorem moveUnit_trk (s : State) (u st : Nat) : (moveUnit s u st).trk = s.trk := rfl
@[simp] theorem moveUnit_pcie (s : State) (u st : Nat) : (moveUnit s u st).pcie = s.pcie := rfl
@[simp] theorem moveUnit_asleep (s : State) (u st : Nat) : (moveUnit s u st).asleep = s.asleep := rfl
@[simp] theorem moveUnit_free (s : State) (u st : Nat) : (moveUnit s u st).free = s.free := rfl
@[simp] theorem moveUnit_posted (s : State) (u st : Nat) : (moveUnit s u st).posted = s.posted := rfl
@[simp] theorem moveUnit_pending (s : State) (u st : Nat) : (moveUnit s u st).pending = s.pending := rfl

@[simp] theorem postWrite_fuses (s : State) (port fn addr : Nat) (bs : List Byte) : (postWrite s port fn addr bs).fuses = s.fuses := rfl
@[simp] theorem postWrite_pins (s : State) (port fn addr : Nat) (bs : List Byte) : (postWrite s port fn addr bs).pins = s.pins := rfl
@[simp] theorem postWrite_power (s : State) (port fn addr : Nat) (bs : List Byte) : (postWrite s port fn addr bs).power = s.power := rfl
@[simp] theorem postWrite_boot (s : State) (port fn addr : Nat) (bs : List Byte) : (postWrite s port fn addr bs).boot = s.boot := rfl
@[simp] theorem postWrite_seed (s : State) (port fn addr : Nat) (bs : List Byte) : (postWrite s port fn addr bs).seed = s.seed := rfl
@[simp] theorem postWrite_dir (s : State) (port fn addr : Nat) (bs : List Byte) : (postWrite s port fn addr bs).dir = s.dir := rfl
@[simp] theorem postWrite_fieldBus (s : State) (port fn addr : Nat) (bs : List Byte) : (postWrite s port fn addr bs).fieldBus = s.fieldBus := rfl
@[simp] theorem postWrite_und (s : State) (port fn addr : Nat) (bs : List Byte) : (postWrite s port fn addr bs).und = s.und := rfl
@[simp] theorem postWrite_ev (s : State) (port fn addr : Nat) (bs : List Byte) : (postWrite s port fn addr bs).ev = s.ev := rfl
@[simp] theorem postWrite_time (s : State) (port fn addr : Nat) (bs : List Byte) : (postWrite s port fn addr bs).time = s.time := rfl
@[simp] theorem postWrite_groves (s : State) (port fn addr : Nat) (bs : List Byte) : (postWrite s port fn addr bs).groves = s.groves := rfl
@[simp] theorem postWrite_fb (s : State) (port fn addr : Nat) (bs : List Byte) : (postWrite s port fn addr bs).fb = s.fb := rfl
@[simp] theorem postWrite_trail (s : State) (port fn addr : Nat) (bs : List Byte) : (postWrite s port fn addr bs).trail = s.trail := rfl
@[simp] theorem postWrite_stands (s : State) (port fn addr : Nat) (bs : List Byte) : (postWrite s port fn addr bs).stands = s.stands := rfl
@[simp] theorem postWrite_thk (s : State) (port fn addr : Nat) (bs : List Byte) : (postWrite s port fn addr bs).thk = s.thk := rfl
@[simp] theorem postWrite_rows (s : State) (port fn addr : Nat) (bs : List Byte) : (postWrite s port fn addr bs).rows = s.rows := rfl
@[simp] theorem postWrite_mem (s : State) (port fn addr : Nat) (bs : List Byte) : (postWrite s port fn addr bs).mem = s.mem := rfl
@[simp] theorem postWrite_canopy (s : State) (port fn addr : Nat) (bs : List Byte) : (postWrite s port fn addr bs).canopy = s.canopy := rfl
@[simp] theorem postWrite_ports (s : State) (port fn addr : Nat) (bs : List Byte) : (postWrite s port fn addr bs).ports = s.ports := rfl
@[simp] theorem postWrite_fab (s : State) (port fn addr : Nat) (bs : List Byte) : (postWrite s port fn addr bs).fab = s.fab := rfl
@[simp] theorem postWrite_look (s : State) (port fn addr : Nat) (bs : List Byte) : (postWrite s port fn addr bs).look = s.look := rfl
@[simp] theorem postWrite_root (s : State) (port fn addr : Nat) (bs : List Byte) : (postWrite s port fn addr bs).root = s.root := rfl
@[simp] theorem postWrite_gr (s : State) (port fn addr : Nat) (bs : List Byte) : (postWrite s port fn addr bs).gr = s.gr := rfl
@[simp] theorem postWrite_trk (s : State) (port fn addr : Nat) (bs : List Byte) : (postWrite s port fn addr bs).trk = s.trk := rfl
@[simp] theorem postWrite_pcie (s : State) (port fn addr : Nat) (bs : List Byte) : (postWrite s port fn addr bs).pcie = s.pcie := rfl
@[simp] theorem postWrite_asleep (s : State) (port fn addr : Nat) (bs : List Byte) : (postWrite s port fn addr bs).asleep = s.asleep := rfl
@[simp] theorem postWrite_free (s : State) (port fn addr : Nat) (bs : List Byte) : (postWrite s port fn addr bs).free = s.free := rfl
@[simp] theorem postWrite_pending (s : State) (port fn addr : Nat) (bs : List Byte) : (postWrite s port fn addr bs).pending = s.pending := rfl

@[simp] theorem setCapStep_fuses (s : State) (v : Nat) : (setCapStep s v).fuses = s.fuses := by unfold setCapStep; dsimp only; (repeat' split) <;> simp
@[simp] theorem setCapStep_pins (s : State) (v : Nat) : (setCapStep s v).pins = s.pins := by unfold setCapStep; dsimp only; (repeat' split) <;> simp
@[simp] theorem setCapStep_boot (s : State) (v : Nat) : (setCapStep s v).boot = s.boot := by unfold setCapStep; dsimp only; (repeat' split) <;> simp
@[simp] theorem setCapStep_seed (s : State) (v : Nat) : (setCapStep s v).seed = s.seed := by unfold setCapStep; dsimp only; (repeat' split) <;> simp
@[simp] theorem setCapStep_dir (s : State) (v : Nat) : (setCapStep s v).dir = s.dir := by unfold setCapStep; dsimp only; (repeat' split) <;> simp
@[simp] theorem setCapStep_fieldBus (s : State) (v : Nat) : (setCapStep s v).fieldBus = s.fieldBus := by unfold setCapStep; dsimp only; (repeat' split) <;> simp
@[simp] theorem setCapStep_und (s : State) (v : Nat) : (setCapStep s v).und = s.und := by unfold setCapStep; dsimp only; (repeat' split) <;> simp
@[simp] theorem setCapStep_time (s : State) (v : Nat) : (setCapStep s v).time = s.time := by unfold setCapStep; dsimp only; (repeat' split) <;> simp
@[simp] theorem setCapStep_groves (s : State) (v : Nat) : (setCapStep s v).groves = s.groves := by unfold setCapStep; dsimp only; (repeat' split) <;> simp
@[simp] theorem setCapStep_fb (s : State) (v : Nat) : (setCapStep s v).fb = s.fb := by unfold setCapStep; dsimp only; (repeat' split) <;> simp
@[simp] theorem setCapStep_trail (s : State) (v : Nat) : (setCapStep s v).trail = s.trail := by unfold setCapStep; dsimp only; (repeat' split) <;> simp
@[simp] theorem setCapStep_stands (s : State) (v : Nat) : (setCapStep s v).stands = s.stands := by unfold setCapStep; dsimp only; (repeat' split) <;> simp
@[simp] theorem setCapStep_thk (s : State) (v : Nat) : (setCapStep s v).thk = s.thk := by unfold setCapStep; dsimp only; (repeat' split) <;> simp
@[simp] theorem setCapStep_rows (s : State) (v : Nat) : (setCapStep s v).rows = s.rows := by unfold setCapStep; dsimp only; (repeat' split) <;> simp
@[simp] theorem setCapStep_mem (s : State) (v : Nat) : (setCapStep s v).mem = s.mem := by unfold setCapStep; dsimp only; (repeat' split) <;> simp
@[simp] theorem setCapStep_canopy (s : State) (v : Nat) : (setCapStep s v).canopy = s.canopy := by unfold setCapStep; dsimp only; (repeat' split) <;> simp
@[simp] theorem setCapStep_ports (s : State) (v : Nat) : (setCapStep s v).ports = s.ports := by unfold setCapStep; dsimp only; (repeat' split) <;> simp
@[simp] theorem setCapStep_fab (s : State) (v : Nat) : (setCapStep s v).fab = s.fab := by unfold setCapStep; dsimp only; (repeat' split) <;> simp
@[simp] theorem setCapStep_look (s : State) (v : Nat) : (setCapStep s v).look = s.look := by unfold setCapStep; dsimp only; (repeat' split) <;> simp
@[simp] theorem setCapStep_root (s : State) (v : Nat) : (setCapStep s v).root = s.root := by unfold setCapStep; dsimp only; (repeat' split) <;> simp
@[simp] theorem setCapStep_gr (s : State) (v : Nat) : (setCapStep s v).gr = s.gr := by unfold setCapStep; dsimp only; (repeat' split) <;> simp
@[simp] theorem setCapStep_trk (s : State) (v : Nat) : (setCapStep s v).trk = s.trk := by unfold setCapStep; dsimp only; (repeat' split) <;> simp
@[simp] theorem setCapStep_pcie (s : State) (v : Nat) : (setCapStep s v).pcie = s.pcie := by unfold setCapStep; dsimp only; (repeat' split) <;> simp
@[simp] theorem setCapStep_asleep (s : State) (v : Nat) : (setCapStep s v).asleep = s.asleep := by unfold setCapStep; dsimp only; (repeat' split) <;> simp
@[simp] theorem setCapStep_free (s : State) (v : Nat) : (setCapStep s v).free = s.free := by unfold setCapStep; dsimp only; (repeat' split) <;> simp
@[simp] theorem setCapStep_posted (s : State) (v : Nat) : (setCapStep s v).posted = s.posted := by unfold setCapStep; dsimp only; (repeat' split) <;> simp
@[simp] theorem setCapStep_pending (s : State) (v : Nat) : (setCapStep s v).pending = s.pending := by unfold setCapStep; dsimp only; (repeat' split) <;> simp

@[simp] theorem setThermStep_fuses (s : State) (v : Nat) : (setThermStep s v).fuses = s.fuses := by unfold setThermStep; dsimp only; (repeat' split) <;> simp
@[simp] theorem setThermStep_pins (s : State) (v : Nat) : (setThermStep s v).pins = s.pins := by unfold setThermStep; dsimp only; (repeat' split) <;> simp
@[simp] theorem setThermStep_boot (s : State) (v : Nat) : (setThermStep s v).boot = s.boot := by unfold setThermStep; dsimp only; (repeat' split) <;> simp
@[simp] theorem setThermStep_seed (s : State) (v : Nat) : (setThermStep s v).seed = s.seed := by unfold setThermStep; dsimp only; (repeat' split) <;> simp
@[simp] theorem setThermStep_dir (s : State) (v : Nat) : (setThermStep s v).dir = s.dir := by unfold setThermStep; dsimp only; (repeat' split) <;> simp
@[simp] theorem setThermStep_fieldBus (s : State) (v : Nat) : (setThermStep s v).fieldBus = s.fieldBus := by unfold setThermStep; dsimp only; (repeat' split) <;> simp
@[simp] theorem setThermStep_und (s : State) (v : Nat) : (setThermStep s v).und = s.und := by unfold setThermStep; dsimp only; (repeat' split) <;> simp
@[simp] theorem setThermStep_time (s : State) (v : Nat) : (setThermStep s v).time = s.time := by unfold setThermStep; dsimp only; (repeat' split) <;> simp
@[simp] theorem setThermStep_groves (s : State) (v : Nat) : (setThermStep s v).groves = s.groves := by unfold setThermStep; dsimp only; (repeat' split) <;> simp
@[simp] theorem setThermStep_fb (s : State) (v : Nat) : (setThermStep s v).fb = s.fb := by unfold setThermStep; dsimp only; (repeat' split) <;> simp
@[simp] theorem setThermStep_trail (s : State) (v : Nat) : (setThermStep s v).trail = s.trail := by unfold setThermStep; dsimp only; (repeat' split) <;> simp
@[simp] theorem setThermStep_stands (s : State) (v : Nat) : (setThermStep s v).stands = s.stands := by unfold setThermStep; dsimp only; (repeat' split) <;> simp
@[simp] theorem setThermStep_thk (s : State) (v : Nat) : (setThermStep s v).thk = s.thk := by unfold setThermStep; dsimp only; (repeat' split) <;> simp
@[simp] theorem setThermStep_rows (s : State) (v : Nat) : (setThermStep s v).rows = s.rows := by unfold setThermStep; dsimp only; (repeat' split) <;> simp
@[simp] theorem setThermStep_mem (s : State) (v : Nat) : (setThermStep s v).mem = s.mem := by unfold setThermStep; dsimp only; (repeat' split) <;> simp
@[simp] theorem setThermStep_canopy (s : State) (v : Nat) : (setThermStep s v).canopy = s.canopy := by unfold setThermStep; dsimp only; (repeat' split) <;> simp
@[simp] theorem setThermStep_ports (s : State) (v : Nat) : (setThermStep s v).ports = s.ports := by unfold setThermStep; dsimp only; (repeat' split) <;> simp
@[simp] theorem setThermStep_fab (s : State) (v : Nat) : (setThermStep s v).fab = s.fab := by unfold setThermStep; dsimp only; (repeat' split) <;> simp
@[simp] theorem setThermStep_look (s : State) (v : Nat) : (setThermStep s v).look = s.look := by unfold setThermStep; dsimp only; (repeat' split) <;> simp
@[simp] theorem setThermStep_root (s : State) (v : Nat) : (setThermStep s v).root = s.root := by unfold setThermStep; dsimp only; (repeat' split) <;> simp
@[simp] theorem setThermStep_gr (s : State) (v : Nat) : (setThermStep s v).gr = s.gr := by unfold setThermStep; dsimp only; (repeat' split) <;> simp
@[simp] theorem setThermStep_trk (s : State) (v : Nat) : (setThermStep s v).trk = s.trk := by unfold setThermStep; dsimp only; (repeat' split) <;> simp
@[simp] theorem setThermStep_pcie (s : State) (v : Nat) : (setThermStep s v).pcie = s.pcie := by unfold setThermStep; dsimp only; (repeat' split) <;> simp
@[simp] theorem setThermStep_asleep (s : State) (v : Nat) : (setThermStep s v).asleep = s.asleep := by unfold setThermStep; dsimp only; (repeat' split) <;> simp
@[simp] theorem setThermStep_free (s : State) (v : Nat) : (setThermStep s v).free = s.free := by unfold setThermStep; dsimp only; (repeat' split) <;> simp
@[simp] theorem setThermStep_posted (s : State) (v : Nat) : (setThermStep s v).posted = s.posted := by unfold setThermStep; dsimp only; (repeat' split) <;> simp
@[simp] theorem setThermStep_pending (s : State) (v : Nat) : (setThermStep s v).pending = s.pending := by unfold setThermStep; dsimp only; (repeat' split) <;> simp

@[simp] theorem setTj_fuses (s : State) (die : Nat) (t : BitVec 16) : (setTj s die t).fuses = s.fuses := rfl
@[simp] theorem setTj_pins (s : State) (die : Nat) (t : BitVec 16) : (setTj s die t).pins = s.pins := rfl
@[simp] theorem setTj_boot (s : State) (die : Nat) (t : BitVec 16) : (setTj s die t).boot = s.boot := rfl
@[simp] theorem setTj_seed (s : State) (die : Nat) (t : BitVec 16) : (setTj s die t).seed = s.seed := rfl
@[simp] theorem setTj_dir (s : State) (die : Nat) (t : BitVec 16) : (setTj s die t).dir = s.dir := rfl
@[simp] theorem setTj_fieldBus (s : State) (die : Nat) (t : BitVec 16) : (setTj s die t).fieldBus = s.fieldBus := rfl
@[simp] theorem setTj_und (s : State) (die : Nat) (t : BitVec 16) : (setTj s die t).und = s.und := rfl
@[simp] theorem setTj_ev (s : State) (die : Nat) (t : BitVec 16) : (setTj s die t).ev = s.ev := rfl
@[simp] theorem setTj_time (s : State) (die : Nat) (t : BitVec 16) : (setTj s die t).time = s.time := rfl
@[simp] theorem setTj_groves (s : State) (die : Nat) (t : BitVec 16) : (setTj s die t).groves = s.groves := rfl
@[simp] theorem setTj_fb (s : State) (die : Nat) (t : BitVec 16) : (setTj s die t).fb = s.fb := rfl
@[simp] theorem setTj_trail (s : State) (die : Nat) (t : BitVec 16) : (setTj s die t).trail = s.trail := rfl
@[simp] theorem setTj_stands (s : State) (die : Nat) (t : BitVec 16) : (setTj s die t).stands = s.stands := rfl
@[simp] theorem setTj_thk (s : State) (die : Nat) (t : BitVec 16) : (setTj s die t).thk = s.thk := rfl
@[simp] theorem setTj_rows (s : State) (die : Nat) (t : BitVec 16) : (setTj s die t).rows = s.rows := rfl
@[simp] theorem setTj_mem (s : State) (die : Nat) (t : BitVec 16) : (setTj s die t).mem = s.mem := rfl
@[simp] theorem setTj_canopy (s : State) (die : Nat) (t : BitVec 16) : (setTj s die t).canopy = s.canopy := rfl
@[simp] theorem setTj_ports (s : State) (die : Nat) (t : BitVec 16) : (setTj s die t).ports = s.ports := rfl
@[simp] theorem setTj_fab (s : State) (die : Nat) (t : BitVec 16) : (setTj s die t).fab = s.fab := rfl
@[simp] theorem setTj_look (s : State) (die : Nat) (t : BitVec 16) : (setTj s die t).look = s.look := rfl
@[simp] theorem setTj_root (s : State) (die : Nat) (t : BitVec 16) : (setTj s die t).root = s.root := rfl
@[simp] theorem setTj_gr (s : State) (die : Nat) (t : BitVec 16) : (setTj s die t).gr = s.gr := rfl
@[simp] theorem setTj_trk (s : State) (die : Nat) (t : BitVec 16) : (setTj s die t).trk = s.trk := rfl
@[simp] theorem setTj_pcie (s : State) (die : Nat) (t : BitVec 16) : (setTj s die t).pcie = s.pcie := rfl
@[simp] theorem setTj_asleep (s : State) (die : Nat) (t : BitVec 16) : (setTj s die t).asleep = s.asleep := rfl
@[simp] theorem setTj_free (s : State) (die : Nat) (t : BitVec 16) : (setTj s die t).free = s.free := rfl
@[simp] theorem setTj_posted (s : State) (die : Nat) (t : BitVec 16) : (setTj s die t).posted = s.posted := rfl
@[simp] theorem setTj_pending (s : State) (die : Nat) (t : BitVec 16) : (setTj s die t).pending = s.pending := rfl

@[simp] theorem raiseCap_fuses (s : State) : (raiseCap s).fuses = s.fuses := by unfold raiseCap; split <;> simp
@[simp] theorem raiseCap_pins (s : State) : (raiseCap s).pins = s.pins := by unfold raiseCap; split <;> simp
@[simp] theorem raiseCap_boot (s : State) : (raiseCap s).boot = s.boot := by unfold raiseCap; split <;> simp
@[simp] theorem raiseCap_seed (s : State) : (raiseCap s).seed = s.seed := by unfold raiseCap; split <;> simp
@[simp] theorem raiseCap_dir (s : State) : (raiseCap s).dir = s.dir := by unfold raiseCap; split <;> simp
@[simp] theorem raiseCap_fieldBus (s : State) : (raiseCap s).fieldBus = s.fieldBus := by unfold raiseCap; split <;> simp
@[simp] theorem raiseCap_und (s : State) : (raiseCap s).und = s.und := by unfold raiseCap; split <;> simp
@[simp] theorem raiseCap_time (s : State) : (raiseCap s).time = s.time := by unfold raiseCap; split <;> simp
@[simp] theorem raiseCap_groves (s : State) : (raiseCap s).groves = s.groves := by unfold raiseCap; split <;> simp
@[simp] theorem raiseCap_fb (s : State) : (raiseCap s).fb = s.fb := by unfold raiseCap; split <;> simp
@[simp] theorem raiseCap_trail (s : State) : (raiseCap s).trail = s.trail := by unfold raiseCap; split <;> simp
@[simp] theorem raiseCap_stands (s : State) : (raiseCap s).stands = s.stands := by unfold raiseCap; split <;> simp
@[simp] theorem raiseCap_thk (s : State) : (raiseCap s).thk = s.thk := by unfold raiseCap; split <;> simp
@[simp] theorem raiseCap_rows (s : State) : (raiseCap s).rows = s.rows := by unfold raiseCap; split <;> simp
@[simp] theorem raiseCap_mem (s : State) : (raiseCap s).mem = s.mem := by unfold raiseCap; split <;> simp
@[simp] theorem raiseCap_canopy (s : State) : (raiseCap s).canopy = s.canopy := by unfold raiseCap; split <;> simp
@[simp] theorem raiseCap_ports (s : State) : (raiseCap s).ports = s.ports := by unfold raiseCap; split <;> simp
@[simp] theorem raiseCap_fab (s : State) : (raiseCap s).fab = s.fab := by unfold raiseCap; split <;> simp
@[simp] theorem raiseCap_look (s : State) : (raiseCap s).look = s.look := by unfold raiseCap; split <;> simp
@[simp] theorem raiseCap_root (s : State) : (raiseCap s).root = s.root := by unfold raiseCap; split <;> simp
@[simp] theorem raiseCap_gr (s : State) : (raiseCap s).gr = s.gr := by unfold raiseCap; split <;> simp
@[simp] theorem raiseCap_trk (s : State) : (raiseCap s).trk = s.trk := by unfold raiseCap; split <;> simp
@[simp] theorem raiseCap_pcie (s : State) : (raiseCap s).pcie = s.pcie := by unfold raiseCap; split <;> simp
@[simp] theorem raiseCap_asleep (s : State) : (raiseCap s).asleep = s.asleep := by unfold raiseCap; split <;> simp
@[simp] theorem raiseCap_free (s : State) : (raiseCap s).free = s.free := by unfold raiseCap; split <;> simp
@[simp] theorem raiseCap_posted (s : State) : (raiseCap s).posted = s.posted := by unfold raiseCap; split <;> simp
@[simp] theorem raiseCap_pending (s : State) : (raiseCap s).pending = s.pending := by unfold raiseCap; split <;> simp

@[simp] theorem wake_fuses (s : State) (cause : Nat) : (wake s cause).fuses = s.fuses := by unfold wake; dsimp only; (repeat' split) <;> rfl
@[simp] theorem wake_pins (s : State) (cause : Nat) : (wake s cause).pins = s.pins := by unfold wake; dsimp only; (repeat' split) <;> rfl
@[simp] theorem wake_boot (s : State) (cause : Nat) : (wake s cause).boot = s.boot := by unfold wake; dsimp only; (repeat' split) <;> rfl
@[simp] theorem wake_seed (s : State) (cause : Nat) : (wake s cause).seed = s.seed := by unfold wake; dsimp only; (repeat' split) <;> rfl
@[simp] theorem wake_dir (s : State) (cause : Nat) : (wake s cause).dir = s.dir := by unfold wake; dsimp only; (repeat' split) <;> rfl
@[simp] theorem wake_fieldBus (s : State) (cause : Nat) : (wake s cause).fieldBus = s.fieldBus := by unfold wake; dsimp only; (repeat' split) <;> rfl
@[simp] theorem wake_und (s : State) (cause : Nat) : (wake s cause).und = s.und := by unfold wake; dsimp only; (repeat' split) <;> rfl
@[simp] theorem wake_ev (s : State) (cause : Nat) : (wake s cause).ev = s.ev := by unfold wake; dsimp only; (repeat' split) <;> rfl
@[simp] theorem wake_time (s : State) (cause : Nat) : (wake s cause).time = s.time := by unfold wake; dsimp only; (repeat' split) <;> rfl
@[simp] theorem wake_groves (s : State) (cause : Nat) : (wake s cause).groves = s.groves := by unfold wake; dsimp only; (repeat' split) <;> rfl
@[simp] theorem wake_fb (s : State) (cause : Nat) : (wake s cause).fb = s.fb := by unfold wake; dsimp only; (repeat' split) <;> rfl
@[simp] theorem wake_trail (s : State) (cause : Nat) : (wake s cause).trail = s.trail := by unfold wake; dsimp only; (repeat' split) <;> rfl
@[simp] theorem wake_stands (s : State) (cause : Nat) : (wake s cause).stands = s.stands := by unfold wake; dsimp only; (repeat' split) <;> rfl
@[simp] theorem wake_thk (s : State) (cause : Nat) : (wake s cause).thk = s.thk := by unfold wake; dsimp only; (repeat' split) <;> rfl
@[simp] theorem wake_rows (s : State) (cause : Nat) : (wake s cause).rows = s.rows := by unfold wake; dsimp only; (repeat' split) <;> rfl
@[simp] theorem wake_mem (s : State) (cause : Nat) : (wake s cause).mem = s.mem := by unfold wake; dsimp only; (repeat' split) <;> rfl
@[simp] theorem wake_canopy (s : State) (cause : Nat) : (wake s cause).canopy = s.canopy := by unfold wake; dsimp only; (repeat' split) <;> rfl
@[simp] theorem wake_fab (s : State) (cause : Nat) : (wake s cause).fab = s.fab := by unfold wake; dsimp only; (repeat' split) <;> rfl
@[simp] theorem wake_look (s : State) (cause : Nat) : (wake s cause).look = s.look := by unfold wake; dsimp only; (repeat' split) <;> rfl
@[simp] theorem wake_root (s : State) (cause : Nat) : (wake s cause).root = s.root := by unfold wake; dsimp only; (repeat' split) <;> rfl
@[simp] theorem wake_gr (s : State) (cause : Nat) : (wake s cause).gr = s.gr := by unfold wake; dsimp only; (repeat' split) <;> rfl
@[simp] theorem wake_trk (s : State) (cause : Nat) : (wake s cause).trk = s.trk := by unfold wake; dsimp only; (repeat' split) <;> rfl
@[simp] theorem wake_pcie (s : State) (cause : Nat) : (wake s cause).pcie = s.pcie := by unfold wake; dsimp only; (repeat' split) <;> rfl
@[simp] theorem wake_asleep (s : State) (cause : Nat) : (wake s cause).asleep = s.asleep := by unfold wake; dsimp only; (repeat' split) <;> rfl
@[simp] theorem wake_free (s : State) (cause : Nat) : (wake s cause).free = s.free := by unfold wake; dsimp only; (repeat' split) <;> rfl
@[simp] theorem wake_posted (s : State) (cause : Nat) : (wake s cause).posted = s.posted := by unfold wake; dsimp only; (repeat' split) <;> rfl
@[simp] theorem wake_pending (s : State) (cause : Nat) : (wake s cause).pending = s.pending := by unfold wake; dsimp only; (repeat' split) <;> rfl

@[simp] theorem workArrives_fuses (s : State) : (workArrives s).fuses = s.fuses := by unfold workArrives; split <;> simp
@[simp] theorem workArrives_pins (s : State) : (workArrives s).pins = s.pins := by unfold workArrives; split <;> simp
@[simp] theorem workArrives_boot (s : State) : (workArrives s).boot = s.boot := by unfold workArrives; split <;> simp
@[simp] theorem workArrives_seed (s : State) : (workArrives s).seed = s.seed := by unfold workArrives; split <;> simp
@[simp] theorem workArrives_dir (s : State) : (workArrives s).dir = s.dir := by unfold workArrives; split <;> simp
@[simp] theorem workArrives_fieldBus (s : State) : (workArrives s).fieldBus = s.fieldBus := by unfold workArrives; split <;> simp
@[simp] theorem workArrives_und (s : State) : (workArrives s).und = s.und := by unfold workArrives; split <;> simp
@[simp] theorem workArrives_ev (s : State) : (workArrives s).ev = s.ev := by unfold workArrives; split <;> simp
@[simp] theorem workArrives_time (s : State) : (workArrives s).time = s.time := by unfold workArrives; split <;> simp
@[simp] theorem workArrives_groves (s : State) : (workArrives s).groves = s.groves := by unfold workArrives; split <;> simp
@[simp] theorem workArrives_fb (s : State) : (workArrives s).fb = s.fb := by unfold workArrives; split <;> simp
@[simp] theorem workArrives_trail (s : State) : (workArrives s).trail = s.trail := by unfold workArrives; split <;> simp
@[simp] theorem workArrives_stands (s : State) : (workArrives s).stands = s.stands := by unfold workArrives; split <;> simp
@[simp] theorem workArrives_thk (s : State) : (workArrives s).thk = s.thk := by unfold workArrives; split <;> simp
@[simp] theorem workArrives_rows (s : State) : (workArrives s).rows = s.rows := by unfold workArrives; split <;> simp
@[simp] theorem workArrives_mem (s : State) : (workArrives s).mem = s.mem := by unfold workArrives; split <;> simp
@[simp] theorem workArrives_canopy (s : State) : (workArrives s).canopy = s.canopy := by unfold workArrives; split <;> simp
@[simp] theorem workArrives_fab (s : State) : (workArrives s).fab = s.fab := by unfold workArrives; split <;> simp
@[simp] theorem workArrives_look (s : State) : (workArrives s).look = s.look := by unfold workArrives; split <;> simp
@[simp] theorem workArrives_root (s : State) : (workArrives s).root = s.root := by unfold workArrives; split <;> simp
@[simp] theorem workArrives_gr (s : State) : (workArrives s).gr = s.gr := by unfold workArrives; split <;> simp
@[simp] theorem workArrives_trk (s : State) : (workArrives s).trk = s.trk := by unfold workArrives; split <;> simp
@[simp] theorem workArrives_pcie (s : State) : (workArrives s).pcie = s.pcie := by unfold workArrives; split <;> simp
@[simp] theorem workArrives_asleep (s : State) : (workArrives s).asleep = s.asleep := by unfold workArrives; split <;> simp
@[simp] theorem workArrives_free (s : State) : (workArrives s).free = s.free := by unfold workArrives; split <;> simp
@[simp] theorem workArrives_posted (s : State) : (workArrives s).posted = s.posted := by unfold workArrives; split <;> simp
@[simp] theorem workArrives_pending (s : State) : (workArrives s).pending = s.pending := by unfold workArrives; split <;> simp

@[simp] theorem discardSession_fuses (s : State) (w : Session) : (discardSession s w).fuses = s.fuses := by unfold discardSession; dsimp only; (repeat' split) <;> rfl
@[simp] theorem discardSession_pins (s : State) (w : Session) : (discardSession s w).pins = s.pins := by unfold discardSession; dsimp only; (repeat' split) <;> rfl
@[simp] theorem discardSession_power (s : State) (w : Session) : (discardSession s w).power = s.power := by unfold discardSession; dsimp only; (repeat' split) <;> rfl
@[simp] theorem discardSession_boot (s : State) (w : Session) : (discardSession s w).boot = s.boot := by unfold discardSession; dsimp only; (repeat' split) <;> rfl
@[simp] theorem discardSession_seed (s : State) (w : Session) : (discardSession s w).seed = s.seed := by unfold discardSession; dsimp only; (repeat' split) <;> rfl
@[simp] theorem discardSession_fieldBus (s : State) (w : Session) : (discardSession s w).fieldBus = s.fieldBus := by unfold discardSession; dsimp only; (repeat' split) <;> rfl
@[simp] theorem discardSession_und (s : State) (w : Session) : (discardSession s w).und = s.und := by unfold discardSession; dsimp only; (repeat' split) <;> rfl
@[simp] theorem discardSession_ev (s : State) (w : Session) : (discardSession s w).ev = s.ev := by unfold discardSession; dsimp only; (repeat' split) <;> rfl
@[simp] theorem discardSession_time (s : State) (w : Session) : (discardSession s w).time = s.time := by unfold discardSession; dsimp only; (repeat' split) <;> rfl
@[simp] theorem discardSession_groves (s : State) (w : Session) : (discardSession s w).groves = s.groves := by unfold discardSession; dsimp only; (repeat' split) <;> rfl
@[simp] theorem discardSession_fb (s : State) (w : Session) : (discardSession s w).fb = s.fb := by unfold discardSession; dsimp only; (repeat' split) <;> rfl
@[simp] theorem discardSession_trail (s : State) (w : Session) : (discardSession s w).trail = s.trail := by unfold discardSession; dsimp only; (repeat' split) <;> rfl
@[simp] theorem discardSession_stands (s : State) (w : Session) : (discardSession s w).stands = s.stands := by unfold discardSession; dsimp only; (repeat' split) <;> rfl
@[simp] theorem discardSession_thk (s : State) (w : Session) : (discardSession s w).thk = s.thk := by unfold discardSession; dsimp only; (repeat' split) <;> rfl
@[simp] theorem discardSession_rows (s : State) (w : Session) : (discardSession s w).rows = s.rows := by unfold discardSession; dsimp only; (repeat' split) <;> rfl
@[simp] theorem discardSession_mem (s : State) (w : Session) : (discardSession s w).mem = s.mem := by unfold discardSession; dsimp only; (repeat' split) <;> rfl
@[simp] theorem discardSession_canopy (s : State) (w : Session) : (discardSession s w).canopy = s.canopy := by unfold discardSession; dsimp only; (repeat' split) <;> rfl
@[simp] theorem discardSession_ports (s : State) (w : Session) : (discardSession s w).ports = s.ports := by unfold discardSession; dsimp only; (repeat' split) <;> rfl
@[simp] theorem discardSession_fab (s : State) (w : Session) : (discardSession s w).fab = s.fab := by unfold discardSession; dsimp only; (repeat' split) <;> rfl
@[simp] theorem discardSession_look (s : State) (w : Session) : (discardSession s w).look = s.look := by unfold discardSession; dsimp only; (repeat' split) <;> rfl
@[simp] theorem discardSession_root (s : State) (w : Session) : (discardSession s w).root = s.root := by unfold discardSession; dsimp only; (repeat' split) <;> rfl
@[simp] theorem discardSession_gr (s : State) (w : Session) : (discardSession s w).gr = s.gr := by unfold discardSession; dsimp only; (repeat' split) <;> rfl
@[simp] theorem discardSession_trk (s : State) (w : Session) : (discardSession s w).trk = s.trk := by unfold discardSession; dsimp only; (repeat' split) <;> rfl
@[simp] theorem discardSession_pcie (s : State) (w : Session) : (discardSession s w).pcie = s.pcie := by unfold discardSession; dsimp only; (repeat' split) <;> rfl
@[simp] theorem discardSession_asleep (s : State) (w : Session) : (discardSession s w).asleep = s.asleep := by unfold discardSession; dsimp only; (repeat' split) <;> rfl
@[simp] theorem discardSession_free (s : State) (w : Session) : (discardSession s w).free = s.free := by unfold discardSession; dsimp only; (repeat' split) <;> rfl
@[simp] theorem discardSession_posted (s : State) (w : Session) : (discardSession s w).posted = s.posted := by unfold discardSession; dsimp only; (repeat' split) <;> rfl
@[simp] theorem discardSession_pending (s : State) (w : Session) : (discardSession s w).pending = s.pending := by unfold discardSession; dsimp only; (repeat' split) <;> rfl

@[simp] theorem discardAll_fuses (s : State) : (discardAll s).fuses = s.fuses := rfl
@[simp] theorem discardAll_pins (s : State) : (discardAll s).pins = s.pins := rfl
@[simp] theorem discardAll_power (s : State) : (discardAll s).power = s.power := rfl
@[simp] theorem discardAll_boot (s : State) : (discardAll s).boot = s.boot := rfl
@[simp] theorem discardAll_seed (s : State) : (discardAll s).seed = s.seed := rfl
@[simp] theorem discardAll_fieldBus (s : State) : (discardAll s).fieldBus = s.fieldBus := rfl
@[simp] theorem discardAll_und (s : State) : (discardAll s).und = s.und := rfl
@[simp] theorem discardAll_ev (s : State) : (discardAll s).ev = s.ev := rfl
@[simp] theorem discardAll_time (s : State) : (discardAll s).time = s.time := rfl
@[simp] theorem discardAll_groves (s : State) : (discardAll s).groves = s.groves := rfl
@[simp] theorem discardAll_fb (s : State) : (discardAll s).fb = s.fb := rfl
@[simp] theorem discardAll_trail (s : State) : (discardAll s).trail = s.trail := rfl
@[simp] theorem discardAll_stands (s : State) : (discardAll s).stands = s.stands := rfl
@[simp] theorem discardAll_thk (s : State) : (discardAll s).thk = s.thk := rfl
@[simp] theorem discardAll_rows (s : State) : (discardAll s).rows = s.rows := rfl
@[simp] theorem discardAll_mem (s : State) : (discardAll s).mem = s.mem := rfl
@[simp] theorem discardAll_canopy (s : State) : (discardAll s).canopy = s.canopy := rfl
@[simp] theorem discardAll_ports (s : State) : (discardAll s).ports = s.ports := rfl
@[simp] theorem discardAll_fab (s : State) : (discardAll s).fab = s.fab := rfl
@[simp] theorem discardAll_look (s : State) : (discardAll s).look = s.look := rfl
@[simp] theorem discardAll_root (s : State) : (discardAll s).root = s.root := rfl
@[simp] theorem discardAll_gr (s : State) : (discardAll s).gr = s.gr := rfl
@[simp] theorem discardAll_trk (s : State) : (discardAll s).trk = s.trk := rfl
@[simp] theorem discardAll_pcie (s : State) : (discardAll s).pcie = s.pcie := rfl
@[simp] theorem discardAll_asleep (s : State) : (discardAll s).asleep = s.asleep := rfl
@[simp] theorem discardAll_free (s : State) : (discardAll s).free = s.free := rfl
@[simp] theorem discardAll_posted (s : State) : (discardAll s).posted = s.posted := rfl
@[simp] theorem discardAll_pending (s : State) : (discardAll s).pending = s.pending := rfl

@[simp] theorem modWarden_fuses (s : State) (w : Nat) (f : Warden → Warden) : (modWarden s w f).fuses = s.fuses := rfl
@[simp] theorem modWarden_pins (s : State) (w : Nat) (f : Warden → Warden) : (modWarden s w f).pins = s.pins := rfl
@[simp] theorem modWarden_power (s : State) (w : Nat) (f : Warden → Warden) : (modWarden s w f).power = s.power := rfl
@[simp] theorem modWarden_boot (s : State) (w : Nat) (f : Warden → Warden) : (modWarden s w f).boot = s.boot := rfl
@[simp] theorem modWarden_seed (s : State) (w : Nat) (f : Warden → Warden) : (modWarden s w f).seed = s.seed := rfl
@[simp] theorem modWarden_dir (s : State) (w : Nat) (f : Warden → Warden) : (modWarden s w f).dir = s.dir := rfl
@[simp] theorem modWarden_fieldBus (s : State) (w : Nat) (f : Warden → Warden) : (modWarden s w f).fieldBus = s.fieldBus := rfl
@[simp] theorem modWarden_ev (s : State) (w : Nat) (f : Warden → Warden) : (modWarden s w f).ev = s.ev := rfl
@[simp] theorem modWarden_time (s : State) (w : Nat) (f : Warden → Warden) : (modWarden s w f).time = s.time := rfl
@[simp] theorem modWarden_groves (s : State) (w : Nat) (f : Warden → Warden) : (modWarden s w f).groves = s.groves := rfl
@[simp] theorem modWarden_fb (s : State) (w : Nat) (f : Warden → Warden) : (modWarden s w f).fb = s.fb := rfl
@[simp] theorem modWarden_trail (s : State) (w : Nat) (f : Warden → Warden) : (modWarden s w f).trail = s.trail := rfl
@[simp] theorem modWarden_stands (s : State) (w : Nat) (f : Warden → Warden) : (modWarden s w f).stands = s.stands := rfl
@[simp] theorem modWarden_thk (s : State) (w : Nat) (f : Warden → Warden) : (modWarden s w f).thk = s.thk := rfl
@[simp] theorem modWarden_rows (s : State) (w : Nat) (f : Warden → Warden) : (modWarden s w f).rows = s.rows := rfl
@[simp] theorem modWarden_mem (s : State) (w : Nat) (f : Warden → Warden) : (modWarden s w f).mem = s.mem := rfl
@[simp] theorem modWarden_canopy (s : State) (w : Nat) (f : Warden → Warden) : (modWarden s w f).canopy = s.canopy := rfl
@[simp] theorem modWarden_ports (s : State) (w : Nat) (f : Warden → Warden) : (modWarden s w f).ports = s.ports := rfl
@[simp] theorem modWarden_fab (s : State) (w : Nat) (f : Warden → Warden) : (modWarden s w f).fab = s.fab := rfl
@[simp] theorem modWarden_look (s : State) (w : Nat) (f : Warden → Warden) : (modWarden s w f).look = s.look := rfl
@[simp] theorem modWarden_root (s : State) (w : Nat) (f : Warden → Warden) : (modWarden s w f).root = s.root := rfl
@[simp] theorem modWarden_gr (s : State) (w : Nat) (f : Warden → Warden) : (modWarden s w f).gr = s.gr := rfl
@[simp] theorem modWarden_trk (s : State) (w : Nat) (f : Warden → Warden) : (modWarden s w f).trk = s.trk := rfl
@[simp] theorem modWarden_pcie (s : State) (w : Nat) (f : Warden → Warden) : (modWarden s w f).pcie = s.pcie := rfl
@[simp] theorem modWarden_asleep (s : State) (w : Nat) (f : Warden → Warden) : (modWarden s w f).asleep = s.asleep := rfl
@[simp] theorem modWarden_free (s : State) (w : Nat) (f : Warden → Warden) : (modWarden s w f).free = s.free := rfl
@[simp] theorem modWarden_posted (s : State) (w : Nat) (f : Warden → Warden) : (modWarden s w f).posted = s.posted := rfl
@[simp] theorem modWarden_pending (s : State) (w : Nat) (f : Warden → Warden) : (modWarden s w f).pending = s.pending := rfl

@[simp] theorem modRing_fuses (s : State) (r : Nat) (f : Ring → Ring) : (modRing s r f).fuses = s.fuses := rfl
@[simp] theorem modRing_pins (s : State) (r : Nat) (f : Ring → Ring) : (modRing s r f).pins = s.pins := rfl
@[simp] theorem modRing_power (s : State) (r : Nat) (f : Ring → Ring) : (modRing s r f).power = s.power := rfl
@[simp] theorem modRing_boot (s : State) (r : Nat) (f : Ring → Ring) : (modRing s r f).boot = s.boot := rfl
@[simp] theorem modRing_seed (s : State) (r : Nat) (f : Ring → Ring) : (modRing s r f).seed = s.seed := rfl
@[simp] theorem modRing_dir (s : State) (r : Nat) (f : Ring → Ring) : (modRing s r f).dir = s.dir := rfl
@[simp] theorem modRing_fieldBus (s : State) (r : Nat) (f : Ring → Ring) : (modRing s r f).fieldBus = s.fieldBus := rfl
@[simp] theorem modRing_und (s : State) (r : Nat) (f : Ring → Ring) : (modRing s r f).und = s.und := rfl
@[simp] theorem modRing_ev (s : State) (r : Nat) (f : Ring → Ring) : (modRing s r f).ev = s.ev := rfl
@[simp] theorem modRing_time (s : State) (r : Nat) (f : Ring → Ring) : (modRing s r f).time = s.time := rfl
@[simp] theorem modRing_groves (s : State) (r : Nat) (f : Ring → Ring) : (modRing s r f).groves = s.groves := rfl
@[simp] theorem modRing_fb (s : State) (r : Nat) (f : Ring → Ring) : (modRing s r f).fb = s.fb := rfl
@[simp] theorem modRing_stands (s : State) (r : Nat) (f : Ring → Ring) : (modRing s r f).stands = s.stands := rfl
@[simp] theorem modRing_thk (s : State) (r : Nat) (f : Ring → Ring) : (modRing s r f).thk = s.thk := rfl
@[simp] theorem modRing_rows (s : State) (r : Nat) (f : Ring → Ring) : (modRing s r f).rows = s.rows := rfl
@[simp] theorem modRing_mem (s : State) (r : Nat) (f : Ring → Ring) : (modRing s r f).mem = s.mem := rfl
@[simp] theorem modRing_canopy (s : State) (r : Nat) (f : Ring → Ring) : (modRing s r f).canopy = s.canopy := rfl
@[simp] theorem modRing_ports (s : State) (r : Nat) (f : Ring → Ring) : (modRing s r f).ports = s.ports := rfl
@[simp] theorem modRing_fab (s : State) (r : Nat) (f : Ring → Ring) : (modRing s r f).fab = s.fab := rfl
@[simp] theorem modRing_look (s : State) (r : Nat) (f : Ring → Ring) : (modRing s r f).look = s.look := rfl
@[simp] theorem modRing_root (s : State) (r : Nat) (f : Ring → Ring) : (modRing s r f).root = s.root := rfl
@[simp] theorem modRing_gr (s : State) (r : Nat) (f : Ring → Ring) : (modRing s r f).gr = s.gr := rfl
@[simp] theorem modRing_trk (s : State) (r : Nat) (f : Ring → Ring) : (modRing s r f).trk = s.trk := rfl
@[simp] theorem modRing_pcie (s : State) (r : Nat) (f : Ring → Ring) : (modRing s r f).pcie = s.pcie := rfl
@[simp] theorem modRing_asleep (s : State) (r : Nat) (f : Ring → Ring) : (modRing s r f).asleep = s.asleep := rfl
@[simp] theorem modRing_free (s : State) (r : Nat) (f : Ring → Ring) : (modRing s r f).free = s.free := rfl
@[simp] theorem modRing_posted (s : State) (r : Nat) (f : Ring → Ring) : (modRing s r f).posted = s.posted := rfl
@[simp] theorem modRing_pending (s : State) (r : Nat) (f : Ring → Ring) : (modRing s r f).pending = s.pending := rfl

@[simp] theorem setHEntry_fuses (s : State) (p i : Nat) (e : HEntry) : (setHEntry s p i e).fuses = s.fuses := rfl
@[simp] theorem setHEntry_pins (s : State) (p i : Nat) (e : HEntry) : (setHEntry s p i e).pins = s.pins := rfl
@[simp] theorem setHEntry_power (s : State) (p i : Nat) (e : HEntry) : (setHEntry s p i e).power = s.power := rfl
@[simp] theorem setHEntry_boot (s : State) (p i : Nat) (e : HEntry) : (setHEntry s p i e).boot = s.boot := rfl
@[simp] theorem setHEntry_seed (s : State) (p i : Nat) (e : HEntry) : (setHEntry s p i e).seed = s.seed := rfl
@[simp] theorem setHEntry_dir (s : State) (p i : Nat) (e : HEntry) : (setHEntry s p i e).dir = s.dir := rfl
@[simp] theorem setHEntry_fieldBus (s : State) (p i : Nat) (e : HEntry) : (setHEntry s p i e).fieldBus = s.fieldBus := rfl
@[simp] theorem setHEntry_und (s : State) (p i : Nat) (e : HEntry) : (setHEntry s p i e).und = s.und := rfl
@[simp] theorem setHEntry_ev (s : State) (p i : Nat) (e : HEntry) : (setHEntry s p i e).ev = s.ev := rfl
@[simp] theorem setHEntry_time (s : State) (p i : Nat) (e : HEntry) : (setHEntry s p i e).time = s.time := rfl
@[simp] theorem setHEntry_groves (s : State) (p i : Nat) (e : HEntry) : (setHEntry s p i e).groves = s.groves := rfl
@[simp] theorem setHEntry_fb (s : State) (p i : Nat) (e : HEntry) : (setHEntry s p i e).fb = s.fb := rfl
@[simp] theorem setHEntry_stands (s : State) (p i : Nat) (e : HEntry) : (setHEntry s p i e).stands = s.stands := rfl
@[simp] theorem setHEntry_thk (s : State) (p i : Nat) (e : HEntry) : (setHEntry s p i e).thk = s.thk := rfl
@[simp] theorem setHEntry_rows (s : State) (p i : Nat) (e : HEntry) : (setHEntry s p i e).rows = s.rows := rfl
@[simp] theorem setHEntry_mem (s : State) (p i : Nat) (e : HEntry) : (setHEntry s p i e).mem = s.mem := rfl
@[simp] theorem setHEntry_canopy (s : State) (p i : Nat) (e : HEntry) : (setHEntry s p i e).canopy = s.canopy := rfl
@[simp] theorem setHEntry_ports (s : State) (p i : Nat) (e : HEntry) : (setHEntry s p i e).ports = s.ports := rfl
@[simp] theorem setHEntry_fab (s : State) (p i : Nat) (e : HEntry) : (setHEntry s p i e).fab = s.fab := rfl
@[simp] theorem setHEntry_look (s : State) (p i : Nat) (e : HEntry) : (setHEntry s p i e).look = s.look := rfl
@[simp] theorem setHEntry_root (s : State) (p i : Nat) (e : HEntry) : (setHEntry s p i e).root = s.root := rfl
@[simp] theorem setHEntry_gr (s : State) (p i : Nat) (e : HEntry) : (setHEntry s p i e).gr = s.gr := rfl
@[simp] theorem setHEntry_trk (s : State) (p i : Nat) (e : HEntry) : (setHEntry s p i e).trk = s.trk := rfl
@[simp] theorem setHEntry_pcie (s : State) (p i : Nat) (e : HEntry) : (setHEntry s p i e).pcie = s.pcie := rfl
@[simp] theorem setHEntry_asleep (s : State) (p i : Nat) (e : HEntry) : (setHEntry s p i e).asleep = s.asleep := rfl
@[simp] theorem setHEntry_free (s : State) (p i : Nat) (e : HEntry) : (setHEntry s p i e).free = s.free := rfl
@[simp] theorem setHEntry_posted (s : State) (p i : Nat) (e : HEntry) : (setHEntry s p i e).posted = s.posted := rfl
@[simp] theorem setHEntry_pending (s : State) (p i : Nat) (e : HEntry) : (setHEntry s p i e).pending = s.pending := rfl

@[simp] theorem modCmd_fuses (s : State) (r : Nat) (seq : BitVec 64) (f : Cmd → Cmd) : (modCmd s r seq f).fuses = s.fuses := rfl
@[simp] theorem modCmd_pins (s : State) (r : Nat) (seq : BitVec 64) (f : Cmd → Cmd) : (modCmd s r seq f).pins = s.pins := rfl
@[simp] theorem modCmd_power (s : State) (r : Nat) (seq : BitVec 64) (f : Cmd → Cmd) : (modCmd s r seq f).power = s.power := rfl
@[simp] theorem modCmd_boot (s : State) (r : Nat) (seq : BitVec 64) (f : Cmd → Cmd) : (modCmd s r seq f).boot = s.boot := rfl
@[simp] theorem modCmd_seed (s : State) (r : Nat) (seq : BitVec 64) (f : Cmd → Cmd) : (modCmd s r seq f).seed = s.seed := rfl
@[simp] theorem modCmd_dir (s : State) (r : Nat) (seq : BitVec 64) (f : Cmd → Cmd) : (modCmd s r seq f).dir = s.dir := rfl
@[simp] theorem modCmd_fieldBus (s : State) (r : Nat) (seq : BitVec 64) (f : Cmd → Cmd) : (modCmd s r seq f).fieldBus = s.fieldBus := rfl
@[simp] theorem modCmd_und (s : State) (r : Nat) (seq : BitVec 64) (f : Cmd → Cmd) : (modCmd s r seq f).und = s.und := rfl
@[simp] theorem modCmd_ev (s : State) (r : Nat) (seq : BitVec 64) (f : Cmd → Cmd) : (modCmd s r seq f).ev = s.ev := rfl
@[simp] theorem modCmd_time (s : State) (r : Nat) (seq : BitVec 64) (f : Cmd → Cmd) : (modCmd s r seq f).time = s.time := rfl
@[simp] theorem modCmd_groves (s : State) (r : Nat) (seq : BitVec 64) (f : Cmd → Cmd) : (modCmd s r seq f).groves = s.groves := rfl
@[simp] theorem modCmd_fb (s : State) (r : Nat) (seq : BitVec 64) (f : Cmd → Cmd) : (modCmd s r seq f).fb = s.fb := rfl
@[simp] theorem modCmd_stands (s : State) (r : Nat) (seq : BitVec 64) (f : Cmd → Cmd) : (modCmd s r seq f).stands = s.stands := rfl
@[simp] theorem modCmd_thk (s : State) (r : Nat) (seq : BitVec 64) (f : Cmd → Cmd) : (modCmd s r seq f).thk = s.thk := rfl
@[simp] theorem modCmd_rows (s : State) (r : Nat) (seq : BitVec 64) (f : Cmd → Cmd) : (modCmd s r seq f).rows = s.rows := rfl
@[simp] theorem modCmd_mem (s : State) (r : Nat) (seq : BitVec 64) (f : Cmd → Cmd) : (modCmd s r seq f).mem = s.mem := rfl
@[simp] theorem modCmd_canopy (s : State) (r : Nat) (seq : BitVec 64) (f : Cmd → Cmd) : (modCmd s r seq f).canopy = s.canopy := rfl
@[simp] theorem modCmd_ports (s : State) (r : Nat) (seq : BitVec 64) (f : Cmd → Cmd) : (modCmd s r seq f).ports = s.ports := rfl
@[simp] theorem modCmd_fab (s : State) (r : Nat) (seq : BitVec 64) (f : Cmd → Cmd) : (modCmd s r seq f).fab = s.fab := rfl
@[simp] theorem modCmd_look (s : State) (r : Nat) (seq : BitVec 64) (f : Cmd → Cmd) : (modCmd s r seq f).look = s.look := rfl
@[simp] theorem modCmd_root (s : State) (r : Nat) (seq : BitVec 64) (f : Cmd → Cmd) : (modCmd s r seq f).root = s.root := rfl
@[simp] theorem modCmd_gr (s : State) (r : Nat) (seq : BitVec 64) (f : Cmd → Cmd) : (modCmd s r seq f).gr = s.gr := rfl
@[simp] theorem modCmd_trk (s : State) (r : Nat) (seq : BitVec 64) (f : Cmd → Cmd) : (modCmd s r seq f).trk = s.trk := rfl
@[simp] theorem modCmd_pcie (s : State) (r : Nat) (seq : BitVec 64) (f : Cmd → Cmd) : (modCmd s r seq f).pcie = s.pcie := rfl
@[simp] theorem modCmd_asleep (s : State) (r : Nat) (seq : BitVec 64) (f : Cmd → Cmd) : (modCmd s r seq f).asleep = s.asleep := rfl
@[simp] theorem modCmd_free (s : State) (r : Nat) (seq : BitVec 64) (f : Cmd → Cmd) : (modCmd s r seq f).free = s.free := rfl
@[simp] theorem modCmd_posted (s : State) (r : Nat) (seq : BitVec 64) (f : Cmd → Cmd) : (modCmd s r seq f).posted = s.posted := rfl
@[simp] theorem modCmd_pending (s : State) (r : Nat) (seq : BitVec 64) (f : Cmd → Cmd) : (modCmd s r seq f).pending = s.pending := rfl

@[simp] theorem modStand_fuses (s : State) (n : Nat) (f : Stand → Stand) : (modStand s n f).fuses = s.fuses := rfl
@[simp] theorem modStand_pins (s : State) (n : Nat) (f : Stand → Stand) : (modStand s n f).pins = s.pins := rfl
@[simp] theorem modStand_power (s : State) (n : Nat) (f : Stand → Stand) : (modStand s n f).power = s.power := rfl
@[simp] theorem modStand_boot (s : State) (n : Nat) (f : Stand → Stand) : (modStand s n f).boot = s.boot := rfl
@[simp] theorem modStand_seed (s : State) (n : Nat) (f : Stand → Stand) : (modStand s n f).seed = s.seed := rfl
@[simp] theorem modStand_dir (s : State) (n : Nat) (f : Stand → Stand) : (modStand s n f).dir = s.dir := rfl
@[simp] theorem modStand_fieldBus (s : State) (n : Nat) (f : Stand → Stand) : (modStand s n f).fieldBus = s.fieldBus := rfl
@[simp] theorem modStand_und (s : State) (n : Nat) (f : Stand → Stand) : (modStand s n f).und = s.und := rfl
@[simp] theorem modStand_ev (s : State) (n : Nat) (f : Stand → Stand) : (modStand s n f).ev = s.ev := rfl
@[simp] theorem modStand_time (s : State) (n : Nat) (f : Stand → Stand) : (modStand s n f).time = s.time := rfl
@[simp] theorem modStand_groves (s : State) (n : Nat) (f : Stand → Stand) : (modStand s n f).groves = s.groves := rfl
@[simp] theorem modStand_fb (s : State) (n : Nat) (f : Stand → Stand) : (modStand s n f).fb = s.fb := rfl
@[simp] theorem modStand_trail (s : State) (n : Nat) (f : Stand → Stand) : (modStand s n f).trail = s.trail := rfl
@[simp] theorem modStand_thk (s : State) (n : Nat) (f : Stand → Stand) : (modStand s n f).thk = s.thk := rfl
@[simp] theorem modStand_rows (s : State) (n : Nat) (f : Stand → Stand) : (modStand s n f).rows = s.rows := rfl
@[simp] theorem modStand_mem (s : State) (n : Nat) (f : Stand → Stand) : (modStand s n f).mem = s.mem := rfl
@[simp] theorem modStand_canopy (s : State) (n : Nat) (f : Stand → Stand) : (modStand s n f).canopy = s.canopy := rfl
@[simp] theorem modStand_ports (s : State) (n : Nat) (f : Stand → Stand) : (modStand s n f).ports = s.ports := rfl
@[simp] theorem modStand_fab (s : State) (n : Nat) (f : Stand → Stand) : (modStand s n f).fab = s.fab := rfl
@[simp] theorem modStand_look (s : State) (n : Nat) (f : Stand → Stand) : (modStand s n f).look = s.look := rfl
@[simp] theorem modStand_root (s : State) (n : Nat) (f : Stand → Stand) : (modStand s n f).root = s.root := rfl
@[simp] theorem modStand_gr (s : State) (n : Nat) (f : Stand → Stand) : (modStand s n f).gr = s.gr := rfl
@[simp] theorem modStand_trk (s : State) (n : Nat) (f : Stand → Stand) : (modStand s n f).trk = s.trk := rfl
@[simp] theorem modStand_pcie (s : State) (n : Nat) (f : Stand → Stand) : (modStand s n f).pcie = s.pcie := rfl
@[simp] theorem modStand_asleep (s : State) (n : Nat) (f : Stand → Stand) : (modStand s n f).asleep = s.asleep := rfl
@[simp] theorem modStand_free (s : State) (n : Nat) (f : Stand → Stand) : (modStand s n f).free = s.free := rfl
@[simp] theorem modStand_posted (s : State) (n : Nat) (f : Stand → Stand) : (modStand s n f).posted = s.posted := rfl
@[simp] theorem modStand_pending (s : State) (n : Nat) (f : Stand → Stand) : (modStand s n f).pending = s.pending := rfl

@[simp] theorem setSlot_fuses (s : State) (p m v : Nat) : (setSlot s p m v).fuses = s.fuses := rfl
@[simp] theorem setSlot_pins (s : State) (p m v : Nat) : (setSlot s p m v).pins = s.pins := rfl
@[simp] theorem setSlot_power (s : State) (p m v : Nat) : (setSlot s p m v).power = s.power := rfl
@[simp] theorem setSlot_boot (s : State) (p m v : Nat) : (setSlot s p m v).boot = s.boot := rfl
@[simp] theorem setSlot_seed (s : State) (p m v : Nat) : (setSlot s p m v).seed = s.seed := rfl
@[simp] theorem setSlot_dir (s : State) (p m v : Nat) : (setSlot s p m v).dir = s.dir := rfl
@[simp] theorem setSlot_fieldBus (s : State) (p m v : Nat) : (setSlot s p m v).fieldBus = s.fieldBus := rfl
@[simp] theorem setSlot_und (s : State) (p m v : Nat) : (setSlot s p m v).und = s.und := rfl
@[simp] theorem setSlot_ev (s : State) (p m v : Nat) : (setSlot s p m v).ev = s.ev := rfl
@[simp] theorem setSlot_time (s : State) (p m v : Nat) : (setSlot s p m v).time = s.time := rfl
@[simp] theorem setSlot_groves (s : State) (p m v : Nat) : (setSlot s p m v).groves = s.groves := rfl
@[simp] theorem setSlot_fb (s : State) (p m v : Nat) : (setSlot s p m v).fb = s.fb := rfl
@[simp] theorem setSlot_trail (s : State) (p m v : Nat) : (setSlot s p m v).trail = s.trail := rfl
@[simp] theorem setSlot_thk (s : State) (p m v : Nat) : (setSlot s p m v).thk = s.thk := rfl
@[simp] theorem setSlot_rows (s : State) (p m v : Nat) : (setSlot s p m v).rows = s.rows := rfl
@[simp] theorem setSlot_mem (s : State) (p m v : Nat) : (setSlot s p m v).mem = s.mem := rfl
@[simp] theorem setSlot_canopy (s : State) (p m v : Nat) : (setSlot s p m v).canopy = s.canopy := rfl
@[simp] theorem setSlot_ports (s : State) (p m v : Nat) : (setSlot s p m v).ports = s.ports := rfl
@[simp] theorem setSlot_fab (s : State) (p m v : Nat) : (setSlot s p m v).fab = s.fab := rfl
@[simp] theorem setSlot_look (s : State) (p m v : Nat) : (setSlot s p m v).look = s.look := rfl
@[simp] theorem setSlot_root (s : State) (p m v : Nat) : (setSlot s p m v).root = s.root := rfl
@[simp] theorem setSlot_gr (s : State) (p m v : Nat) : (setSlot s p m v).gr = s.gr := rfl
@[simp] theorem setSlot_trk (s : State) (p m v : Nat) : (setSlot s p m v).trk = s.trk := rfl
@[simp] theorem setSlot_pcie (s : State) (p m v : Nat) : (setSlot s p m v).pcie = s.pcie := rfl
@[simp] theorem setSlot_asleep (s : State) (p m v : Nat) : (setSlot s p m v).asleep = s.asleep := rfl
@[simp] theorem setSlot_free (s : State) (p m v : Nat) : (setSlot s p m v).free = s.free := rfl
@[simp] theorem setSlot_posted (s : State) (p m v : Nat) : (setSlot s p m v).posted = s.posted := rfl
@[simp] theorem setSlot_pending (s : State) (p m v : Nat) : (setSlot s p m v).pending = s.pending := rfl

@[simp] theorem modInst_fuses (s : State) (i : Nat) (f : Inst → Inst) : (modInst s i f).fuses = s.fuses := rfl
@[simp] theorem modInst_pins (s : State) (i : Nat) (f : Inst → Inst) : (modInst s i f).pins = s.pins := rfl
@[simp] theorem modInst_power (s : State) (i : Nat) (f : Inst → Inst) : (modInst s i f).power = s.power := rfl
@[simp] theorem modInst_boot (s : State) (i : Nat) (f : Inst → Inst) : (modInst s i f).boot = s.boot := rfl
@[simp] theorem modInst_seed (s : State) (i : Nat) (f : Inst → Inst) : (modInst s i f).seed = s.seed := rfl
@[simp] theorem modInst_dir (s : State) (i : Nat) (f : Inst → Inst) : (modInst s i f).dir = s.dir := rfl
@[simp] theorem modInst_fieldBus (s : State) (i : Nat) (f : Inst → Inst) : (modInst s i f).fieldBus = s.fieldBus := rfl
@[simp] theorem modInst_und (s : State) (i : Nat) (f : Inst → Inst) : (modInst s i f).und = s.und := rfl
@[simp] theorem modInst_ev (s : State) (i : Nat) (f : Inst → Inst) : (modInst s i f).ev = s.ev := rfl
@[simp] theorem modInst_time (s : State) (i : Nat) (f : Inst → Inst) : (modInst s i f).time = s.time := rfl
@[simp] theorem modInst_groves (s : State) (i : Nat) (f : Inst → Inst) : (modInst s i f).groves = s.groves := rfl
@[simp] theorem modInst_fb (s : State) (i : Nat) (f : Inst → Inst) : (modInst s i f).fb = s.fb := rfl
@[simp] theorem modInst_trail (s : State) (i : Nat) (f : Inst → Inst) : (modInst s i f).trail = s.trail := rfl
@[simp] theorem modInst_stands (s : State) (i : Nat) (f : Inst → Inst) : (modInst s i f).stands = s.stands := rfl
@[simp] theorem modInst_thk (s : State) (i : Nat) (f : Inst → Inst) : (modInst s i f).thk = s.thk := rfl
@[simp] theorem modInst_rows (s : State) (i : Nat) (f : Inst → Inst) : (modInst s i f).rows = s.rows := rfl
@[simp] theorem modInst_mem (s : State) (i : Nat) (f : Inst → Inst) : (modInst s i f).mem = s.mem := rfl
@[simp] theorem modInst_canopy (s : State) (i : Nat) (f : Inst → Inst) : (modInst s i f).canopy = s.canopy := rfl
@[simp] theorem modInst_ports (s : State) (i : Nat) (f : Inst → Inst) : (modInst s i f).ports = s.ports := rfl
@[simp] theorem modInst_fab (s : State) (i : Nat) (f : Inst → Inst) : (modInst s i f).fab = s.fab := rfl
@[simp] theorem modInst_look (s : State) (i : Nat) (f : Inst → Inst) : (modInst s i f).look = s.look := rfl
@[simp] theorem modInst_gr (s : State) (i : Nat) (f : Inst → Inst) : (modInst s i f).gr = s.gr := rfl
@[simp] theorem modInst_trk (s : State) (i : Nat) (f : Inst → Inst) : (modInst s i f).trk = s.trk := rfl
@[simp] theorem modInst_pcie (s : State) (i : Nat) (f : Inst → Inst) : (modInst s i f).pcie = s.pcie := rfl
@[simp] theorem modInst_asleep (s : State) (i : Nat) (f : Inst → Inst) : (modInst s i f).asleep = s.asleep := rfl
@[simp] theorem modInst_free (s : State) (i : Nat) (f : Inst → Inst) : (modInst s i f).free = s.free := rfl
@[simp] theorem modInst_posted (s : State) (i : Nat) (f : Inst → Inst) : (modInst s i f).posted = s.posted := rfl
@[simp] theorem modInst_pending (s : State) (i : Nat) (f : Inst → Inst) : (modInst s i f).pending = s.pending := rfl

@[simp] theorem modNode_fuses (s : State) (i n : Nat) (f : Node → Node) : (modNode s i n f).fuses = s.fuses := rfl
@[simp] theorem modNode_pins (s : State) (i n : Nat) (f : Node → Node) : (modNode s i n f).pins = s.pins := rfl
@[simp] theorem modNode_power (s : State) (i n : Nat) (f : Node → Node) : (modNode s i n f).power = s.power := rfl
@[simp] theorem modNode_boot (s : State) (i n : Nat) (f : Node → Node) : (modNode s i n f).boot = s.boot := rfl
@[simp] theorem modNode_seed (s : State) (i n : Nat) (f : Node → Node) : (modNode s i n f).seed = s.seed := rfl
@[simp] theorem modNode_dir (s : State) (i n : Nat) (f : Node → Node) : (modNode s i n f).dir = s.dir := rfl
@[simp] theorem modNode_fieldBus (s : State) (i n : Nat) (f : Node → Node) : (modNode s i n f).fieldBus = s.fieldBus := rfl
@[simp] theorem modNode_und (s : State) (i n : Nat) (f : Node → Node) : (modNode s i n f).und = s.und := rfl
@[simp] theorem modNode_ev (s : State) (i n : Nat) (f : Node → Node) : (modNode s i n f).ev = s.ev := rfl
@[simp] theorem modNode_time (s : State) (i n : Nat) (f : Node → Node) : (modNode s i n f).time = s.time := rfl
@[simp] theorem modNode_groves (s : State) (i n : Nat) (f : Node → Node) : (modNode s i n f).groves = s.groves := rfl
@[simp] theorem modNode_fb (s : State) (i n : Nat) (f : Node → Node) : (modNode s i n f).fb = s.fb := rfl
@[simp] theorem modNode_trail (s : State) (i n : Nat) (f : Node → Node) : (modNode s i n f).trail = s.trail := rfl
@[simp] theorem modNode_stands (s : State) (i n : Nat) (f : Node → Node) : (modNode s i n f).stands = s.stands := rfl
@[simp] theorem modNode_thk (s : State) (i n : Nat) (f : Node → Node) : (modNode s i n f).thk = s.thk := rfl
@[simp] theorem modNode_rows (s : State) (i n : Nat) (f : Node → Node) : (modNode s i n f).rows = s.rows := rfl
@[simp] theorem modNode_mem (s : State) (i n : Nat) (f : Node → Node) : (modNode s i n f).mem = s.mem := rfl
@[simp] theorem modNode_canopy (s : State) (i n : Nat) (f : Node → Node) : (modNode s i n f).canopy = s.canopy := rfl
@[simp] theorem modNode_ports (s : State) (i n : Nat) (f : Node → Node) : (modNode s i n f).ports = s.ports := rfl
@[simp] theorem modNode_fab (s : State) (i n : Nat) (f : Node → Node) : (modNode s i n f).fab = s.fab := rfl
@[simp] theorem modNode_look (s : State) (i n : Nat) (f : Node → Node) : (modNode s i n f).look = s.look := rfl
@[simp] theorem modNode_gr (s : State) (i n : Nat) (f : Node → Node) : (modNode s i n f).gr = s.gr := rfl
@[simp] theorem modNode_trk (s : State) (i n : Nat) (f : Node → Node) : (modNode s i n f).trk = s.trk := rfl
@[simp] theorem modNode_pcie (s : State) (i n : Nat) (f : Node → Node) : (modNode s i n f).pcie = s.pcie := rfl
@[simp] theorem modNode_asleep (s : State) (i n : Nat) (f : Node → Node) : (modNode s i n f).asleep = s.asleep := rfl
@[simp] theorem modNode_free (s : State) (i n : Nat) (f : Node → Node) : (modNode s i n f).free = s.free := rfl
@[simp] theorem modNode_posted (s : State) (i n : Nat) (f : Node → Node) : (modNode s i n f).posted = s.posted := rfl
@[simp] theorem modNode_pending (s : State) (i n : Nat) (f : Node → Node) : (modNode s i n f).pending = s.pending := rfl

@[simp] theorem modFiring_fuses (s : State) (i n k : Nat) (f : Firing → Firing) : (modFiring s i n k f).fuses = s.fuses := rfl
@[simp] theorem modFiring_pins (s : State) (i n k : Nat) (f : Firing → Firing) : (modFiring s i n k f).pins = s.pins := rfl
@[simp] theorem modFiring_power (s : State) (i n k : Nat) (f : Firing → Firing) : (modFiring s i n k f).power = s.power := rfl
@[simp] theorem modFiring_boot (s : State) (i n k : Nat) (f : Firing → Firing) : (modFiring s i n k f).boot = s.boot := rfl
@[simp] theorem modFiring_seed (s : State) (i n k : Nat) (f : Firing → Firing) : (modFiring s i n k f).seed = s.seed := rfl
@[simp] theorem modFiring_dir (s : State) (i n k : Nat) (f : Firing → Firing) : (modFiring s i n k f).dir = s.dir := rfl
@[simp] theorem modFiring_fieldBus (s : State) (i n k : Nat) (f : Firing → Firing) : (modFiring s i n k f).fieldBus = s.fieldBus := rfl
@[simp] theorem modFiring_und (s : State) (i n k : Nat) (f : Firing → Firing) : (modFiring s i n k f).und = s.und := rfl
@[simp] theorem modFiring_ev (s : State) (i n k : Nat) (f : Firing → Firing) : (modFiring s i n k f).ev = s.ev := rfl
@[simp] theorem modFiring_time (s : State) (i n k : Nat) (f : Firing → Firing) : (modFiring s i n k f).time = s.time := rfl
@[simp] theorem modFiring_groves (s : State) (i n k : Nat) (f : Firing → Firing) : (modFiring s i n k f).groves = s.groves := rfl
@[simp] theorem modFiring_fb (s : State) (i n k : Nat) (f : Firing → Firing) : (modFiring s i n k f).fb = s.fb := rfl
@[simp] theorem modFiring_trail (s : State) (i n k : Nat) (f : Firing → Firing) : (modFiring s i n k f).trail = s.trail := rfl
@[simp] theorem modFiring_stands (s : State) (i n k : Nat) (f : Firing → Firing) : (modFiring s i n k f).stands = s.stands := rfl
@[simp] theorem modFiring_thk (s : State) (i n k : Nat) (f : Firing → Firing) : (modFiring s i n k f).thk = s.thk := rfl
@[simp] theorem modFiring_rows (s : State) (i n k : Nat) (f : Firing → Firing) : (modFiring s i n k f).rows = s.rows := rfl
@[simp] theorem modFiring_mem (s : State) (i n k : Nat) (f : Firing → Firing) : (modFiring s i n k f).mem = s.mem := rfl
@[simp] theorem modFiring_canopy (s : State) (i n k : Nat) (f : Firing → Firing) : (modFiring s i n k f).canopy = s.canopy := rfl
@[simp] theorem modFiring_ports (s : State) (i n k : Nat) (f : Firing → Firing) : (modFiring s i n k f).ports = s.ports := rfl
@[simp] theorem modFiring_fab (s : State) (i n k : Nat) (f : Firing → Firing) : (modFiring s i n k f).fab = s.fab := rfl
@[simp] theorem modFiring_look (s : State) (i n k : Nat) (f : Firing → Firing) : (modFiring s i n k f).look = s.look := rfl
@[simp] theorem modFiring_gr (s : State) (i n k : Nat) (f : Firing → Firing) : (modFiring s i n k f).gr = s.gr := rfl
@[simp] theorem modFiring_trk (s : State) (i n k : Nat) (f : Firing → Firing) : (modFiring s i n k f).trk = s.trk := rfl
@[simp] theorem modFiring_pcie (s : State) (i n k : Nat) (f : Firing → Firing) : (modFiring s i n k f).pcie = s.pcie := rfl
@[simp] theorem modFiring_asleep (s : State) (i n k : Nat) (f : Firing → Firing) : (modFiring s i n k f).asleep = s.asleep := rfl
@[simp] theorem modFiring_free (s : State) (i n k : Nat) (f : Firing → Firing) : (modFiring s i n k f).free = s.free := rfl
@[simp] theorem modFiring_posted (s : State) (i n k : Nat) (f : Firing → Firing) : (modFiring s i n k f).posted = s.posted := rfl
@[simp] theorem modFiring_pending (s : State) (i n k : Nat) (f : Firing → Firing) : (modFiring s i n k f).pending = s.pending := rfl

@[simp] theorem modTask_fuses (s : State) (i n k t : Nat) (f : Task → Task) : (modTask s i n k t f).fuses = s.fuses := rfl
@[simp] theorem modTask_pins (s : State) (i n k t : Nat) (f : Task → Task) : (modTask s i n k t f).pins = s.pins := rfl
@[simp] theorem modTask_power (s : State) (i n k t : Nat) (f : Task → Task) : (modTask s i n k t f).power = s.power := rfl
@[simp] theorem modTask_boot (s : State) (i n k t : Nat) (f : Task → Task) : (modTask s i n k t f).boot = s.boot := rfl
@[simp] theorem modTask_seed (s : State) (i n k t : Nat) (f : Task → Task) : (modTask s i n k t f).seed = s.seed := rfl
@[simp] theorem modTask_dir (s : State) (i n k t : Nat) (f : Task → Task) : (modTask s i n k t f).dir = s.dir := rfl
@[simp] theorem modTask_fieldBus (s : State) (i n k t : Nat) (f : Task → Task) : (modTask s i n k t f).fieldBus = s.fieldBus := rfl
@[simp] theorem modTask_und (s : State) (i n k t : Nat) (f : Task → Task) : (modTask s i n k t f).und = s.und := rfl
@[simp] theorem modTask_ev (s : State) (i n k t : Nat) (f : Task → Task) : (modTask s i n k t f).ev = s.ev := rfl
@[simp] theorem modTask_time (s : State) (i n k t : Nat) (f : Task → Task) : (modTask s i n k t f).time = s.time := rfl
@[simp] theorem modTask_groves (s : State) (i n k t : Nat) (f : Task → Task) : (modTask s i n k t f).groves = s.groves := rfl
@[simp] theorem modTask_fb (s : State) (i n k t : Nat) (f : Task → Task) : (modTask s i n k t f).fb = s.fb := rfl
@[simp] theorem modTask_trail (s : State) (i n k t : Nat) (f : Task → Task) : (modTask s i n k t f).trail = s.trail := rfl
@[simp] theorem modTask_stands (s : State) (i n k t : Nat) (f : Task → Task) : (modTask s i n k t f).stands = s.stands := rfl
@[simp] theorem modTask_thk (s : State) (i n k t : Nat) (f : Task → Task) : (modTask s i n k t f).thk = s.thk := rfl
@[simp] theorem modTask_rows (s : State) (i n k t : Nat) (f : Task → Task) : (modTask s i n k t f).rows = s.rows := rfl
@[simp] theorem modTask_mem (s : State) (i n k t : Nat) (f : Task → Task) : (modTask s i n k t f).mem = s.mem := rfl
@[simp] theorem modTask_canopy (s : State) (i n k t : Nat) (f : Task → Task) : (modTask s i n k t f).canopy = s.canopy := rfl
@[simp] theorem modTask_ports (s : State) (i n k t : Nat) (f : Task → Task) : (modTask s i n k t f).ports = s.ports := rfl
@[simp] theorem modTask_fab (s : State) (i n k t : Nat) (f : Task → Task) : (modTask s i n k t f).fab = s.fab := rfl
@[simp] theorem modTask_look (s : State) (i n k t : Nat) (f : Task → Task) : (modTask s i n k t f).look = s.look := rfl
@[simp] theorem modTask_gr (s : State) (i n k t : Nat) (f : Task → Task) : (modTask s i n k t f).gr = s.gr := rfl
@[simp] theorem modTask_trk (s : State) (i n k t : Nat) (f : Task → Task) : (modTask s i n k t f).trk = s.trk := rfl
@[simp] theorem modTask_pcie (s : State) (i n k t : Nat) (f : Task → Task) : (modTask s i n k t f).pcie = s.pcie := rfl
@[simp] theorem modTask_asleep (s : State) (i n k t : Nat) (f : Task → Task) : (modTask s i n k t f).asleep = s.asleep := rfl
@[simp] theorem modTask_free (s : State) (i n k t : Nat) (f : Task → Task) : (modTask s i n k t f).free = s.free := rfl
@[simp] theorem modTask_posted (s : State) (i n k t : Nat) (f : Task → Task) : (modTask s i n k t f).posted = s.posted := rfl
@[simp] theorem modTask_pending (s : State) (i n k t : Nat) (f : Task → Task) : (modTask s i n k t f).pending = s.pending := rfl

@[simp] theorem rwStat_fuses (s : State) (p k : Nat) : (rwStat s p k).fuses = s.fuses := rfl
@[simp] theorem rwStat_pins (s : State) (p k : Nat) : (rwStat s p k).pins = s.pins := rfl
@[simp] theorem rwStat_power (s : State) (p k : Nat) : (rwStat s p k).power = s.power := rfl
@[simp] theorem rwStat_boot (s : State) (p k : Nat) : (rwStat s p k).boot = s.boot := rfl
@[simp] theorem rwStat_seed (s : State) (p k : Nat) : (rwStat s p k).seed = s.seed := rfl
@[simp] theorem rwStat_dir (s : State) (p k : Nat) : (rwStat s p k).dir = s.dir := rfl
@[simp] theorem rwStat_fieldBus (s : State) (p k : Nat) : (rwStat s p k).fieldBus = s.fieldBus := rfl
@[simp] theorem rwStat_und (s : State) (p k : Nat) : (rwStat s p k).und = s.und := rfl
@[simp] theorem rwStat_ev (s : State) (p k : Nat) : (rwStat s p k).ev = s.ev := rfl
@[simp] theorem rwStat_time (s : State) (p k : Nat) : (rwStat s p k).time = s.time := rfl
@[simp] theorem rwStat_groves (s : State) (p k : Nat) : (rwStat s p k).groves = s.groves := rfl
@[simp] theorem rwStat_fb (s : State) (p k : Nat) : (rwStat s p k).fb = s.fb := rfl
@[simp] theorem rwStat_trail (s : State) (p k : Nat) : (rwStat s p k).trail = s.trail := rfl
@[simp] theorem rwStat_stands (s : State) (p k : Nat) : (rwStat s p k).stands = s.stands := rfl
@[simp] theorem rwStat_thk (s : State) (p k : Nat) : (rwStat s p k).thk = s.thk := rfl
@[simp] theorem rwStat_rows (s : State) (p k : Nat) : (rwStat s p k).rows = s.rows := rfl
@[simp] theorem rwStat_mem (s : State) (p k : Nat) : (rwStat s p k).mem = s.mem := rfl
@[simp] theorem rwStat_canopy (s : State) (p k : Nat) : (rwStat s p k).canopy = s.canopy := rfl
@[simp] theorem rwStat_ports (s : State) (p k : Nat) : (rwStat s p k).ports = s.ports := rfl
@[simp] theorem rwStat_fab (s : State) (p k : Nat) : (rwStat s p k).fab = s.fab := rfl
@[simp] theorem rwStat_look (s : State) (p k : Nat) : (rwStat s p k).look = s.look := rfl
@[simp] theorem rwStat_gr (s : State) (p k : Nat) : (rwStat s p k).gr = s.gr := rfl
@[simp] theorem rwStat_trk (s : State) (p k : Nat) : (rwStat s p k).trk = s.trk := rfl
@[simp] theorem rwStat_pcie (s : State) (p k : Nat) : (rwStat s p k).pcie = s.pcie := rfl
@[simp] theorem rwStat_asleep (s : State) (p k : Nat) : (rwStat s p k).asleep = s.asleep := rfl
@[simp] theorem rwStat_free (s : State) (p k : Nat) : (rwStat s p k).free = s.free := rfl
@[simp] theorem rwStat_posted (s : State) (p k : Nat) : (rwStat s p k).posted = s.posted := rfl
@[simp] theorem rwStat_pending (s : State) (p k : Nat) : (rwStat s p k).pending = s.pending := rfl

@[simp] theorem specStat_fuses (s : State) (p k n : Nat) : (specStat s p k n).fuses = s.fuses := rfl
@[simp] theorem specStat_pins (s : State) (p k n : Nat) : (specStat s p k n).pins = s.pins := rfl
@[simp] theorem specStat_power (s : State) (p k n : Nat) : (specStat s p k n).power = s.power := rfl
@[simp] theorem specStat_boot (s : State) (p k n : Nat) : (specStat s p k n).boot = s.boot := rfl
@[simp] theorem specStat_seed (s : State) (p k n : Nat) : (specStat s p k n).seed = s.seed := rfl
@[simp] theorem specStat_dir (s : State) (p k n : Nat) : (specStat s p k n).dir = s.dir := rfl
@[simp] theorem specStat_fieldBus (s : State) (p k n : Nat) : (specStat s p k n).fieldBus = s.fieldBus := rfl
@[simp] theorem specStat_und (s : State) (p k n : Nat) : (specStat s p k n).und = s.und := rfl
@[simp] theorem specStat_ev (s : State) (p k n : Nat) : (specStat s p k n).ev = s.ev := rfl
@[simp] theorem specStat_time (s : State) (p k n : Nat) : (specStat s p k n).time = s.time := rfl
@[simp] theorem specStat_groves (s : State) (p k n : Nat) : (specStat s p k n).groves = s.groves := rfl
@[simp] theorem specStat_fb (s : State) (p k n : Nat) : (specStat s p k n).fb = s.fb := rfl
@[simp] theorem specStat_trail (s : State) (p k n : Nat) : (specStat s p k n).trail = s.trail := rfl
@[simp] theorem specStat_stands (s : State) (p k n : Nat) : (specStat s p k n).stands = s.stands := rfl
@[simp] theorem specStat_thk (s : State) (p k n : Nat) : (specStat s p k n).thk = s.thk := rfl
@[simp] theorem specStat_rows (s : State) (p k n : Nat) : (specStat s p k n).rows = s.rows := rfl
@[simp] theorem specStat_mem (s : State) (p k n : Nat) : (specStat s p k n).mem = s.mem := rfl
@[simp] theorem specStat_canopy (s : State) (p k n : Nat) : (specStat s p k n).canopy = s.canopy := rfl
@[simp] theorem specStat_ports (s : State) (p k n : Nat) : (specStat s p k n).ports = s.ports := rfl
@[simp] theorem specStat_fab (s : State) (p k n : Nat) : (specStat s p k n).fab = s.fab := rfl
@[simp] theorem specStat_look (s : State) (p k n : Nat) : (specStat s p k n).look = s.look := rfl
@[simp] theorem specStat_root (s : State) (p k n : Nat) : (specStat s p k n).root = s.root := rfl
@[simp] theorem specStat_trk (s : State) (p k n : Nat) : (specStat s p k n).trk = s.trk := rfl
@[simp] theorem specStat_pcie (s : State) (p k n : Nat) : (specStat s p k n).pcie = s.pcie := rfl
@[simp] theorem specStat_asleep (s : State) (p k n : Nat) : (specStat s p k n).asleep = s.asleep := rfl
@[simp] theorem specStat_free (s : State) (p k n : Nat) : (specStat s p k n).free = s.free := rfl
@[simp] theorem specStat_posted (s : State) (p k n : Nat) : (specStat s p k n).posted = s.posted := rfl
@[simp] theorem specStat_pending (s : State) (p k n : Nat) : (specStat s p k n).pending = s.pending := rfl

@[simp] theorem fbStat_fuses (s : State) (p k n : Nat) : (fbStat s p k n).fuses = s.fuses := rfl
@[simp] theorem fbStat_pins (s : State) (p k n : Nat) : (fbStat s p k n).pins = s.pins := rfl
@[simp] theorem fbStat_power (s : State) (p k n : Nat) : (fbStat s p k n).power = s.power := rfl
@[simp] theorem fbStat_boot (s : State) (p k n : Nat) : (fbStat s p k n).boot = s.boot := rfl
@[simp] theorem fbStat_seed (s : State) (p k n : Nat) : (fbStat s p k n).seed = s.seed := rfl
@[simp] theorem fbStat_dir (s : State) (p k n : Nat) : (fbStat s p k n).dir = s.dir := rfl
@[simp] theorem fbStat_fieldBus (s : State) (p k n : Nat) : (fbStat s p k n).fieldBus = s.fieldBus := rfl
@[simp] theorem fbStat_und (s : State) (p k n : Nat) : (fbStat s p k n).und = s.und := rfl
@[simp] theorem fbStat_ev (s : State) (p k n : Nat) : (fbStat s p k n).ev = s.ev := rfl
@[simp] theorem fbStat_time (s : State) (p k n : Nat) : (fbStat s p k n).time = s.time := rfl
@[simp] theorem fbStat_groves (s : State) (p k n : Nat) : (fbStat s p k n).groves = s.groves := rfl
@[simp] theorem fbStat_trail (s : State) (p k n : Nat) : (fbStat s p k n).trail = s.trail := rfl
@[simp] theorem fbStat_stands (s : State) (p k n : Nat) : (fbStat s p k n).stands = s.stands := rfl
@[simp] theorem fbStat_thk (s : State) (p k n : Nat) : (fbStat s p k n).thk = s.thk := rfl
@[simp] theorem fbStat_rows (s : State) (p k n : Nat) : (fbStat s p k n).rows = s.rows := rfl
@[simp] theorem fbStat_mem (s : State) (p k n : Nat) : (fbStat s p k n).mem = s.mem := rfl
@[simp] theorem fbStat_canopy (s : State) (p k n : Nat) : (fbStat s p k n).canopy = s.canopy := rfl
@[simp] theorem fbStat_ports (s : State) (p k n : Nat) : (fbStat s p k n).ports = s.ports := rfl
@[simp] theorem fbStat_fab (s : State) (p k n : Nat) : (fbStat s p k n).fab = s.fab := rfl
@[simp] theorem fbStat_look (s : State) (p k n : Nat) : (fbStat s p k n).look = s.look := rfl
@[simp] theorem fbStat_root (s : State) (p k n : Nat) : (fbStat s p k n).root = s.root := rfl
@[simp] theorem fbStat_gr (s : State) (p k n : Nat) : (fbStat s p k n).gr = s.gr := rfl
@[simp] theorem fbStat_trk (s : State) (p k n : Nat) : (fbStat s p k n).trk = s.trk := rfl
@[simp] theorem fbStat_pcie (s : State) (p k n : Nat) : (fbStat s p k n).pcie = s.pcie := rfl
@[simp] theorem fbStat_asleep (s : State) (p k n : Nat) : (fbStat s p k n).asleep = s.asleep := rfl
@[simp] theorem fbStat_free (s : State) (p k n : Nat) : (fbStat s p k n).free = s.free := rfl
@[simp] theorem fbStat_posted (s : State) (p k n : Nat) : (fbStat s p k n).posted = s.posted := rfl
@[simp] theorem fbStat_pending (s : State) (p k n : Nat) : (fbStat s p k n).pending = s.pending := rfl

@[simp] theorem setGQueue_fuses (s : State) (g : Nat) (l : List QTask) : (setGQueue s g l).fuses = s.fuses := rfl
@[simp] theorem setGQueue_pins (s : State) (g : Nat) (l : List QTask) : (setGQueue s g l).pins = s.pins := rfl
@[simp] theorem setGQueue_power (s : State) (g : Nat) (l : List QTask) : (setGQueue s g l).power = s.power := rfl
@[simp] theorem setGQueue_boot (s : State) (g : Nat) (l : List QTask) : (setGQueue s g l).boot = s.boot := rfl
@[simp] theorem setGQueue_seed (s : State) (g : Nat) (l : List QTask) : (setGQueue s g l).seed = s.seed := rfl
@[simp] theorem setGQueue_dir (s : State) (g : Nat) (l : List QTask) : (setGQueue s g l).dir = s.dir := rfl
@[simp] theorem setGQueue_fieldBus (s : State) (g : Nat) (l : List QTask) : (setGQueue s g l).fieldBus = s.fieldBus := rfl
@[simp] theorem setGQueue_und (s : State) (g : Nat) (l : List QTask) : (setGQueue s g l).und = s.und := rfl
@[simp] theorem setGQueue_ev (s : State) (g : Nat) (l : List QTask) : (setGQueue s g l).ev = s.ev := rfl
@[simp] theorem setGQueue_time (s : State) (g : Nat) (l : List QTask) : (setGQueue s g l).time = s.time := rfl
@[simp] theorem setGQueue_groves (s : State) (g : Nat) (l : List QTask) : (setGQueue s g l).groves = s.groves := rfl
@[simp] theorem setGQueue_fb (s : State) (g : Nat) (l : List QTask) : (setGQueue s g l).fb = s.fb := rfl
@[simp] theorem setGQueue_trail (s : State) (g : Nat) (l : List QTask) : (setGQueue s g l).trail = s.trail := rfl
@[simp] theorem setGQueue_stands (s : State) (g : Nat) (l : List QTask) : (setGQueue s g l).stands = s.stands := rfl
@[simp] theorem setGQueue_thk (s : State) (g : Nat) (l : List QTask) : (setGQueue s g l).thk = s.thk := rfl
@[simp] theorem setGQueue_rows (s : State) (g : Nat) (l : List QTask) : (setGQueue s g l).rows = s.rows := rfl
@[simp] theorem setGQueue_mem (s : State) (g : Nat) (l : List QTask) : (setGQueue s g l).mem = s.mem := rfl
@[simp] theorem setGQueue_canopy (s : State) (g : Nat) (l : List QTask) : (setGQueue s g l).canopy = s.canopy := rfl
@[simp] theorem setGQueue_ports (s : State) (g : Nat) (l : List QTask) : (setGQueue s g l).ports = s.ports := rfl
@[simp] theorem setGQueue_fab (s : State) (g : Nat) (l : List QTask) : (setGQueue s g l).fab = s.fab := rfl
@[simp] theorem setGQueue_look (s : State) (g : Nat) (l : List QTask) : (setGQueue s g l).look = s.look := rfl
@[simp] theorem setGQueue_gr (s : State) (g : Nat) (l : List QTask) : (setGQueue s g l).gr = s.gr := rfl
@[simp] theorem setGQueue_trk (s : State) (g : Nat) (l : List QTask) : (setGQueue s g l).trk = s.trk := rfl
@[simp] theorem setGQueue_pcie (s : State) (g : Nat) (l : List QTask) : (setGQueue s g l).pcie = s.pcie := rfl
@[simp] theorem setGQueue_asleep (s : State) (g : Nat) (l : List QTask) : (setGQueue s g l).asleep = s.asleep := rfl
@[simp] theorem setGQueue_free (s : State) (g : Nat) (l : List QTask) : (setGQueue s g l).free = s.free := rfl
@[simp] theorem setGQueue_posted (s : State) (g : Nat) (l : List QTask) : (setGQueue s g l).posted = s.posted := rfl
@[simp] theorem setGQueue_pending (s : State) (g : Nat) (l : List QTask) : (setGQueue s g l).pending = s.pending := rfl

@[simp] theorem modGrove_fuses (s : State) (g : Nat) (f : Grove → Grove) : (modGrove s g f).fuses = s.fuses := rfl
@[simp] theorem modGrove_pins (s : State) (g : Nat) (f : Grove → Grove) : (modGrove s g f).pins = s.pins := rfl
@[simp] theorem modGrove_power (s : State) (g : Nat) (f : Grove → Grove) : (modGrove s g f).power = s.power := rfl
@[simp] theorem modGrove_boot (s : State) (g : Nat) (f : Grove → Grove) : (modGrove s g f).boot = s.boot := rfl
@[simp] theorem modGrove_seed (s : State) (g : Nat) (f : Grove → Grove) : (modGrove s g f).seed = s.seed := rfl
@[simp] theorem modGrove_dir (s : State) (g : Nat) (f : Grove → Grove) : (modGrove s g f).dir = s.dir := rfl
@[simp] theorem modGrove_fieldBus (s : State) (g : Nat) (f : Grove → Grove) : (modGrove s g f).fieldBus = s.fieldBus := rfl
@[simp] theorem modGrove_und (s : State) (g : Nat) (f : Grove → Grove) : (modGrove s g f).und = s.und := rfl
@[simp] theorem modGrove_ev (s : State) (g : Nat) (f : Grove → Grove) : (modGrove s g f).ev = s.ev := rfl
@[simp] theorem modGrove_time (s : State) (g : Nat) (f : Grove → Grove) : (modGrove s g f).time = s.time := rfl
@[simp] theorem modGrove_groves (s : State) (g : Nat) (f : Grove → Grove) : (modGrove s g f).groves = s.groves := rfl
@[simp] theorem modGrove_fb (s : State) (g : Nat) (f : Grove → Grove) : (modGrove s g f).fb = s.fb := rfl
@[simp] theorem modGrove_trail (s : State) (g : Nat) (f : Grove → Grove) : (modGrove s g f).trail = s.trail := rfl
@[simp] theorem modGrove_stands (s : State) (g : Nat) (f : Grove → Grove) : (modGrove s g f).stands = s.stands := rfl
@[simp] theorem modGrove_thk (s : State) (g : Nat) (f : Grove → Grove) : (modGrove s g f).thk = s.thk := rfl
@[simp] theorem modGrove_rows (s : State) (g : Nat) (f : Grove → Grove) : (modGrove s g f).rows = s.rows := rfl
@[simp] theorem modGrove_mem (s : State) (g : Nat) (f : Grove → Grove) : (modGrove s g f).mem = s.mem := rfl
@[simp] theorem modGrove_canopy (s : State) (g : Nat) (f : Grove → Grove) : (modGrove s g f).canopy = s.canopy := rfl
@[simp] theorem modGrove_ports (s : State) (g : Nat) (f : Grove → Grove) : (modGrove s g f).ports = s.ports := rfl
@[simp] theorem modGrove_fab (s : State) (g : Nat) (f : Grove → Grove) : (modGrove s g f).fab = s.fab := rfl
@[simp] theorem modGrove_look (s : State) (g : Nat) (f : Grove → Grove) : (modGrove s g f).look = s.look := rfl
@[simp] theorem modGrove_root (s : State) (g : Nat) (f : Grove → Grove) : (modGrove s g f).root = s.root := rfl
@[simp] theorem modGrove_trk (s : State) (g : Nat) (f : Grove → Grove) : (modGrove s g f).trk = s.trk := rfl
@[simp] theorem modGrove_pcie (s : State) (g : Nat) (f : Grove → Grove) : (modGrove s g f).pcie = s.pcie := rfl
@[simp] theorem modGrove_asleep (s : State) (g : Nat) (f : Grove → Grove) : (modGrove s g f).asleep = s.asleep := rfl
@[simp] theorem modGrove_free (s : State) (g : Nat) (f : Grove → Grove) : (modGrove s g f).free = s.free := rfl
@[simp] theorem modGrove_posted (s : State) (g : Nat) (f : Grove → Grove) : (modGrove s g f).posted = s.posted := rfl
@[simp] theorem modGrove_pending (s : State) (g : Nat) (f : Grove → Grove) : (modGrove s g f).pending = s.pending := rfl

@[simp] theorem modCore_fuses (s : State) (c : Nat) (f : Core → Core) : (modCore s c f).fuses = s.fuses := rfl
@[simp] theorem modCore_pins (s : State) (c : Nat) (f : Core → Core) : (modCore s c f).pins = s.pins := rfl
@[simp] theorem modCore_power (s : State) (c : Nat) (f : Core → Core) : (modCore s c f).power = s.power := rfl
@[simp] theorem modCore_boot (s : State) (c : Nat) (f : Core → Core) : (modCore s c f).boot = s.boot := rfl
@[simp] theorem modCore_seed (s : State) (c : Nat) (f : Core → Core) : (modCore s c f).seed = s.seed := rfl
@[simp] theorem modCore_dir (s : State) (c : Nat) (f : Core → Core) : (modCore s c f).dir = s.dir := rfl
@[simp] theorem modCore_fieldBus (s : State) (c : Nat) (f : Core → Core) : (modCore s c f).fieldBus = s.fieldBus := rfl
@[simp] theorem modCore_und (s : State) (c : Nat) (f : Core → Core) : (modCore s c f).und = s.und := rfl
@[simp] theorem modCore_ev (s : State) (c : Nat) (f : Core → Core) : (modCore s c f).ev = s.ev := rfl
@[simp] theorem modCore_time (s : State) (c : Nat) (f : Core → Core) : (modCore s c f).time = s.time := rfl
@[simp] theorem modCore_groves (s : State) (c : Nat) (f : Core → Core) : (modCore s c f).groves = s.groves := rfl
@[simp] theorem modCore_fb (s : State) (c : Nat) (f : Core → Core) : (modCore s c f).fb = s.fb := rfl
@[simp] theorem modCore_trail (s : State) (c : Nat) (f : Core → Core) : (modCore s c f).trail = s.trail := rfl
@[simp] theorem modCore_stands (s : State) (c : Nat) (f : Core → Core) : (modCore s c f).stands = s.stands := rfl
@[simp] theorem modCore_thk (s : State) (c : Nat) (f : Core → Core) : (modCore s c f).thk = s.thk := rfl
@[simp] theorem modCore_rows (s : State) (c : Nat) (f : Core → Core) : (modCore s c f).rows = s.rows := rfl
@[simp] theorem modCore_mem (s : State) (c : Nat) (f : Core → Core) : (modCore s c f).mem = s.mem := rfl
@[simp] theorem modCore_canopy (s : State) (c : Nat) (f : Core → Core) : (modCore s c f).canopy = s.canopy := rfl
@[simp] theorem modCore_ports (s : State) (c : Nat) (f : Core → Core) : (modCore s c f).ports = s.ports := rfl
@[simp] theorem modCore_fab (s : State) (c : Nat) (f : Core → Core) : (modCore s c f).fab = s.fab := rfl
@[simp] theorem modCore_look (s : State) (c : Nat) (f : Core → Core) : (modCore s c f).look = s.look := rfl
@[simp] theorem modCore_root (s : State) (c : Nat) (f : Core → Core) : (modCore s c f).root = s.root := rfl
@[simp] theorem modCore_trk (s : State) (c : Nat) (f : Core → Core) : (modCore s c f).trk = s.trk := rfl
@[simp] theorem modCore_pcie (s : State) (c : Nat) (f : Core → Core) : (modCore s c f).pcie = s.pcie := rfl
@[simp] theorem modCore_asleep (s : State) (c : Nat) (f : Core → Core) : (modCore s c f).asleep = s.asleep := rfl
@[simp] theorem modCore_free (s : State) (c : Nat) (f : Core → Core) : (modCore s c f).free = s.free := rfl
@[simp] theorem modCore_posted (s : State) (c : Nat) (f : Core → Core) : (modCore s c f).posted = s.posted := rfl
@[simp] theorem modCore_pending (s : State) (c : Nat) (f : Core → Core) : (modCore s c f).pending = s.pending := rfl

@[simp] theorem modPort_fuses (s : State) (p : Nat) (f : FPort → FPort) : (modPort s p f).fuses = s.fuses := rfl
@[simp] theorem modPort_pins (s : State) (p : Nat) (f : FPort → FPort) : (modPort s p f).pins = s.pins := rfl
@[simp] theorem modPort_power (s : State) (p : Nat) (f : FPort → FPort) : (modPort s p f).power = s.power := rfl
@[simp] theorem modPort_boot (s : State) (p : Nat) (f : FPort → FPort) : (modPort s p f).boot = s.boot := rfl
@[simp] theorem modPort_seed (s : State) (p : Nat) (f : FPort → FPort) : (modPort s p f).seed = s.seed := rfl
@[simp] theorem modPort_dir (s : State) (p : Nat) (f : FPort → FPort) : (modPort s p f).dir = s.dir := rfl
@[simp] theorem modPort_fieldBus (s : State) (p : Nat) (f : FPort → FPort) : (modPort s p f).fieldBus = s.fieldBus := rfl
@[simp] theorem modPort_und (s : State) (p : Nat) (f : FPort → FPort) : (modPort s p f).und = s.und := rfl
@[simp] theorem modPort_ev (s : State) (p : Nat) (f : FPort → FPort) : (modPort s p f).ev = s.ev := rfl
@[simp] theorem modPort_time (s : State) (p : Nat) (f : FPort → FPort) : (modPort s p f).time = s.time := rfl
@[simp] theorem modPort_groves (s : State) (p : Nat) (f : FPort → FPort) : (modPort s p f).groves = s.groves := rfl
@[simp] theorem modPort_fb (s : State) (p : Nat) (f : FPort → FPort) : (modPort s p f).fb = s.fb := rfl
@[simp] theorem modPort_trail (s : State) (p : Nat) (f : FPort → FPort) : (modPort s p f).trail = s.trail := rfl
@[simp] theorem modPort_stands (s : State) (p : Nat) (f : FPort → FPort) : (modPort s p f).stands = s.stands := rfl
@[simp] theorem modPort_thk (s : State) (p : Nat) (f : FPort → FPort) : (modPort s p f).thk = s.thk := rfl
@[simp] theorem modPort_rows (s : State) (p : Nat) (f : FPort → FPort) : (modPort s p f).rows = s.rows := rfl
@[simp] theorem modPort_mem (s : State) (p : Nat) (f : FPort → FPort) : (modPort s p f).mem = s.mem := rfl
@[simp] theorem modPort_canopy (s : State) (p : Nat) (f : FPort → FPort) : (modPort s p f).canopy = s.canopy := rfl
@[simp] theorem modPort_ports (s : State) (p : Nat) (f : FPort → FPort) : (modPort s p f).ports = s.ports := rfl
@[simp] theorem modPort_look (s : State) (p : Nat) (f : FPort → FPort) : (modPort s p f).look = s.look := rfl
@[simp] theorem modPort_root (s : State) (p : Nat) (f : FPort → FPort) : (modPort s p f).root = s.root := rfl
@[simp] theorem modPort_gr (s : State) (p : Nat) (f : FPort → FPort) : (modPort s p f).gr = s.gr := rfl
@[simp] theorem modPort_trk (s : State) (p : Nat) (f : FPort → FPort) : (modPort s p f).trk = s.trk := rfl
@[simp] theorem modPort_pcie (s : State) (p : Nat) (f : FPort → FPort) : (modPort s p f).pcie = s.pcie := rfl
@[simp] theorem modPort_asleep (s : State) (p : Nat) (f : FPort → FPort) : (modPort s p f).asleep = s.asleep := rfl
@[simp] theorem modPort_free (s : State) (p : Nat) (f : FPort → FPort) : (modPort s p f).free = s.free := rfl
@[simp] theorem modPort_posted (s : State) (p : Nat) (f : FPort → FPort) : (modPort s p f).posted = s.posted := rfl
@[simp] theorem modPort_pending (s : State) (p : Nat) (f : FPort → FPort) : (modPort s p f).pending = s.pending := rfl

@[simp] theorem fabStat_fuses (s : State) (k : Nat) : (fabStat s k).fuses = s.fuses := rfl
@[simp] theorem fabStat_pins (s : State) (k : Nat) : (fabStat s k).pins = s.pins := rfl
@[simp] theorem fabStat_power (s : State) (k : Nat) : (fabStat s k).power = s.power := rfl
@[simp] theorem fabStat_boot (s : State) (k : Nat) : (fabStat s k).boot = s.boot := rfl
@[simp] theorem fabStat_seed (s : State) (k : Nat) : (fabStat s k).seed = s.seed := rfl
@[simp] theorem fabStat_dir (s : State) (k : Nat) : (fabStat s k).dir = s.dir := rfl
@[simp] theorem fabStat_fieldBus (s : State) (k : Nat) : (fabStat s k).fieldBus = s.fieldBus := rfl
@[simp] theorem fabStat_und (s : State) (k : Nat) : (fabStat s k).und = s.und := rfl
@[simp] theorem fabStat_ev (s : State) (k : Nat) : (fabStat s k).ev = s.ev := rfl
@[simp] theorem fabStat_time (s : State) (k : Nat) : (fabStat s k).time = s.time := rfl
@[simp] theorem fabStat_groves (s : State) (k : Nat) : (fabStat s k).groves = s.groves := rfl
@[simp] theorem fabStat_fb (s : State) (k : Nat) : (fabStat s k).fb = s.fb := rfl
@[simp] theorem fabStat_trail (s : State) (k : Nat) : (fabStat s k).trail = s.trail := rfl
@[simp] theorem fabStat_stands (s : State) (k : Nat) : (fabStat s k).stands = s.stands := rfl
@[simp] theorem fabStat_thk (s : State) (k : Nat) : (fabStat s k).thk = s.thk := rfl
@[simp] theorem fabStat_rows (s : State) (k : Nat) : (fabStat s k).rows = s.rows := rfl
@[simp] theorem fabStat_mem (s : State) (k : Nat) : (fabStat s k).mem = s.mem := rfl
@[simp] theorem fabStat_canopy (s : State) (k : Nat) : (fabStat s k).canopy = s.canopy := rfl
@[simp] theorem fabStat_ports (s : State) (k : Nat) : (fabStat s k).ports = s.ports := rfl
@[simp] theorem fabStat_look (s : State) (k : Nat) : (fabStat s k).look = s.look := rfl
@[simp] theorem fabStat_root (s : State) (k : Nat) : (fabStat s k).root = s.root := rfl
@[simp] theorem fabStat_gr (s : State) (k : Nat) : (fabStat s k).gr = s.gr := rfl
@[simp] theorem fabStat_trk (s : State) (k : Nat) : (fabStat s k).trk = s.trk := rfl
@[simp] theorem fabStat_pcie (s : State) (k : Nat) : (fabStat s k).pcie = s.pcie := rfl
@[simp] theorem fabStat_asleep (s : State) (k : Nat) : (fabStat s k).asleep = s.asleep := rfl
@[simp] theorem fabStat_free (s : State) (k : Nat) : (fabStat s k).free = s.free := rfl
@[simp] theorem fabStat_posted (s : State) (k : Nat) : (fabStat s k).posted = s.posted := rfl
@[simp] theorem fabStat_pending (s : State) (k : Nat) : (fabStat s k).pending = s.pending := rfl

@[simp] theorem modMPort_fuses (s : State) (p : Nat) (f : MPort → MPort) : (modMPort s p f).fuses = s.fuses := rfl
@[simp] theorem modMPort_pins (s : State) (p : Nat) (f : MPort → MPort) : (modMPort s p f).pins = s.pins := rfl
@[simp] theorem modMPort_power (s : State) (p : Nat) (f : MPort → MPort) : (modMPort s p f).power = s.power := rfl
@[simp] theorem modMPort_boot (s : State) (p : Nat) (f : MPort → MPort) : (modMPort s p f).boot = s.boot := rfl
@[simp] theorem modMPort_seed (s : State) (p : Nat) (f : MPort → MPort) : (modMPort s p f).seed = s.seed := rfl
@[simp] theorem modMPort_dir (s : State) (p : Nat) (f : MPort → MPort) : (modMPort s p f).dir = s.dir := rfl
@[simp] theorem modMPort_fieldBus (s : State) (p : Nat) (f : MPort → MPort) : (modMPort s p f).fieldBus = s.fieldBus := rfl
@[simp] theorem modMPort_und (s : State) (p : Nat) (f : MPort → MPort) : (modMPort s p f).und = s.und := rfl
@[simp] theorem modMPort_ev (s : State) (p : Nat) (f : MPort → MPort) : (modMPort s p f).ev = s.ev := rfl
@[simp] theorem modMPort_time (s : State) (p : Nat) (f : MPort → MPort) : (modMPort s p f).time = s.time := rfl
@[simp] theorem modMPort_groves (s : State) (p : Nat) (f : MPort → MPort) : (modMPort s p f).groves = s.groves := rfl
@[simp] theorem modMPort_fb (s : State) (p : Nat) (f : MPort → MPort) : (modMPort s p f).fb = s.fb := rfl
@[simp] theorem modMPort_trail (s : State) (p : Nat) (f : MPort → MPort) : (modMPort s p f).trail = s.trail := rfl
@[simp] theorem modMPort_stands (s : State) (p : Nat) (f : MPort → MPort) : (modMPort s p f).stands = s.stands := rfl
@[simp] theorem modMPort_thk (s : State) (p : Nat) (f : MPort → MPort) : (modMPort s p f).thk = s.thk := rfl
@[simp] theorem modMPort_rows (s : State) (p : Nat) (f : MPort → MPort) : (modMPort s p f).rows = s.rows := rfl
@[simp] theorem modMPort_mem (s : State) (p : Nat) (f : MPort → MPort) : (modMPort s p f).mem = s.mem := rfl
@[simp] theorem modMPort_canopy (s : State) (p : Nat) (f : MPort → MPort) : (modMPort s p f).canopy = s.canopy := rfl
@[simp] theorem modMPort_fab (s : State) (p : Nat) (f : MPort → MPort) : (modMPort s p f).fab = s.fab := rfl
@[simp] theorem modMPort_look (s : State) (p : Nat) (f : MPort → MPort) : (modMPort s p f).look = s.look := rfl
@[simp] theorem modMPort_root (s : State) (p : Nat) (f : MPort → MPort) : (modMPort s p f).root = s.root := rfl
@[simp] theorem modMPort_gr (s : State) (p : Nat) (f : MPort → MPort) : (modMPort s p f).gr = s.gr := rfl
@[simp] theorem modMPort_trk (s : State) (p : Nat) (f : MPort → MPort) : (modMPort s p f).trk = s.trk := rfl
@[simp] theorem modMPort_pcie (s : State) (p : Nat) (f : MPort → MPort) : (modMPort s p f).pcie = s.pcie := rfl
@[simp] theorem modMPort_asleep (s : State) (p : Nat) (f : MPort → MPort) : (modMPort s p f).asleep = s.asleep := rfl
@[simp] theorem modMPort_free (s : State) (p : Nat) (f : MPort → MPort) : (modMPort s p f).free = s.free := rfl
@[simp] theorem modMPort_posted (s : State) (p : Nat) (f : MPort → MPort) : (modMPort s p f).posted = s.posted := rfl
@[simp] theorem modMPort_pending (s : State) (p : Nat) (f : MPort → MPort) : (modMPort s p f).pending = s.pending := rfl

@[simp] theorem modEntry_fuses (s : State) (id : Nat) (f : Staged → Staged) : (modEntry s id f).fuses = s.fuses := rfl
@[simp] theorem modEntry_pins (s : State) (id : Nat) (f : Staged → Staged) : (modEntry s id f).pins = s.pins := rfl
@[simp] theorem modEntry_power (s : State) (id : Nat) (f : Staged → Staged) : (modEntry s id f).power = s.power := rfl
@[simp] theorem modEntry_boot (s : State) (id : Nat) (f : Staged → Staged) : (modEntry s id f).boot = s.boot := rfl
@[simp] theorem modEntry_seed (s : State) (id : Nat) (f : Staged → Staged) : (modEntry s id f).seed = s.seed := rfl
@[simp] theorem modEntry_dir (s : State) (id : Nat) (f : Staged → Staged) : (modEntry s id f).dir = s.dir := rfl
@[simp] theorem modEntry_fieldBus (s : State) (id : Nat) (f : Staged → Staged) : (modEntry s id f).fieldBus = s.fieldBus := rfl
@[simp] theorem modEntry_und (s : State) (id : Nat) (f : Staged → Staged) : (modEntry s id f).und = s.und := rfl
@[simp] theorem modEntry_ev (s : State) (id : Nat) (f : Staged → Staged) : (modEntry s id f).ev = s.ev := rfl
@[simp] theorem modEntry_time (s : State) (id : Nat) (f : Staged → Staged) : (modEntry s id f).time = s.time := rfl
@[simp] theorem modEntry_groves (s : State) (id : Nat) (f : Staged → Staged) : (modEntry s id f).groves = s.groves := rfl
@[simp] theorem modEntry_fb (s : State) (id : Nat) (f : Staged → Staged) : (modEntry s id f).fb = s.fb := rfl
@[simp] theorem modEntry_trail (s : State) (id : Nat) (f : Staged → Staged) : (modEntry s id f).trail = s.trail := rfl
@[simp] theorem modEntry_stands (s : State) (id : Nat) (f : Staged → Staged) : (modEntry s id f).stands = s.stands := rfl
@[simp] theorem modEntry_thk (s : State) (id : Nat) (f : Staged → Staged) : (modEntry s id f).thk = s.thk := rfl
@[simp] theorem modEntry_mem (s : State) (id : Nat) (f : Staged → Staged) : (modEntry s id f).mem = s.mem := rfl
@[simp] theorem modEntry_canopy (s : State) (id : Nat) (f : Staged → Staged) : (modEntry s id f).canopy = s.canopy := rfl
@[simp] theorem modEntry_ports (s : State) (id : Nat) (f : Staged → Staged) : (modEntry s id f).ports = s.ports := rfl
@[simp] theorem modEntry_fab (s : State) (id : Nat) (f : Staged → Staged) : (modEntry s id f).fab = s.fab := rfl
@[simp] theorem modEntry_look (s : State) (id : Nat) (f : Staged → Staged) : (modEntry s id f).look = s.look := rfl
@[simp] theorem modEntry_root (s : State) (id : Nat) (f : Staged → Staged) : (modEntry s id f).root = s.root := rfl
@[simp] theorem modEntry_gr (s : State) (id : Nat) (f : Staged → Staged) : (modEntry s id f).gr = s.gr := rfl
@[simp] theorem modEntry_trk (s : State) (id : Nat) (f : Staged → Staged) : (modEntry s id f).trk = s.trk := rfl
@[simp] theorem modEntry_pcie (s : State) (id : Nat) (f : Staged → Staged) : (modEntry s id f).pcie = s.pcie := rfl
@[simp] theorem modEntry_asleep (s : State) (id : Nat) (f : Staged → Staged) : (modEntry s id f).asleep = s.asleep := rfl
@[simp] theorem modEntry_free (s : State) (id : Nat) (f : Staged → Staged) : (modEntry s id f).free = s.free := rfl
@[simp] theorem modEntry_posted (s : State) (id : Nat) (f : Staged → Staged) : (modEntry s id f).posted = s.posted := rfl
@[simp] theorem modEntry_pending (s : State) (id : Nat) (f : Staged → Staged) : (modEntry s id f).pending = s.pending := rfl

@[simp] theorem lrStat_fuses (s : State) (p k : Nat) : (lrStat s p k).fuses = s.fuses := rfl
@[simp] theorem lrStat_pins (s : State) (p k : Nat) : (lrStat s p k).pins = s.pins := rfl
@[simp] theorem lrStat_power (s : State) (p k : Nat) : (lrStat s p k).power = s.power := rfl
@[simp] theorem lrStat_boot (s : State) (p k : Nat) : (lrStat s p k).boot = s.boot := rfl
@[simp] theorem lrStat_seed (s : State) (p k : Nat) : (lrStat s p k).seed = s.seed := rfl
@[simp] theorem lrStat_dir (s : State) (p k : Nat) : (lrStat s p k).dir = s.dir := rfl
@[simp] theorem lrStat_fieldBus (s : State) (p k : Nat) : (lrStat s p k).fieldBus = s.fieldBus := rfl
@[simp] theorem lrStat_und (s : State) (p k : Nat) : (lrStat s p k).und = s.und := rfl
@[simp] theorem lrStat_ev (s : State) (p k : Nat) : (lrStat s p k).ev = s.ev := rfl
@[simp] theorem lrStat_time (s : State) (p k : Nat) : (lrStat s p k).time = s.time := rfl
@[simp] theorem lrStat_groves (s : State) (p k : Nat) : (lrStat s p k).groves = s.groves := rfl
@[simp] theorem lrStat_fb (s : State) (p k : Nat) : (lrStat s p k).fb = s.fb := rfl
@[simp] theorem lrStat_trail (s : State) (p k : Nat) : (lrStat s p k).trail = s.trail := rfl
@[simp] theorem lrStat_stands (s : State) (p k : Nat) : (lrStat s p k).stands = s.stands := rfl
@[simp] theorem lrStat_thk (s : State) (p k : Nat) : (lrStat s p k).thk = s.thk := rfl
@[simp] theorem lrStat_mem (s : State) (p k : Nat) : (lrStat s p k).mem = s.mem := rfl
@[simp] theorem lrStat_canopy (s : State) (p k : Nat) : (lrStat s p k).canopy = s.canopy := rfl
@[simp] theorem lrStat_ports (s : State) (p k : Nat) : (lrStat s p k).ports = s.ports := rfl
@[simp] theorem lrStat_fab (s : State) (p k : Nat) : (lrStat s p k).fab = s.fab := rfl
@[simp] theorem lrStat_look (s : State) (p k : Nat) : (lrStat s p k).look = s.look := rfl
@[simp] theorem lrStat_root (s : State) (p k : Nat) : (lrStat s p k).root = s.root := rfl
@[simp] theorem lrStat_gr (s : State) (p k : Nat) : (lrStat s p k).gr = s.gr := rfl
@[simp] theorem lrStat_trk (s : State) (p k : Nat) : (lrStat s p k).trk = s.trk := rfl
@[simp] theorem lrStat_pcie (s : State) (p k : Nat) : (lrStat s p k).pcie = s.pcie := rfl
@[simp] theorem lrStat_asleep (s : State) (p k : Nat) : (lrStat s p k).asleep = s.asleep := rfl
@[simp] theorem lrStat_free (s : State) (p k : Nat) : (lrStat s p k).free = s.free := rfl
@[simp] theorem lrStat_posted (s : State) (p k : Nat) : (lrStat s p k).posted = s.posted := rfl
@[simp] theorem lrStat_pending (s : State) (p k : Nat) : (lrStat s p k).pending = s.pending := rfl

@[simp] theorem tableStat_fuses (s : State) (p slot k n : Nat) : (tableStat s p slot k n).fuses = s.fuses := rfl
@[simp] theorem tableStat_pins (s : State) (p slot k n : Nat) : (tableStat s p slot k n).pins = s.pins := rfl
@[simp] theorem tableStat_power (s : State) (p slot k n : Nat) : (tableStat s p slot k n).power = s.power := rfl
@[simp] theorem tableStat_boot (s : State) (p slot k n : Nat) : (tableStat s p slot k n).boot = s.boot := rfl
@[simp] theorem tableStat_seed (s : State) (p slot k n : Nat) : (tableStat s p slot k n).seed = s.seed := rfl
@[simp] theorem tableStat_dir (s : State) (p slot k n : Nat) : (tableStat s p slot k n).dir = s.dir := rfl
@[simp] theorem tableStat_fieldBus (s : State) (p slot k n : Nat) : (tableStat s p slot k n).fieldBus = s.fieldBus := rfl
@[simp] theorem tableStat_und (s : State) (p slot k n : Nat) : (tableStat s p slot k n).und = s.und := rfl
@[simp] theorem tableStat_ev (s : State) (p slot k n : Nat) : (tableStat s p slot k n).ev = s.ev := rfl
@[simp] theorem tableStat_time (s : State) (p slot k n : Nat) : (tableStat s p slot k n).time = s.time := rfl
@[simp] theorem tableStat_groves (s : State) (p slot k n : Nat) : (tableStat s p slot k n).groves = s.groves := rfl
@[simp] theorem tableStat_fb (s : State) (p slot k n : Nat) : (tableStat s p slot k n).fb = s.fb := rfl
@[simp] theorem tableStat_trail (s : State) (p slot k n : Nat) : (tableStat s p slot k n).trail = s.trail := rfl
@[simp] theorem tableStat_stands (s : State) (p slot k n : Nat) : (tableStat s p slot k n).stands = s.stands := rfl
@[simp] theorem tableStat_rows (s : State) (p slot k n : Nat) : (tableStat s p slot k n).rows = s.rows := rfl
@[simp] theorem tableStat_mem (s : State) (p slot k n : Nat) : (tableStat s p slot k n).mem = s.mem := rfl
@[simp] theorem tableStat_canopy (s : State) (p slot k n : Nat) : (tableStat s p slot k n).canopy = s.canopy := rfl
@[simp] theorem tableStat_ports (s : State) (p slot k n : Nat) : (tableStat s p slot k n).ports = s.ports := rfl
@[simp] theorem tableStat_fab (s : State) (p slot k n : Nat) : (tableStat s p slot k n).fab = s.fab := rfl
@[simp] theorem tableStat_look (s : State) (p slot k n : Nat) : (tableStat s p slot k n).look = s.look := rfl
@[simp] theorem tableStat_root (s : State) (p slot k n : Nat) : (tableStat s p slot k n).root = s.root := rfl
@[simp] theorem tableStat_gr (s : State) (p slot k n : Nat) : (tableStat s p slot k n).gr = s.gr := rfl
@[simp] theorem tableStat_trk (s : State) (p slot k n : Nat) : (tableStat s p slot k n).trk = s.trk := rfl
@[simp] theorem tableStat_pcie (s : State) (p slot k n : Nat) : (tableStat s p slot k n).pcie = s.pcie := rfl
@[simp] theorem tableStat_asleep (s : State) (p slot k n : Nat) : (tableStat s p slot k n).asleep = s.asleep := rfl
@[simp] theorem tableStat_free (s : State) (p slot k n : Nat) : (tableStat s p slot k n).free = s.free := rfl
@[simp] theorem tableStat_posted (s : State) (p slot k n : Nat) : (tableStat s p slot k n).posted = s.posted := rfl
@[simp] theorem tableStat_pending (s : State) (p slot k n : Nat) : (tableStat s p slot k n).pending = s.pending := rfl

@[simp] theorem pfStat_fuses (s : State) (p k : Nat) : (pfStat s p k).fuses = s.fuses := rfl
@[simp] theorem pfStat_pins (s : State) (p k : Nat) : (pfStat s p k).pins = s.pins := rfl
@[simp] theorem pfStat_power (s : State) (p k : Nat) : (pfStat s p k).power = s.power := rfl
@[simp] theorem pfStat_boot (s : State) (p k : Nat) : (pfStat s p k).boot = s.boot := rfl
@[simp] theorem pfStat_seed (s : State) (p k : Nat) : (pfStat s p k).seed = s.seed := rfl
@[simp] theorem pfStat_dir (s : State) (p k : Nat) : (pfStat s p k).dir = s.dir := rfl
@[simp] theorem pfStat_fieldBus (s : State) (p k : Nat) : (pfStat s p k).fieldBus = s.fieldBus := rfl
@[simp] theorem pfStat_und (s : State) (p k : Nat) : (pfStat s p k).und = s.und := rfl
@[simp] theorem pfStat_ev (s : State) (p k : Nat) : (pfStat s p k).ev = s.ev := rfl
@[simp] theorem pfStat_time (s : State) (p k : Nat) : (pfStat s p k).time = s.time := rfl
@[simp] theorem pfStat_groves (s : State) (p k : Nat) : (pfStat s p k).groves = s.groves := rfl
@[simp] theorem pfStat_fb (s : State) (p k : Nat) : (pfStat s p k).fb = s.fb := rfl
@[simp] theorem pfStat_trail (s : State) (p k : Nat) : (pfStat s p k).trail = s.trail := rfl
@[simp] theorem pfStat_stands (s : State) (p k : Nat) : (pfStat s p k).stands = s.stands := rfl
@[simp] theorem pfStat_rows (s : State) (p k : Nat) : (pfStat s p k).rows = s.rows := rfl
@[simp] theorem pfStat_mem (s : State) (p k : Nat) : (pfStat s p k).mem = s.mem := rfl
@[simp] theorem pfStat_canopy (s : State) (p k : Nat) : (pfStat s p k).canopy = s.canopy := rfl
@[simp] theorem pfStat_ports (s : State) (p k : Nat) : (pfStat s p k).ports = s.ports := rfl
@[simp] theorem pfStat_fab (s : State) (p k : Nat) : (pfStat s p k).fab = s.fab := rfl
@[simp] theorem pfStat_look (s : State) (p k : Nat) : (pfStat s p k).look = s.look := rfl
@[simp] theorem pfStat_root (s : State) (p k : Nat) : (pfStat s p k).root = s.root := rfl
@[simp] theorem pfStat_gr (s : State) (p k : Nat) : (pfStat s p k).gr = s.gr := rfl
@[simp] theorem pfStat_trk (s : State) (p k : Nat) : (pfStat s p k).trk = s.trk := rfl
@[simp] theorem pfStat_pcie (s : State) (p k : Nat) : (pfStat s p k).pcie = s.pcie := rfl
@[simp] theorem pfStat_asleep (s : State) (p k : Nat) : (pfStat s p k).asleep = s.asleep := rfl
@[simp] theorem pfStat_free (s : State) (p k : Nat) : (pfStat s p k).free = s.free := rfl
@[simp] theorem pfStat_posted (s : State) (p k : Nat) : (pfStat s p k).posted = s.posted := rfl
@[simp] theorem pfStat_pending (s : State) (p k : Nat) : (pfStat s p k).pending = s.pending := rfl

@[simp] theorem modEngine_fuses (s : State) (e : Nat) (f : ThkEngine → ThkEngine) : (modEngine s e f).fuses = s.fuses := rfl
@[simp] theorem modEngine_pins (s : State) (e : Nat) (f : ThkEngine → ThkEngine) : (modEngine s e f).pins = s.pins := rfl
@[simp] theorem modEngine_power (s : State) (e : Nat) (f : ThkEngine → ThkEngine) : (modEngine s e f).power = s.power := rfl
@[simp] theorem modEngine_boot (s : State) (e : Nat) (f : ThkEngine → ThkEngine) : (modEngine s e f).boot = s.boot := rfl
@[simp] theorem modEngine_seed (s : State) (e : Nat) (f : ThkEngine → ThkEngine) : (modEngine s e f).seed = s.seed := rfl
@[simp] theorem modEngine_dir (s : State) (e : Nat) (f : ThkEngine → ThkEngine) : (modEngine s e f).dir = s.dir := rfl
@[simp] theorem modEngine_fieldBus (s : State) (e : Nat) (f : ThkEngine → ThkEngine) : (modEngine s e f).fieldBus = s.fieldBus := rfl
@[simp] theorem modEngine_und (s : State) (e : Nat) (f : ThkEngine → ThkEngine) : (modEngine s e f).und = s.und := rfl
@[simp] theorem modEngine_ev (s : State) (e : Nat) (f : ThkEngine → ThkEngine) : (modEngine s e f).ev = s.ev := rfl
@[simp] theorem modEngine_time (s : State) (e : Nat) (f : ThkEngine → ThkEngine) : (modEngine s e f).time = s.time := rfl
@[simp] theorem modEngine_groves (s : State) (e : Nat) (f : ThkEngine → ThkEngine) : (modEngine s e f).groves = s.groves := rfl
@[simp] theorem modEngine_fb (s : State) (e : Nat) (f : ThkEngine → ThkEngine) : (modEngine s e f).fb = s.fb := rfl
@[simp] theorem modEngine_trail (s : State) (e : Nat) (f : ThkEngine → ThkEngine) : (modEngine s e f).trail = s.trail := rfl
@[simp] theorem modEngine_stands (s : State) (e : Nat) (f : ThkEngine → ThkEngine) : (modEngine s e f).stands = s.stands := rfl
@[simp] theorem modEngine_rows (s : State) (e : Nat) (f : ThkEngine → ThkEngine) : (modEngine s e f).rows = s.rows := rfl
@[simp] theorem modEngine_mem (s : State) (e : Nat) (f : ThkEngine → ThkEngine) : (modEngine s e f).mem = s.mem := rfl
@[simp] theorem modEngine_canopy (s : State) (e : Nat) (f : ThkEngine → ThkEngine) : (modEngine s e f).canopy = s.canopy := rfl
@[simp] theorem modEngine_ports (s : State) (e : Nat) (f : ThkEngine → ThkEngine) : (modEngine s e f).ports = s.ports := rfl
@[simp] theorem modEngine_fab (s : State) (e : Nat) (f : ThkEngine → ThkEngine) : (modEngine s e f).fab = s.fab := rfl
@[simp] theorem modEngine_look (s : State) (e : Nat) (f : ThkEngine → ThkEngine) : (modEngine s e f).look = s.look := rfl
@[simp] theorem modEngine_root (s : State) (e : Nat) (f : ThkEngine → ThkEngine) : (modEngine s e f).root = s.root := rfl
@[simp] theorem modEngine_gr (s : State) (e : Nat) (f : ThkEngine → ThkEngine) : (modEngine s e f).gr = s.gr := rfl
@[simp] theorem modEngine_trk (s : State) (e : Nat) (f : ThkEngine → ThkEngine) : (modEngine s e f).trk = s.trk := rfl
@[simp] theorem modEngine_pcie (s : State) (e : Nat) (f : ThkEngine → ThkEngine) : (modEngine s e f).pcie = s.pcie := rfl
@[simp] theorem modEngine_asleep (s : State) (e : Nat) (f : ThkEngine → ThkEngine) : (modEngine s e f).asleep = s.asleep := rfl
@[simp] theorem modEngine_free (s : State) (e : Nat) (f : ThkEngine → ThkEngine) : (modEngine s e f).free = s.free := rfl
@[simp] theorem modEngine_posted (s : State) (e : Nat) (f : ThkEngine → ThkEngine) : (modEngine s e f).posted = s.posted := rfl
@[simp] theorem modEngine_pending (s : State) (e : Nat) (f : ThkEngine → ThkEngine) : (modEngine s e f).pending = s.pending := rfl

@[simp] theorem setCopy_fuses (s : State) (g line : Nat) (c : GCopy) : (setCopy s g line c).fuses = s.fuses := rfl
@[simp] theorem setCopy_pins (s : State) (g line : Nat) (c : GCopy) : (setCopy s g line c).pins = s.pins := rfl
@[simp] theorem setCopy_power (s : State) (g line : Nat) (c : GCopy) : (setCopy s g line c).power = s.power := rfl
@[simp] theorem setCopy_boot (s : State) (g line : Nat) (c : GCopy) : (setCopy s g line c).boot = s.boot := rfl
@[simp] theorem setCopy_seed (s : State) (g line : Nat) (c : GCopy) : (setCopy s g line c).seed = s.seed := rfl
@[simp] theorem setCopy_dir (s : State) (g line : Nat) (c : GCopy) : (setCopy s g line c).dir = s.dir := rfl
@[simp] theorem setCopy_fieldBus (s : State) (g line : Nat) (c : GCopy) : (setCopy s g line c).fieldBus = s.fieldBus := rfl
@[simp] theorem setCopy_und (s : State) (g line : Nat) (c : GCopy) : (setCopy s g line c).und = s.und := rfl
@[simp] theorem setCopy_ev (s : State) (g line : Nat) (c : GCopy) : (setCopy s g line c).ev = s.ev := rfl
@[simp] theorem setCopy_time (s : State) (g line : Nat) (c : GCopy) : (setCopy s g line c).time = s.time := rfl
@[simp] theorem setCopy_groves (s : State) (g line : Nat) (c : GCopy) : (setCopy s g line c).groves = s.groves := rfl
@[simp] theorem setCopy_fb (s : State) (g line : Nat) (c : GCopy) : (setCopy s g line c).fb = s.fb := rfl
@[simp] theorem setCopy_trail (s : State) (g line : Nat) (c : GCopy) : (setCopy s g line c).trail = s.trail := rfl
@[simp] theorem setCopy_stands (s : State) (g line : Nat) (c : GCopy) : (setCopy s g line c).stands = s.stands := rfl
@[simp] theorem setCopy_thk (s : State) (g line : Nat) (c : GCopy) : (setCopy s g line c).thk = s.thk := rfl
@[simp] theorem setCopy_rows (s : State) (g line : Nat) (c : GCopy) : (setCopy s g line c).rows = s.rows := rfl
@[simp] theorem setCopy_mem (s : State) (g line : Nat) (c : GCopy) : (setCopy s g line c).mem = s.mem := rfl
@[simp] theorem setCopy_ports (s : State) (g line : Nat) (c : GCopy) : (setCopy s g line c).ports = s.ports := rfl
@[simp] theorem setCopy_fab (s : State) (g line : Nat) (c : GCopy) : (setCopy s g line c).fab = s.fab := rfl
@[simp] theorem setCopy_look (s : State) (g line : Nat) (c : GCopy) : (setCopy s g line c).look = s.look := rfl
@[simp] theorem setCopy_root (s : State) (g line : Nat) (c : GCopy) : (setCopy s g line c).root = s.root := rfl
@[simp] theorem setCopy_gr (s : State) (g line : Nat) (c : GCopy) : (setCopy s g line c).gr = s.gr := rfl
@[simp] theorem setCopy_trk (s : State) (g line : Nat) (c : GCopy) : (setCopy s g line c).trk = s.trk := rfl
@[simp] theorem setCopy_pcie (s : State) (g line : Nat) (c : GCopy) : (setCopy s g line c).pcie = s.pcie := rfl
@[simp] theorem setCopy_asleep (s : State) (g line : Nat) (c : GCopy) : (setCopy s g line c).asleep = s.asleep := rfl
@[simp] theorem setCopy_free (s : State) (g line : Nat) (c : GCopy) : (setCopy s g line c).free = s.free := rfl
@[simp] theorem setCopy_posted (s : State) (g line : Nat) (c : GCopy) : (setCopy s g line c).posted = s.posted := rfl
@[simp] theorem setCopy_pending (s : State) (g line : Nat) (c : GCopy) : (setCopy s g line c).pending = s.pending := rfl

@[simp] theorem dropCopy_fuses (s : State) (g line : Nat) : (dropCopy s g line).fuses = s.fuses := rfl
@[simp] theorem dropCopy_pins (s : State) (g line : Nat) : (dropCopy s g line).pins = s.pins := rfl
@[simp] theorem dropCopy_power (s : State) (g line : Nat) : (dropCopy s g line).power = s.power := rfl
@[simp] theorem dropCopy_boot (s : State) (g line : Nat) : (dropCopy s g line).boot = s.boot := rfl
@[simp] theorem dropCopy_seed (s : State) (g line : Nat) : (dropCopy s g line).seed = s.seed := rfl
@[simp] theorem dropCopy_dir (s : State) (g line : Nat) : (dropCopy s g line).dir = s.dir := rfl
@[simp] theorem dropCopy_fieldBus (s : State) (g line : Nat) : (dropCopy s g line).fieldBus = s.fieldBus := rfl
@[simp] theorem dropCopy_und (s : State) (g line : Nat) : (dropCopy s g line).und = s.und := rfl
@[simp] theorem dropCopy_ev (s : State) (g line : Nat) : (dropCopy s g line).ev = s.ev := rfl
@[simp] theorem dropCopy_time (s : State) (g line : Nat) : (dropCopy s g line).time = s.time := rfl
@[simp] theorem dropCopy_groves (s : State) (g line : Nat) : (dropCopy s g line).groves = s.groves := rfl
@[simp] theorem dropCopy_fb (s : State) (g line : Nat) : (dropCopy s g line).fb = s.fb := rfl
@[simp] theorem dropCopy_trail (s : State) (g line : Nat) : (dropCopy s g line).trail = s.trail := rfl
@[simp] theorem dropCopy_stands (s : State) (g line : Nat) : (dropCopy s g line).stands = s.stands := rfl
@[simp] theorem dropCopy_thk (s : State) (g line : Nat) : (dropCopy s g line).thk = s.thk := rfl
@[simp] theorem dropCopy_rows (s : State) (g line : Nat) : (dropCopy s g line).rows = s.rows := rfl
@[simp] theorem dropCopy_mem (s : State) (g line : Nat) : (dropCopy s g line).mem = s.mem := rfl
@[simp] theorem dropCopy_ports (s : State) (g line : Nat) : (dropCopy s g line).ports = s.ports := rfl
@[simp] theorem dropCopy_fab (s : State) (g line : Nat) : (dropCopy s g line).fab = s.fab := rfl
@[simp] theorem dropCopy_look (s : State) (g line : Nat) : (dropCopy s g line).look = s.look := rfl
@[simp] theorem dropCopy_root (s : State) (g line : Nat) : (dropCopy s g line).root = s.root := rfl
@[simp] theorem dropCopy_gr (s : State) (g line : Nat) : (dropCopy s g line).gr = s.gr := rfl
@[simp] theorem dropCopy_trk (s : State) (g line : Nat) : (dropCopy s g line).trk = s.trk := rfl
@[simp] theorem dropCopy_pcie (s : State) (g line : Nat) : (dropCopy s g line).pcie = s.pcie := rfl
@[simp] theorem dropCopy_asleep (s : State) (g line : Nat) : (dropCopy s g line).asleep = s.asleep := rfl
@[simp] theorem dropCopy_free (s : State) (g line : Nat) : (dropCopy s g line).free = s.free := rfl
@[simp] theorem dropCopy_posted (s : State) (g line : Nat) : (dropCopy s g line).posted = s.posted := rfl
@[simp] theorem dropCopy_pending (s : State) (g line : Nat) : (dropCopy s g line).pending = s.pending := rfl

@[simp] theorem unpoison_fuses (s : State) (line : Nat) : (unpoison s line).fuses = s.fuses := by unfold unpoison; dsimp only; (repeat' split) <;> simp
@[simp] theorem unpoison_pins (s : State) (line : Nat) : (unpoison s line).pins = s.pins := by unfold unpoison; dsimp only; (repeat' split) <;> simp
@[simp] theorem unpoison_power (s : State) (line : Nat) : (unpoison s line).power = s.power := by unfold unpoison; dsimp only; (repeat' split) <;> simp
@[simp] theorem unpoison_boot (s : State) (line : Nat) : (unpoison s line).boot = s.boot := by unfold unpoison; dsimp only; (repeat' split) <;> simp
@[simp] theorem unpoison_seed (s : State) (line : Nat) : (unpoison s line).seed = s.seed := by unfold unpoison; dsimp only; (repeat' split) <;> simp
@[simp] theorem unpoison_dir (s : State) (line : Nat) : (unpoison s line).dir = s.dir := by unfold unpoison; dsimp only; (repeat' split) <;> simp
@[simp] theorem unpoison_fieldBus (s : State) (line : Nat) : (unpoison s line).fieldBus = s.fieldBus := by unfold unpoison; dsimp only; (repeat' split) <;> simp
@[simp] theorem unpoison_und (s : State) (line : Nat) : (unpoison s line).und = s.und := by unfold unpoison; dsimp only; (repeat' split) <;> simp
@[simp] theorem unpoison_ev (s : State) (line : Nat) : (unpoison s line).ev = s.ev := by unfold unpoison; dsimp only; (repeat' split) <;> simp
@[simp] theorem unpoison_time (s : State) (line : Nat) : (unpoison s line).time = s.time := by unfold unpoison; dsimp only; (repeat' split) <;> simp
@[simp] theorem unpoison_groves (s : State) (line : Nat) : (unpoison s line).groves = s.groves := by unfold unpoison; dsimp only; (repeat' split) <;> simp
@[simp] theorem unpoison_fb (s : State) (line : Nat) : (unpoison s line).fb = s.fb := by unfold unpoison; dsimp only; (repeat' split) <;> simp
@[simp] theorem unpoison_trail (s : State) (line : Nat) : (unpoison s line).trail = s.trail := by unfold unpoison; dsimp only; (repeat' split) <;> simp
@[simp] theorem unpoison_stands (s : State) (line : Nat) : (unpoison s line).stands = s.stands := by unfold unpoison; dsimp only; (repeat' split) <;> simp
@[simp] theorem unpoison_thk (s : State) (line : Nat) : (unpoison s line).thk = s.thk := by unfold unpoison; dsimp only; (repeat' split) <;> simp
@[simp] theorem unpoison_rows (s : State) (line : Nat) : (unpoison s line).rows = s.rows := by unfold unpoison; dsimp only; (repeat' split) <;> simp
@[simp] theorem unpoison_canopy (s : State) (line : Nat) : (unpoison s line).canopy = s.canopy := by unfold unpoison; dsimp only; (repeat' split) <;> simp
@[simp] theorem unpoison_ports (s : State) (line : Nat) : (unpoison s line).ports = s.ports := by unfold unpoison; dsimp only; (repeat' split) <;> simp
@[simp] theorem unpoison_fab (s : State) (line : Nat) : (unpoison s line).fab = s.fab := by unfold unpoison; dsimp only; (repeat' split) <;> simp
@[simp] theorem unpoison_look (s : State) (line : Nat) : (unpoison s line).look = s.look := by unfold unpoison; dsimp only; (repeat' split) <;> simp
@[simp] theorem unpoison_root (s : State) (line : Nat) : (unpoison s line).root = s.root := by unfold unpoison; dsimp only; (repeat' split) <;> simp
@[simp] theorem unpoison_gr (s : State) (line : Nat) : (unpoison s line).gr = s.gr := by unfold unpoison; dsimp only; (repeat' split) <;> simp
@[simp] theorem unpoison_trk (s : State) (line : Nat) : (unpoison s line).trk = s.trk := by unfold unpoison; dsimp only; (repeat' split) <;> simp
@[simp] theorem unpoison_pcie (s : State) (line : Nat) : (unpoison s line).pcie = s.pcie := by unfold unpoison; dsimp only; (repeat' split) <;> simp
@[simp] theorem unpoison_asleep (s : State) (line : Nat) : (unpoison s line).asleep = s.asleep := by unfold unpoison; dsimp only; (repeat' split) <;> simp
@[simp] theorem unpoison_free (s : State) (line : Nat) : (unpoison s line).free = s.free := by unfold unpoison; dsimp only; (repeat' split) <;> simp
@[simp] theorem unpoison_posted (s : State) (line : Nat) : (unpoison s line).posted = s.posted := by unfold unpoison; dsimp only; (repeat' split) <;> simp
@[simp] theorem unpoison_pending (s : State) (line : Nat) : (unpoison s line).pending = s.pending := by unfold unpoison; dsimp only; (repeat' split) <;> simp

@[simp] theorem poisonLine_fuses (s : State) (line src : Nat) : (poisonLine s line src).fuses = s.fuses := rfl
@[simp] theorem poisonLine_pins (s : State) (line src : Nat) : (poisonLine s line src).pins = s.pins := rfl
@[simp] theorem poisonLine_power (s : State) (line src : Nat) : (poisonLine s line src).power = s.power := rfl
@[simp] theorem poisonLine_boot (s : State) (line src : Nat) : (poisonLine s line src).boot = s.boot := rfl
@[simp] theorem poisonLine_seed (s : State) (line src : Nat) : (poisonLine s line src).seed = s.seed := rfl
@[simp] theorem poisonLine_dir (s : State) (line src : Nat) : (poisonLine s line src).dir = s.dir := rfl
@[simp] theorem poisonLine_fieldBus (s : State) (line src : Nat) : (poisonLine s line src).fieldBus = s.fieldBus := rfl
@[simp] theorem poisonLine_und (s : State) (line src : Nat) : (poisonLine s line src).und = s.und := rfl
@[simp] theorem poisonLine_ev (s : State) (line src : Nat) : (poisonLine s line src).ev = s.ev := rfl
@[simp] theorem poisonLine_time (s : State) (line src : Nat) : (poisonLine s line src).time = s.time := rfl
@[simp] theorem poisonLine_groves (s : State) (line src : Nat) : (poisonLine s line src).groves = s.groves := rfl
@[simp] theorem poisonLine_fb (s : State) (line src : Nat) : (poisonLine s line src).fb = s.fb := rfl
@[simp] theorem poisonLine_trail (s : State) (line src : Nat) : (poisonLine s line src).trail = s.trail := rfl
@[simp] theorem poisonLine_stands (s : State) (line src : Nat) : (poisonLine s line src).stands = s.stands := rfl
@[simp] theorem poisonLine_thk (s : State) (line src : Nat) : (poisonLine s line src).thk = s.thk := rfl
@[simp] theorem poisonLine_rows (s : State) (line src : Nat) : (poisonLine s line src).rows = s.rows := rfl
@[simp] theorem poisonLine_canopy (s : State) (line src : Nat) : (poisonLine s line src).canopy = s.canopy := rfl
@[simp] theorem poisonLine_ports (s : State) (line src : Nat) : (poisonLine s line src).ports = s.ports := rfl
@[simp] theorem poisonLine_fab (s : State) (line src : Nat) : (poisonLine s line src).fab = s.fab := rfl
@[simp] theorem poisonLine_look (s : State) (line src : Nat) : (poisonLine s line src).look = s.look := rfl
@[simp] theorem poisonLine_root (s : State) (line src : Nat) : (poisonLine s line src).root = s.root := rfl
@[simp] theorem poisonLine_gr (s : State) (line src : Nat) : (poisonLine s line src).gr = s.gr := rfl
@[simp] theorem poisonLine_trk (s : State) (line src : Nat) : (poisonLine s line src).trk = s.trk := rfl
@[simp] theorem poisonLine_pcie (s : State) (line src : Nat) : (poisonLine s line src).pcie = s.pcie := rfl
@[simp] theorem poisonLine_asleep (s : State) (line src : Nat) : (poisonLine s line src).asleep = s.asleep := rfl
@[simp] theorem poisonLine_free (s : State) (line src : Nat) : (poisonLine s line src).free = s.free := rfl
@[simp] theorem poisonLine_posted (s : State) (line src : Nat) : (poisonLine s line src).posted = s.posted := rfl
@[simp] theorem poisonLine_pending (s : State) (line src : Nat) : (poisonLine s line src).pending = s.pending := rfl

@[simp] theorem modNow_fuses (s : State) (c : Nat) (f : LkRec → LkRec) : (modNow s c f).fuses = s.fuses := rfl
@[simp] theorem modNow_pins (s : State) (c : Nat) (f : LkRec → LkRec) : (modNow s c f).pins = s.pins := rfl
@[simp] theorem modNow_power (s : State) (c : Nat) (f : LkRec → LkRec) : (modNow s c f).power = s.power := rfl
@[simp] theorem modNow_boot (s : State) (c : Nat) (f : LkRec → LkRec) : (modNow s c f).boot = s.boot := rfl
@[simp] theorem modNow_seed (s : State) (c : Nat) (f : LkRec → LkRec) : (modNow s c f).seed = s.seed := rfl
@[simp] theorem modNow_dir (s : State) (c : Nat) (f : LkRec → LkRec) : (modNow s c f).dir = s.dir := rfl
@[simp] theorem modNow_fieldBus (s : State) (c : Nat) (f : LkRec → LkRec) : (modNow s c f).fieldBus = s.fieldBus := rfl
@[simp] theorem modNow_und (s : State) (c : Nat) (f : LkRec → LkRec) : (modNow s c f).und = s.und := rfl
@[simp] theorem modNow_ev (s : State) (c : Nat) (f : LkRec → LkRec) : (modNow s c f).ev = s.ev := rfl
@[simp] theorem modNow_time (s : State) (c : Nat) (f : LkRec → LkRec) : (modNow s c f).time = s.time := rfl
@[simp] theorem modNow_groves (s : State) (c : Nat) (f : LkRec → LkRec) : (modNow s c f).groves = s.groves := rfl
@[simp] theorem modNow_fb (s : State) (c : Nat) (f : LkRec → LkRec) : (modNow s c f).fb = s.fb := rfl
@[simp] theorem modNow_trail (s : State) (c : Nat) (f : LkRec → LkRec) : (modNow s c f).trail = s.trail := rfl
@[simp] theorem modNow_stands (s : State) (c : Nat) (f : LkRec → LkRec) : (modNow s c f).stands = s.stands := rfl
@[simp] theorem modNow_thk (s : State) (c : Nat) (f : LkRec → LkRec) : (modNow s c f).thk = s.thk := rfl
@[simp] theorem modNow_rows (s : State) (c : Nat) (f : LkRec → LkRec) : (modNow s c f).rows = s.rows := rfl
@[simp] theorem modNow_mem (s : State) (c : Nat) (f : LkRec → LkRec) : (modNow s c f).mem = s.mem := rfl
@[simp] theorem modNow_canopy (s : State) (c : Nat) (f : LkRec → LkRec) : (modNow s c f).canopy = s.canopy := rfl
@[simp] theorem modNow_ports (s : State) (c : Nat) (f : LkRec → LkRec) : (modNow s c f).ports = s.ports := rfl
@[simp] theorem modNow_fab (s : State) (c : Nat) (f : LkRec → LkRec) : (modNow s c f).fab = s.fab := rfl
@[simp] theorem modNow_root (s : State) (c : Nat) (f : LkRec → LkRec) : (modNow s c f).root = s.root := rfl
@[simp] theorem modNow_gr (s : State) (c : Nat) (f : LkRec → LkRec) : (modNow s c f).gr = s.gr := rfl
@[simp] theorem modNow_trk (s : State) (c : Nat) (f : LkRec → LkRec) : (modNow s c f).trk = s.trk := rfl
@[simp] theorem modNow_pcie (s : State) (c : Nat) (f : LkRec → LkRec) : (modNow s c f).pcie = s.pcie := rfl
@[simp] theorem modNow_asleep (s : State) (c : Nat) (f : LkRec → LkRec) : (modNow s c f).asleep = s.asleep := rfl
@[simp] theorem modNow_free (s : State) (c : Nat) (f : LkRec → LkRec) : (modNow s c f).free = s.free := rfl
@[simp] theorem modNow_posted (s : State) (c : Nat) (f : LkRec → LkRec) : (modNow s c f).posted = s.posted := rfl
@[simp] theorem modNow_pending (s : State) (c : Nat) (f : LkRec → LkRec) : (modNow s c f).pending = s.pending := rfl

@[simp] theorem flagIgnored_fuses (s : State) : (flagIgnored s).fuses = s.fuses := rfl
@[simp] theorem flagIgnored_pins (s : State) : (flagIgnored s).pins = s.pins := rfl
@[simp] theorem flagIgnored_power (s : State) : (flagIgnored s).power = s.power := rfl
@[simp] theorem flagIgnored_boot (s : State) : (flagIgnored s).boot = s.boot := rfl
@[simp] theorem flagIgnored_seed (s : State) : (flagIgnored s).seed = s.seed := rfl
@[simp] theorem flagIgnored_dir (s : State) : (flagIgnored s).dir = s.dir := rfl
@[simp] theorem flagIgnored_und (s : State) : (flagIgnored s).und = s.und := rfl
@[simp] theorem flagIgnored_ev (s : State) : (flagIgnored s).ev = s.ev := rfl
@[simp] theorem flagIgnored_time (s : State) : (flagIgnored s).time = s.time := rfl
@[simp] theorem flagIgnored_groves (s : State) : (flagIgnored s).groves = s.groves := rfl
@[simp] theorem flagIgnored_fb (s : State) : (flagIgnored s).fb = s.fb := rfl
@[simp] theorem flagIgnored_trail (s : State) : (flagIgnored s).trail = s.trail := rfl
@[simp] theorem flagIgnored_stands (s : State) : (flagIgnored s).stands = s.stands := rfl
@[simp] theorem flagIgnored_thk (s : State) : (flagIgnored s).thk = s.thk := rfl
@[simp] theorem flagIgnored_rows (s : State) : (flagIgnored s).rows = s.rows := rfl
@[simp] theorem flagIgnored_mem (s : State) : (flagIgnored s).mem = s.mem := rfl
@[simp] theorem flagIgnored_canopy (s : State) : (flagIgnored s).canopy = s.canopy := rfl
@[simp] theorem flagIgnored_ports (s : State) : (flagIgnored s).ports = s.ports := rfl
@[simp] theorem flagIgnored_fab (s : State) : (flagIgnored s).fab = s.fab := rfl
@[simp] theorem flagIgnored_look (s : State) : (flagIgnored s).look = s.look := rfl
@[simp] theorem flagIgnored_root (s : State) : (flagIgnored s).root = s.root := rfl
@[simp] theorem flagIgnored_gr (s : State) : (flagIgnored s).gr = s.gr := rfl
@[simp] theorem flagIgnored_trk (s : State) : (flagIgnored s).trk = s.trk := rfl
@[simp] theorem flagIgnored_pcie (s : State) : (flagIgnored s).pcie = s.pcie := rfl
@[simp] theorem flagIgnored_asleep (s : State) : (flagIgnored s).asleep = s.asleep := rfl
@[simp] theorem flagIgnored_free (s : State) : (flagIgnored s).free = s.free := rfl
@[simp] theorem flagIgnored_posted (s : State) : (flagIgnored s).posted = s.posted := rfl
@[simp] theorem flagIgnored_pending (s : State) : (flagIgnored s).pending = s.pending := rfl

@[simp] theorem queueFrame_fuses (s : State) (b : Fin 2) (id : BitVec 29) (data : Nat) : (queueFrame s b id data).fuses = s.fuses := rfl
@[simp] theorem queueFrame_pins (s : State) (b : Fin 2) (id : BitVec 29) (data : Nat) : (queueFrame s b id data).pins = s.pins := rfl
@[simp] theorem queueFrame_power (s : State) (b : Fin 2) (id : BitVec 29) (data : Nat) : (queueFrame s b id data).power = s.power := rfl
@[simp] theorem queueFrame_boot (s : State) (b : Fin 2) (id : BitVec 29) (data : Nat) : (queueFrame s b id data).boot = s.boot := rfl
@[simp] theorem queueFrame_seed (s : State) (b : Fin 2) (id : BitVec 29) (data : Nat) : (queueFrame s b id data).seed = s.seed := rfl
@[simp] theorem queueFrame_dir (s : State) (b : Fin 2) (id : BitVec 29) (data : Nat) : (queueFrame s b id data).dir = s.dir := rfl
@[simp] theorem queueFrame_und (s : State) (b : Fin 2) (id : BitVec 29) (data : Nat) : (queueFrame s b id data).und = s.und := rfl
@[simp] theorem queueFrame_ev (s : State) (b : Fin 2) (id : BitVec 29) (data : Nat) : (queueFrame s b id data).ev = s.ev := rfl
@[simp] theorem queueFrame_time (s : State) (b : Fin 2) (id : BitVec 29) (data : Nat) : (queueFrame s b id data).time = s.time := rfl
@[simp] theorem queueFrame_groves (s : State) (b : Fin 2) (id : BitVec 29) (data : Nat) : (queueFrame s b id data).groves = s.groves := rfl
@[simp] theorem queueFrame_fb (s : State) (b : Fin 2) (id : BitVec 29) (data : Nat) : (queueFrame s b id data).fb = s.fb := rfl
@[simp] theorem queueFrame_trail (s : State) (b : Fin 2) (id : BitVec 29) (data : Nat) : (queueFrame s b id data).trail = s.trail := rfl
@[simp] theorem queueFrame_stands (s : State) (b : Fin 2) (id : BitVec 29) (data : Nat) : (queueFrame s b id data).stands = s.stands := rfl
@[simp] theorem queueFrame_thk (s : State) (b : Fin 2) (id : BitVec 29) (data : Nat) : (queueFrame s b id data).thk = s.thk := rfl
@[simp] theorem queueFrame_rows (s : State) (b : Fin 2) (id : BitVec 29) (data : Nat) : (queueFrame s b id data).rows = s.rows := rfl
@[simp] theorem queueFrame_mem (s : State) (b : Fin 2) (id : BitVec 29) (data : Nat) : (queueFrame s b id data).mem = s.mem := rfl
@[simp] theorem queueFrame_canopy (s : State) (b : Fin 2) (id : BitVec 29) (data : Nat) : (queueFrame s b id data).canopy = s.canopy := rfl
@[simp] theorem queueFrame_ports (s : State) (b : Fin 2) (id : BitVec 29) (data : Nat) : (queueFrame s b id data).ports = s.ports := rfl
@[simp] theorem queueFrame_fab (s : State) (b : Fin 2) (id : BitVec 29) (data : Nat) : (queueFrame s b id data).fab = s.fab := rfl
@[simp] theorem queueFrame_look (s : State) (b : Fin 2) (id : BitVec 29) (data : Nat) : (queueFrame s b id data).look = s.look := rfl
@[simp] theorem queueFrame_root (s : State) (b : Fin 2) (id : BitVec 29) (data : Nat) : (queueFrame s b id data).root = s.root := rfl
@[simp] theorem queueFrame_gr (s : State) (b : Fin 2) (id : BitVec 29) (data : Nat) : (queueFrame s b id data).gr = s.gr := rfl
@[simp] theorem queueFrame_trk (s : State) (b : Fin 2) (id : BitVec 29) (data : Nat) : (queueFrame s b id data).trk = s.trk := rfl
@[simp] theorem queueFrame_pcie (s : State) (b : Fin 2) (id : BitVec 29) (data : Nat) : (queueFrame s b id data).pcie = s.pcie := rfl
@[simp] theorem queueFrame_asleep (s : State) (b : Fin 2) (id : BitVec 29) (data : Nat) : (queueFrame s b id data).asleep = s.asleep := rfl
@[simp] theorem queueFrame_free (s : State) (b : Fin 2) (id : BitVec 29) (data : Nat) : (queueFrame s b id data).free = s.free := rfl
@[simp] theorem queueFrame_posted (s : State) (b : Fin 2) (id : BitVec 29) (data : Nat) : (queueFrame s b id data).posted = s.posted := rfl
@[simp] theorem queueFrame_pending (s : State) (b : Fin 2) (id : BitVec 29) (data : Nat) : (queueFrame s b id data).pending = s.pending := rfl

@[simp] theorem modQ_fuses (s : State) (p l : Nat) (f : QStat → QStat) : (modQ s p l f).fuses = s.fuses := rfl
@[simp] theorem modQ_pins (s : State) (p l : Nat) (f : QStat → QStat) : (modQ s p l f).pins = s.pins := rfl
@[simp] theorem modQ_power (s : State) (p l : Nat) (f : QStat → QStat) : (modQ s p l f).power = s.power := rfl
@[simp] theorem modQ_boot (s : State) (p l : Nat) (f : QStat → QStat) : (modQ s p l f).boot = s.boot := rfl
@[simp] theorem modQ_seed (s : State) (p l : Nat) (f : QStat → QStat) : (modQ s p l f).seed = s.seed := rfl
@[simp] theorem modQ_dir (s : State) (p l : Nat) (f : QStat → QStat) : (modQ s p l f).dir = s.dir := rfl
@[simp] theorem modQ_fieldBus (s : State) (p l : Nat) (f : QStat → QStat) : (modQ s p l f).fieldBus = s.fieldBus := rfl
@[simp] theorem modQ_und (s : State) (p l : Nat) (f : QStat → QStat) : (modQ s p l f).und = s.und := rfl
@[simp] theorem modQ_ev (s : State) (p l : Nat) (f : QStat → QStat) : (modQ s p l f).ev = s.ev := rfl
@[simp] theorem modQ_time (s : State) (p l : Nat) (f : QStat → QStat) : (modQ s p l f).time = s.time := rfl
@[simp] theorem modQ_groves (s : State) (p l : Nat) (f : QStat → QStat) : (modQ s p l f).groves = s.groves := rfl
@[simp] theorem modQ_fb (s : State) (p l : Nat) (f : QStat → QStat) : (modQ s p l f).fb = s.fb := rfl
@[simp] theorem modQ_trail (s : State) (p l : Nat) (f : QStat → QStat) : (modQ s p l f).trail = s.trail := rfl
@[simp] theorem modQ_stands (s : State) (p l : Nat) (f : QStat → QStat) : (modQ s p l f).stands = s.stands := rfl
@[simp] theorem modQ_thk (s : State) (p l : Nat) (f : QStat → QStat) : (modQ s p l f).thk = s.thk := rfl
@[simp] theorem modQ_rows (s : State) (p l : Nat) (f : QStat → QStat) : (modQ s p l f).rows = s.rows := rfl
@[simp] theorem modQ_mem (s : State) (p l : Nat) (f : QStat → QStat) : (modQ s p l f).mem = s.mem := rfl
@[simp] theorem modQ_canopy (s : State) (p l : Nat) (f : QStat → QStat) : (modQ s p l f).canopy = s.canopy := rfl
@[simp] theorem modQ_ports (s : State) (p l : Nat) (f : QStat → QStat) : (modQ s p l f).ports = s.ports := rfl
@[simp] theorem modQ_fab (s : State) (p l : Nat) (f : QStat → QStat) : (modQ s p l f).fab = s.fab := rfl
@[simp] theorem modQ_look (s : State) (p l : Nat) (f : QStat → QStat) : (modQ s p l f).look = s.look := rfl
@[simp] theorem modQ_root (s : State) (p l : Nat) (f : QStat → QStat) : (modQ s p l f).root = s.root := rfl
@[simp] theorem modQ_trk (s : State) (p l : Nat) (f : QStat → QStat) : (modQ s p l f).trk = s.trk := rfl
@[simp] theorem modQ_pcie (s : State) (p l : Nat) (f : QStat → QStat) : (modQ s p l f).pcie = s.pcie := rfl
@[simp] theorem modQ_asleep (s : State) (p l : Nat) (f : QStat → QStat) : (modQ s p l f).asleep = s.asleep := rfl
@[simp] theorem modQ_free (s : State) (p l : Nat) (f : QStat → QStat) : (modQ s p l f).free = s.free := rfl
@[simp] theorem modQ_posted (s : State) (p l : Nat) (f : QStat → QStat) : (modQ s p l f).posted = s.posted := rfl
@[simp] theorem modQ_pending (s : State) (p l : Nat) (f : QStat → QStat) : (modQ s p l f).pending = s.pending := rfl

end Sys2Proof.Machine
end

