-- ==== Sys2Proof/Laws/Coherence.lean ====
section
/-!
SUPPORT. The operations that write memory at its home keep the canonical form of its bytes: the directory protocol, coherent reads and writes
of the other accessors, atomic operations, and the write-back of a grove's lines.
-/
namespace Sys2Proof.Machine

/-- The bytes of memory of a state are in canonical form. -/
abbrev MemOk (s : State) : Prop := Memory.wf s.mem.bytes = true

theorem homeWrite_ok {s : State} {a : Nat} {bs : List Byte} (h : MemOk s) : MemOk (homeWrite s a bs) := memWrite_wf bs _ a h

@[simp] theorem send_mem (s : State) (m : DMsg) (g l : Nat) (bs : List Byte) : (send s m g l bs).mem = s.mem := rfl

/-- A state change that leaves the bytes of memory alone keeps their canonical form. -/
theorem MemOk.of_bytes {s t : State} (h : MemOk s) (e : t.mem.bytes = s.mem.bytes) : MemOk t := by unfold MemOk; rw [e]; exact h

theorem MemOk.of_eq {s t : State} (h : MemOk s) (e : t.mem = s.mem) : MemOk t := h.of_bytes (by rw [e])

/-- What keeps memory at every element of a fold keeps it over the fold. -/
theorem foldl_mem {α : Type} (f : State → α → State) (hf : ∀ s x, (f s x).mem = s.mem) (l : List α) (s : State) : (l.foldl f s).mem = s.mem := by
  induction l generalizing s with
  | nil => rfl
  | cons x l ih => rw [List.foldl_cons, ih, hf]

theorem foldl_ok {α : Type} (f : State → α → State) (hf : ∀ s x, MemOk s → MemOk (f s x)) (l : List α) (s : State) (h : MemOk s) :
    MemOk (l.foldl f s) := by
  induction l generalizing s with
  | nil => exact h
  | cons x l ih => exact ih _ (hf s x h)

/-! ## Counters -/

@[simp] theorem groveWrapped_mem (s : State) (p g k : Nat) : (groveWrapped s p g k).mem = s.mem := by
  unfold groveWrapped; dsimp only; split <;> simp [addCarry]

@[simp] theorem groveCtrAdd_mem (s : State) (p g k n : Nat) : (groveCtrAdd s p g k n).mem = s.mem := by
  unfold groveCtrAdd; dsimp only; split <;> simp

@[simp] theorem countG_mem (s : State) (g n k : Nat) : (countG s g n k).mem = s.mem := by
  unfold countG
  split
  · rfl
  · split
    · rfl
    · refine foldl_mem _ ?_ _ _
      intro u x
      dsimp only
      split <;> simp

@[simp] theorem dieWrapped_mem (s : State) (d k : Nat) : (dieWrapped s d k).mem = s.mem := by
  unfold dieWrapped; dsimp only; split <;> simp

@[simp] theorem countD_mem (s : State) (g n k : Nat) : (countD s g n k).mem = s.mem := by
  unfold countD
  split
  · rfl
  · refine foldl_mem _ ?_ _ _
    intro u x
    dsimp only
    split
    · split <;> simp
    · rfl

@[simp] theorem countE_mem (s : State) (k i p n : Nat) : (countE s k i p n).mem = s.mem := by
  unfold countE; split <;> rfl

/-! ## Looking a line up, and room for one -/

@[simp] theorem portUe_mem (s : State) (p l : Nat) : (portUe s p l).mem = s.mem := by unfold portUe; simp [modMPort]

@[simp] theorem eccResult_bytes (s : State) (p l : Nat) (e : Ecc) : (eccResult s p l e).mem.bytes = s.mem.bytes := by
  cases e <;> simp [eccResult, poisonLine, modMPort]

@[simp] theorem readLpddr_bytes (s : State) (l : Nat) : (readLpddr s l).mem.bytes = s.mem.bytes := by
  unfold readLpddr
  dsimp only
  split
  · rfl
  · split
    · split <;> simp
    · simp

@[simp] theorem useLine_mem (s : State) (l : Nat) : (useLine s l).mem = s.mem := by unfold useLine; split <;> rfl

/-- A look-up changes no byte. -/
@[simp] theorem lookLine_bytes (s : State) (l : Nat) : (lookLine s l).mem.bytes = s.mem.bytes := by
  unfold lookLine
  split <;> simp

theorem invalidate_ok {s : State} {but l : Nat} (h : MemOk s) : MemOk (invalidate but s l).1 := by
  unfold invalidate
  refine MemOk.of_eq ?_ (foldl_mem _ (fun _ _ => countG_mem ..) _ _)
  refine foldl_ok (fun s g => match newerCopy s g l with
    | some c => homeWrite s (64 * l) c.data
    | none => s) ?_ _ _ h
  intro u g hu
  split
  · exact homeWrite_ok hu
  · exact hu

theorem evictLine_ok {s : State} {l : Nat} (h : MemOk s) : MemOk (evictLine s l) := by
  unfold evictLine
  split
  · exact h
  · have h1 := invalidate_ok (but := 432) (l := l) h
    dsimp only
    split
    · exact h1.of_eq (by simp)
    · exact h1.of_eq (by simp)

theorem makeRoom_ok {s : State} {l : Nat} (h : MemOk s) : MemOk (makeRoom s l) := by
  unfold makeRoom
  dsimp only
  split
  · exact h
  · split
    · exact h
    · split
      · exact evictLine_ok h
      · exact h

/-- A line put into its slice leaves memory in canonical form, whatever leaves for it. -/
theorem putLine_ok {s : State} {l : Nat} {d : DirState} {b : Bool} (h : MemOk s) : MemOk (putLine s l d b) := by
  unfold putLine
  split
  · exact h
  · exact (makeRoom_ok (l := l) h).of_eq rfl

/-! ## The directory protocol -/

theorem mergeData_ok {s : State} {l : Nat} {bs : List Byte} (h : MemOk s) : MemOk (mergeData s l bs) := by
  unfold mergeData
  split
  · exact h
  · exact putLine_ok (homeWrite_ok h)

theorem serve_ok {s : State} {req : DMsg} {g l : Nat} (h : MemOk s) : MemOk (serve s req g l) := by
  have h1 : MemOk (lookLine s l) := h.of_bytes (lookLine_bytes ..)
  unfold serve
  dsimp only
  split
  iterate 3 exact (putLine_ok h1).of_eq rfl
  · split
    · exact (putLine_ok h1).of_eq rfl
    · exact (putLine_ok h1).of_eq rfl
  · exact (putLine_ok h1).of_eq rfl

theorem beginReq_ok {s : State} {req : DMsg} {g l : Nat} (h : MemOk s) : MemOk (beginReq s req g l) := by
  have hs : ∀ (m : DMsg) (k : List Nat), MemOk (if k.isEmpty then serve s req g l
      else
        let s1 := k.foldl (fun s x => send s m x l) s
        { s1 with canopy.homes := sput s1.canopy.homes l { req, g, waiting := k }, canopy.snoops := s1.canopy.snoops + k.length }) := by
    intro m k
    split
    · exact serve_ok h
    · exact h.of_eq (foldl_mem (fun s x => send s m x l) (fun _ _ => rfl) k s)
  unfold beginReq
  dsimp only
  split
  · exact serve_ok h
  · split
    · exact serve_ok h
    · exact hs ..
  · split
    · exact serve_ok h
    · split
      · exact hs ..
      · exact hs ..

theorem nextReq_ok {s : State} {l : Nat} (h : MemOk s) : MemOk (nextReq s l) := by
  unfold nextReq
  split
  · exact h
  · split
    · exact beginReq_ok h
    · exact h

theorem request_ok {s : State} {m : DMsg} {g l : Nat} (h : MemOk s) : MemOk (request s m g l) := by
  unfold request
  split
  · exact h
  · exact beginReq_ok h

theorem closeHome_ok {s : State} {l : Nat} (h : MemOk s) : MemOk (closeHome s l) := by
  unfold closeHome
  split
  · exact h
  · next t _ =>
    split
    · exact h
    · refine nextReq_ok ?_
      have h1 : MemOk (serve { s with canopy.homes := sdel s.canopy.homes l } t.req t.g l) := serve_ok h
      exact h1.of_eq (foldl_mem (fun s x => send s .evictAck x l) (fun _ _ => rfl) _ _)

theorem answered_ok {s : State} {g l : Nat} {a b : Bool} (h : MemOk s) : MemOk (answered s g l a b) := by
  unfold answered
  split
  · exact h
  · dsimp only
    refine closeHome_ok ?_
    split
    · refine MemOk.of_eq ?_ (send_mem ..)
      repeat' split
      all_goals first
        | exact h
        | exact putLine_ok (by exact h)
    · repeat' split
      all_goals first
        | exact h
        | exact putLine_ok (by exact h)

theorem takeEviction_ok {s : State} {g l : Nat} {bs : List Byte} (h : MemOk s) : MemOk (takeEviction s g l bs) := by
  have h1 := mergeData_ok (l := l) (bs := bs) h
  unfold takeEviction
  dsimp only
  refine MemOk.of_eq ?_ (send_mem ..)
  split
  · split
    · exact putLine_ok h1
    · exact h1
  · exact h1

@[simp] theorem startEviction_mem (s : State) (g l : Nat) : (startEviction s g l).mem = s.mem := by
  unfold startEviction
  split
  · rfl
  · split
    · rfl
    · split <;> rfl

@[simp] theorem groveRoom_mem (s : State) (g l : Nat) : (groveRoom s g l).mem = s.mem := by
  unfold groveRoom
  dsimp only
  split
  · rfl
  · split
    · rfl
    · simp

@[simp] theorem fillCopy_mem (s : State) (g l : Nat) (c : GCopy) : (fillCopy s g l c).mem = s.mem := by simp [fillCopy]

/-- A message that arrives leaves memory in canonical form. -/
theorem arrive_ok {s : State} {f : Flight} (h : MemOk s) : MemOk (arrive s f) := by
  have h0 : MemOk { s with canopy.flights := s.canopy.flights.erase f } := h
  unfold arrive
  dsimp only
  split
  · refine h0.of_eq ?_
    split
    · simp
    · split <;> simp
  · refine h0.of_eq ?_
    split
    · simp
    · split <;> simp
  · exact answered_ok (mergeData_ok h0)
  · exact answered_ok h0
  · exact answered_ok h0
  · split
    · exact h0
    · split
      · exact answered_ok h0
      · exact h0
  all_goals first
    | exact h0
    | exact h0.of_eq (fillCopy_mem ..)
    | exact request_ok h0
    | (split
       · exact takeEviction_ok h0
       · split
         · exact takeEviction_ok h0
         · split
           · exact answered_ok (mergeData_ok h0)
           · exact (mergeData_ok h0).of_eq rfl)
    | (split <;> exact h0)

theorem drain_ok (l n : Nat) {s : State} (h : MemOk s) : MemOk (drain l n s) := by
  induction n generalizing s with
  | zero => exact h
  | succ n ih =>
    unfold drain
    split
    · exact ih (arrive_ok h)
    · exact h

theorem settle_ok {s : State} {l : Nat} (h : MemOk s) : MemOk (settle s l) := by
  unfold settle
  split
  · exact drain_ok l _ h
  · exact h

/-- A bank that is cleared leaves memory in canonical form. -/
theorem clearBank_ok {s : State} {d b : Nat} (h : MemOk s) : MemOk (clearBank s d b) :=
  foldl_ok _ (fun _ _ hu => evictLine_ok (settle_ok hu)) _ _ h

/-! ## Accessors other than groves, and write-backs -/

theorem snoopShared_ok {s : State} {l : Nat} (h : MemOk s) : MemOk (snoopShared s l) := by
  have h1 := settle_ok (l := l) h
  have hc : ∀ g, MemOk (countG { settle s l with canopy.snoops := (settle s l).canopy.snoops + 1 } g 0x0A 1) := fun g => h1.of_eq (countG_mem ..)
  unfold snoopShared
  dsimp only
  split
  · split
    · refine putLine_ok (MemOk.of_eq (s := if _ then homeWrite _ _ _ else _) ?_ rfl)
      split
      · exact homeWrite_ok (hc _)
      · exact hc _
    · exact putLine_ok (hc _)
  · exact h1

theorem snoopFor_ok {s : State} {k l : Nat} (h : MemOk s) : MemOk (snoopFor k s l) := by
  have h1 := invalidate_ok (but := k) (l := l) (settle_ok (l := l) h)
  unfold snoopFor
  dsimp only
  split
  · exact h1
  · exact putLine_ok h1

theorem snoopInvalidate_ok {s : State} {l : Nat} (h : MemOk s) : MemOk (snoopInvalidate s l) := snoopFor_ok h

/-- A coherent read leaves memory in canonical form. -/
theorem readMem_ok {s : State} {a n : Nat} (h : MemOk s) : MemOk (readMem s a n).1 := by
  have h1 := foldl_ok (fun s l => lookLine (snoopShared s l) l)
    (fun _ _ hu => (snoopShared_ok hu).of_bytes (lookLine_bytes ..)) (linesOf a n) s h
  unfold readMem
  dsimp only
  split <;> exact h1

theorem unpoison_ok {s : State} {l : Nat} (h : MemOk s) : MemOk (unpoison s l) := by
  unfold unpoison
  dsimp only
  split <;> exact h

/-- A write at the home leaves memory in canonical form. -/
theorem writeMem_ok {s : State} {a : Nat} {bs : List Byte} (h : MemOk s) : MemOk (writeMem s a bs) := by
  unfold writeMem
  dsimp only
  refine foldl_ok (fun s l => putLine s l (dirOf s l) true) (fun _ _ hu => putLine_ok hu) _ _ ?_
  refine foldl_ok _ ?_ _ _ ?_
  · intro u l hu
    split
    · exact hu
    · exact homeWrite_ok hu
  · refine foldl_ok _ ?_ _ _ (foldl_ok _ (fun _ _ hu => snoopInvalidate_ok hu) _ _ h)
    intro u l hu
    split
    · exact unpoison_ok hu
    · exact hu.of_bytes (lookLine_bytes ..)

/-- An atomic operation leaves memory in canonical form. -/
theorem performAtom_ok {s : State} {c a v w : Nat} (h : MemOk s) : MemOk (performAtom s c a v w).1 := by
  have h1 : MemOk (lookLine (snoopInvalidate s (a / 64)) (a / 64)) := (snoopInvalidate_ok h).of_bytes (lookLine_bytes ..)
  unfold performAtom
  split
  · exact h
  · dsimp only
    split
    · exact h1
    · unfold MemOk
      rw [countD_mem]
      exact putLine_ok (homeWrite_ok h1)

/-- A grove's lines written back leave memory in canonical form. -/
theorem flushGrove_ok {s : State} {g : Nat} (h : MemOk s) : MemOk (flushGrove s g) := by
  unfold flushGrove
  refine foldl_ok _ ?_ _ _ h
  intro u l hu
  have h1 := settle_ok (l := l) hu
  dsimp only
  split
  · next c _ =>
    have h2 : MemOk (dropCopy (if c.st = .modified then homeWrite (settle u l) (64 * l) c.data else settle u l) g l) := by
      split
      · exact homeWrite_ok h1
      · exact h1
    split
    · split
      · exact putLine_ok h2
      · exact h2
    · exact h2
  · exact h1

/-! ## Lines that nothing caches -/

/-- With no message, transaction or request under way no line is busy. -/
theorem lineBusy_idle {s : State} (h1 : s.canopy.flights = []) (h2 : s.canopy.homes = []) (h3 : s.canopy.queue = []) (l : Nat) : lineBusy s l = false := by
  simp [lineBusy, h1, h2, h3, sfind]

/-- A snoop of a line that no slice lists changes nothing. -/
theorem snoopShared_idle {s : State} (h0 : s.canopy.lines = []) (h1 : s.canopy.flights = []) (h2 : s.canopy.homes = []) (h3 : s.canopy.queue = []) (l : Nat) :
    snoopShared s l = s := by
  simp [snoopShared, settle, lineBusy_idle h1 h2 h3, dirOf, h0, sfind]

/-- A read of lines that nothing caches changes no byte, and answers the bytes unless a line is poisoned. -/
theorem readMem_idle {s : State} (h0 : s.canopy.lines = []) (h1 : s.canopy.flights = []) (h2 : s.canopy.homes = []) (h3 : s.canopy.queue = [])
    (a n : Nat) (hn : (linesOf a n).length ≤ 1) :
    (readMem s a n).1.mem.bytes = s.mem.bytes ∧
      (firstPoison (readMem s a n).1 a n = none → (readMem s a n).2 = .ok (memRead s.mem.bytes a n)) := by
  unfold readMem
  match hl : linesOf a n, hn with
  | [], _ =>
    simp only [List.foldl_nil]
    split <;> simp_all
  | [l], _ =>
    simp only [List.foldl_cons, List.foldl_nil, snoopShared_idle h0 h1 h2 h3]
    split <;> simp_all

end Sys2Proof.Machine
end

