-- ==== Sys2Proof/Laws/Ops.lean ====
section
/-!
SUPPORT. What the shared operations do: occurrences of sources, records of Seedbank's log, parameters, and open values.
-/
namespace Sys2Proof.Machine

/-! ## Occurrences (R83) -/

/-- One bit of a set of 1,024 after a bit is set or cleared. -/
theorem bit1024_getLsbD (b : BitVec 1024) (n m : Nat) (v : Bool) (hn : n < 1024) :
    (bit1024 b n v).getLsbD m = if m = n then v else b.getLsbD m := by
  unfold bit1024
  have e : (BitVec.ofNat 1024 (1 <<< n)).getLsbD m = decide (m = n) := by
    rw [BitVec.getLsbD_ofNat, Nat.one_shiftLeft, Nat.testBit_two_pow]
    by_cases h : m = n
    · subst h; simp [hn]
    · simp [h, Ne.symm h]
  cases v with
  | true =>
    simp only [if_true, BitVec.getLsbD_or, e]
    by_cases h : m = n <;> simp [h]
  | false =>
    simp only [Bool.false_eq_true, if_false, BitVec.getLsbD_and, BitVec.getLsbD_not, e]
    by_cases h : m = n
    · simp [h]
    · simp only [h, if_false, decide_false, Bool.not_false, Bool.and_true]
      by_cases hm : m < 1024
      · simp [hm]
      · rw [BitVec.getLsbD_of_ge b m (by omega)]; simp

/-- An occurrence of a source that cannot occur, or is disabled, changes nothing. -/
theorem raise_off (s : State) (n : Nat) (h : sourceReserved n = true ∨ bitOf (evConfig s n) 1 = false ∨ 1024 ≤ n) : raise s n = s := by
  unfold raise
  rw [if_pos]
  rcases h with h | h | h <;> simp [h]

/-- Only the event state moves when a source occurs. -/
theorem raise_eq (s : State) (n : Nat) : raise s n = { s with ev := (raise s n).ev } := by
  rw [show raise s n = { raise s n with fuses := (raise s n).fuses } from rfl]; simp

/-- PENDING after an occurrence of an enabled source: set for it, as before for every other. -/
theorem raise_ev_pending (s : State) (n m : Nat) (hn : n < 1024) (hr : sourceReserved n = false) (he : bitOf (evConfig s n) 1 = true) :
    (raise s n).ev.pending.getLsbD m = (s.ev.pending.getLsbD m || decide (m = n)) := by
  unfold raise
  have h1 : ¬(sourceReserved n || !bitOf (evConfig s n) 1 || decide (1024 ≤ n)) = true := by simp [hr, he]; omega
  rw [if_neg h1]
  dsimp only
  by_cases hp : s.ev.pending.getLsbD n = true
  · rw [if_pos hp]
    by_cases hm : m = n
    · subst hm
      by_cases hc : 0x200 ≤ m <;> simp [hp, hc]
    · by_cases hc : 0x200 ≤ n <;> simp [hc, hm]
  · rw [if_neg hp]
    have e := bit1024_getLsbD s.ev.pending n m true hn
    by_cases hm : m = n
    · rw [if_pos hm] at e
      simpa [hm] using hm ▸ e
    · rw [if_neg hm] at e
      simpa [hm] using e

/-- An occurrence never clears PENDING. -/
theorem raise_ev_pending_mono (s : State) (n m : Nat) (h : s.ev.pending.getLsbD m = true) : (raise s n).ev.pending.getLsbD m = true := by
  by_cases hoff : sourceReserved n = true ∨ bitOf (evConfig s n) 1 = false ∨ 1024 ≤ n
  · rw [raise_off s n hoff]; exact h
  · have h1 : sourceReserved n = false := by cases hc : sourceReserved n <;> simp_all
    have h2 : bitOf (evConfig s n) 1 = true := by cases hc : bitOf (evConfig s n) 1 <;> simp_all
    have h3 : n < 1024 := by omega
    rw [raise_ev_pending s n m h3 h1 h2, h]; rfl

/-- A second occurrence before delivery sets OVERRUN and counts it. -/
theorem raise_ev_overruns (s : State) (n : Nat) (hn : n < 1024) (hr : sourceReserved n = false) (he : bitOf (evConfig s n) 1 = true)
    (hp : s.ev.pending.getLsbD n = true) : (raise s n).ev.overruns = s.ev.overruns + 1 := by
  unfold raise
  have h1 : ¬(sourceReserved n || !bitOf (evConfig s n) 1 || decide (1024 ≤ n)) = true := by simp [hr, he]; omega
  rw [if_neg h1]
  simp [hp]

/-! ## Records (R317) -/

/-- A record moves Seedbank and, when the log is full, the event of that. -/
theorem record_eq (s : State) (a b c d e : Nat) :
    record s a b c d e = { s with seed := (record s a b c d e).seed, ev := (record s a b c d e).ev } := by
  rw [show record s a b c d e = { record s a b c d e with fuses := (record s a b c d e).fuses } from rfl]; simp

/-- The log after a record. -/
theorem record_seed_hist (s : State) (a b c d e : Nat) :
    (record s a b c d e).seed.hist = (⟨a, b, s.seed.coldStarts % 65536, c, d, s.time.dev, s.seed.histNext, e⟩ :: s.seed.hist).take 8192 := by
  unfold record; dsimp only; split <;> simp [pushRecord]

/-- A record leaves the log no longer than 8,192. -/
theorem record_seed_hist_length (s : State) (a b c d e : Nat) : (record s a b c d e).seed.hist.length ≤ 8192 := by
  rw [record_seed_hist, List.length_take]; omega

/-! ## Parameters -/

/-- Keys of parameter instances do not meet. -/
theorem pkey_inj {i u n j v m : Nat} (hu : u < 256) (hn : n < 256) (hv : v < 256) (hm : m < 256) :
    pkey i u n = pkey j v m ↔ i = j ∧ u = v ∧ n = m := by
  unfold pkey
  constructor
  · intro h; omega
  · rintro ⟨rfl, rfl, rfl⟩; rfl

theorem sget_getD {α : Type} (d : α) (m : Sparse α) (k : Nat) : (sfind m k).getD d = sget d m k := by
  induction m with
  | nil => rfl
  | cons p m ih =>
    obtain ⟨k', v⟩ := p
    simp only [sfind, sget]
    split
    · rfl
    · exact ih

/-- A parameter that a write put reads back. -/
@[simp] theorem param_setParam_self (s : State) (i u n v : Nat) : param (setParam s i u n v) i u n = v := by
  simp [param, setParam, sfind_sput]

/-- An open value is a draw of Config, and the draw is counted. -/
theorem drawFree_eq (s : State) (w : Nat) : drawFree s w = (Config.freeBits s.free % 2 ^ w, { s with free := s.free + 1 }) := rfl

theorem drawFree_lt (s : State) (w : Nat) : (drawFree s w).1 < 2 ^ w := Nat.mod_lt _ (Nat.two_pow_pos w)

end Sys2Proof.Machine
end

