-- ==== Sys2Proof/Tests/W0.lean ====
section
/-!
SUPPORT. The small states on which the witnesses stand.
-/
namespace Sys2Proof.Tests
set_option Elab.async false
open Sys2Proof.Machine

/-- Fuses with known values. -/
def fz : Fuses := { serial := 1, ordering := 0, rootKeyHash := 0, deviceKey := 0, skozinKey := 0, certSig := 0 }

/-- A Warden with a known address. -/
def wdn : Warden := { pc := 0x10000100 }

/-- The part right after reset, with known fuses and Wardens. -/
def s0 : State := { State.reset with fuses := fz, und := { wardens := [wdn, wdn], standby := [wdn, wdn] } }

/-- PWROK high, a stage of start-up reached. -/
def atStage (n : Nat) : State := { s0 with pins := { pwrok := true, perst := [true, true] }, boot := { stage := n } }

/-- A device at READY with both host links up, both field buses on and 16 GiB packages trained. -/
def rdy : State :=
  { atStage 10 with boot := { stage := 10, seedDone := true, hostL0 := [true, true] }, fieldBus := { started := true, listenOnly := false },
                    mem := { density := 16 }, canopy := { laidOut := true } }

/-- The hash of the key that the containers below are signed with. -/
def testKeyHash : BitVec 384 := 0x4938b309efca0e50cab9f949ab849d045c5a676ac0163690ab822a7a4e19d90650792c29353c5bf4461f331495630270

/-- A KEY container with SVN 3 and a section of zeros, signed with that key. -/
def keyContainer : List Byte := leBytes 512 0x1b33934df6b025604604625928b4a58cf2daf30c44412b9cbccbae44a5ea7751069cf6e6fa357390170045d7a5b7111a0fab859f45f65ca80ed53ba6bb00d40cd3e462e46bc98a19f8313345eaa2b667cec44bcb3aa78552570440cfeff645c34fe7f6bbcca6f363ed48394579ed47bb140fdb71a561d099940bb05ceb3636ee0d9a394b03d83815240dd84c4421acd82b3003436ffd5058b43f4ed8e4f20075b95dedc336cd4ea4e8fb08460f24666c1f19e51b07efc1704c796011dbe1e97a0000000100000000000000000000000000000000000000000000000000000000000000000000000000000000000000000000000000000000000000000000000000000000a7f8f6fa4edfc92851d583678fbe2df7aafddf585ae2fac9fe20a26bd971b991ea0e401ce422be706bad68035c140d8f0000000000000030000000c000000007000000000000000000000000000000000000000000000000000000000000000000000000000000000000000000000000000000000000000000000000000000000000000000000000000000000000000000000000000000000000000000000000000000000000000700000003000100010000010000000200000400014e434645

/-- A BOOT container with SVN 3 and four short sections, signed with that key. -/
def bootContainer : List Byte := leBytes 768 0xe2f6d2c53220a39e8014e435182c7484ac9a19379cedc3ecada6cb57633d9928f681ef1d340edf3f17fa130c20be59b70fab859f45f65ca80ed53ba6bb00d40cd3e462e46bc98a19f8313345eaa2b667cec44bcb3aa78552570440cfeff645c34fe7f6bbcca6f363ed48394579ed47bb140fdb71a561d099940bb05ceb3636ee0d9a394b03d83815240dd84c4421acd82b3003436ffd5058b43f4ed8e4f20075b95dedc336cd4ea4e8fb08460f24666c1f19e51b07efc1704c796011dbe1e97a000000010000000000000000000000000000000000000000000000000000000000000000000000000000000000000000000000000000000000000000000000005555555500000000000000000000000000000000000000000000000000000000000000000000000000000000000000000000000000000000000000000000000000000000462cbfa55baf3bbf25a8567e51a981bf2a0a837ba1e92647b8eef6ffa4fb0f140c877a09959669c6dffffb60c44749cd0000000000000004000001c0000000045bb99848f1d21ad5fb656fe7bfde4e27dae1f663bfc70c4c4307be1411b7fd216ae3b1b17e32d94c3896ac51a760b0380000000000000000000001c0000000035bb99848f1d21ad5fb656fe7bfde4e27dae1f663bfc70c4c4307be1411b7fd216ae3b1b17e32d94c3896ac51a760b0380000000000000000000001c000000002404a0ae50e1ba7e25ff787315c4d3ad07bab9e7292f1c84694de5f5447fd8090c83a10038cde9cace4156ca24bff8fa300000000000000200000018000000001000000000000000000000000000000000000000000000000000000000000000000000000000000000000000000000000000000000000000000000000000000000000000000000000000000000000000000000000000000000000000000000000000000000000000700000003000100040000020000000300000100014e434645

/-- A state whose root key is that key. -/
def keyed (s : State) : State := { s with fuses := { s.fuses with rootKeyHash := testKeyHash } }

/-- A container verifies, with its KIND. -/
def verifies (s : State) (b : List Byte) (kind : Nat) : Bool :=
  match verifyContainer s b with
  | .ok c => decide (c.kind = kind)
  | .error _ => false

/-- A container is refused. -/
def refuses (s : State) (b : List Byte) : Bool :=
  match verifyContainer s b with
  | .ok _ => false
  | .error _ => true

theorem refuses_ok {s : State} {b : List Byte} (h : refuses s b = true) : ∃ e, verifyContainer s b = .error e := by
  unfold refuses at h
  split at h
  · cases h
  · next e he => exact ⟨e, he⟩

theorem verifies_ok {s : State} {b : List Byte} {k : Nat} (h : verifies s b k = true) : ∃ c, verifyContainer s b = .ok c ∧ c.kind = k := by
  unfold verifies at h
  split at h
  · next c e => exact ⟨c, e, of_decide_eq_true h⟩
  · cases h

/-- Verification looks at Seedbank, the fuses and the microcode alone. -/
theorem verify_congr (s t : State) (b : List Byte) (h1 : s.seed = t.seed) (h2 : s.fuses = t.fuses) (h3 : s.gr = t.gr) :
    verifyContainer s b = verifyContainer t b := by
  have e1 : patchRule s = patchRule t := by funext b l; unfold patchRule; rw [h3]
  have e2 : surveyOk s = surveyOk t := by funext b l; unfold surveyOk; rw [h3]
  have e3 : contentOk s b = contentOk t b := by unfold contentOk patchRules; rw [e1, e2]
  unfold verifyContainer
  rw [e3, h1, h2]

theorem keyContainer_verifies : verifies (keyed s0) keyContainer 4 = true := by decide +kernel

theorem bootContainer_verifies : verifies (keyed s0) bootContainer 1 = true := by decide +kernel

end Sys2Proof.Tests
end

