-- ==== Sys2Proof/Tests/W2.lean ====
section
/-!
SUPPORT. Witnesses: the parameter directory and the rows that are one write of one parameter.
-/
namespace Sys2Proof.Tests
set_option Elab.async false
open Sys2Proof.Machine Sys2Proof.Claims

/-- The session of the PF of host port 0. -/
def pf0 : Session := .pf 0

/-- `Served`, as a truth value. -/
def servedB (s : State) (who : Session) : Bool :=
  reaches s who && s.boot.seedDone && !s.und.takingOver && !s.dir.lost.contains who && !notManager s who && s.dir.txns.all (fun x => decide (x.num ≠ 0))

theorem servedB_ok {s : State} {who : Session} (h : servedB s who = true) : Served s who := by
  simp only [servedB, Bool.and_eq_true, Bool.not_eq_true', List.all_eq_true, decide_eq_true_eq] at h
  exact ⟨h.1.1.1.1.1, h.1.1.1.1.2, h.1.1.1.2, h.1.1.2, h.1.2, h.2⟩

/-- An answer of `lookUp`, as a truth value. -/
def found (r : Except (Nat × Nat) (ParamDef × Nat)) (d : ParamDef) (inst : Nat) : Bool :=
  match r with
  | .ok q => decide (q.1 = d) && decide (q.2 = inst)
  | .error _ => false

theorem found_ok {r : Except (Nat × Nat) (ParamDef × Nat)} {d : ParamDef} {inst : Nat} (h : found r d inst = true) : r = .ok (d, inst) := by
  unfold found at h
  split at h
  · next q =>
    simp only [Bool.and_eq_true, decide_eq_true_eq] at h
    rw [← h.1, ← h.2]
  · cases h

/-- `Accepts`, as a truth value. -/
def acceptsB (s : State) (who : Session) (idx sub part inst val : Nat) : Bool :=
  servedB s who && s.seed.writable && s.seed.copyOk.any (· = true) &&
  (match findParam idx sub with
  | none => false
  | some d =>
    let g := layEntry s ⟨false, idx, sub, inst, val, d.size⟩ d
    decide (val < 256 ^ d.size) && found (lookUp s who { op := 2, index := idx, sub := sub, inst := part, len := d.size, val := val } true) d inst &&
    decide (entryFails who s g.1 g.2 = none))

theorem acceptsB_ok {s : State} {who : Session} {idx sub part inst val : Nat} (h : acceptsB s who idx sub part inst val = true) :
    Accepts s who idx sub part inst val := by
  unfold acceptsB at h
  split at h
  · simp at h
  · next d e =>
    simp only [Bool.and_eq_true, decide_eq_true_eq] at h
    obtain ⟨⟨⟨h1, h2⟩, h3⟩, ⟨h4, h5⟩, h6⟩ := h
    exact ⟨servedB_ok h1, d, e, h4, found_ok h5, h6, fun _ => ⟨h2, h3⟩⟩

/-- A session may send operations, and one write of it is accepted. -/
theorem accepted : acceptsB rdy pf0 0x1220 1 devInst devInst 300 = true := by decide +kernel

theorem witness_TransactionNumbersStayLegal :
    let s := { rdy with dir.txns := [⟨1, pf0, 0, []⟩, ⟨65535, pf0, 0, []⟩], pending := [.txnOpen pf0] }
    (∀ x ∈ s.dir.txns, 1 ≤ x.num ∧ x.num ≤ 65535) ∧ ∃ t, step s = .next t := ⟨by decide, _, rfl⟩

theorem witness_DirectoryReadsAnswerAndStoreNothing : Served rdy pf0 ∧
    (∃ d, lookUp rdy pf0 (reqOf 1 ⟨0x1220, 1, 0xFF, 0, 0⟩ 0) false = .ok (d, devInst)) ∧ ringBeyond rdy 0x1220 1 devInst = false ∧
    (∃ d, lookUp rdy pf0 (reqOf 5 ⟨0x1220, 1, 0xFF, 0, 0⟩ 0) false = .ok (d, devInst)) ∧
    ((0xEFFF#16).toNat < 0xF000) ∧ (∃ p, nextReadable rdy pf0 8192 (256 * 0x1220 + 1) = some p) := by
  refine ⟨servedB_ok (by decide +kernel), ⟨(findParam 0x1220 1).get (by decide +kernel), found_ok (by decide +kernel)⟩, by decide +kernel,
    ⟨(findParam 0x1220 1).get (by decide +kernel), found_ok (by decide +kernel)⟩, by decide, 256 * 0x1220 + 2, by decide +kernel⟩

/-- A device with one open transaction of the PF. -/
def withTxn (es : List Entry) : State := { rdy with dir.txns := [⟨7, pf0, 0, es⟩], dir.opened := 7 }

theorem witness_TransactionsStageWithoutChange : Served (withTxn []) pf0 ∧
    ((freeNumber rdy).isSome = true ∧ rdy.dir.txns.countP (fun t => decide (t.owner = pf0)) < 4 ∧ rdy.dir.txns.length < 256) ∧
    (let h : Hdr := ⟨0x1220, 1, 0xFF, 7, 2⟩;
      h.txn ≠ 0 ∧ txnOf (withTxn []) pf0 h.txn.toNat = some ⟨7, pf0, 0, []⟩ ∧ (∃ d, lookUp (withTxn []) pf0 (reqOf 2 h 900) true = .ok (d, devInst) ∧ d.acc ≠ .ro ∧
        h.len.toNat = d.size ∧ stagedBytes ⟨7, pf0, 0, []⟩ + d.size ≤ 16384) ∧
      (∃ d, lookUp (withTxn []) pf0 (reqOf 3 h 900) false = .ok (d, devInst) ∧ h.len.toNat = d.size)) ∧
    (txnOf (withTxn []) pf0 7).isSome = true ∧
    (let s := { withTxn [] with time.clock := 1000000 * 100 };
      ∃ x, s.dir.txns.find? (fun y => decide (y.num = 7)) = some x ∧ x.lastOp + 1000000 * dparam s 0x0020 4 ≤ s.time.clock) := by
  refine ⟨servedB_ok (by decide +kernel), by decide +kernel, ⟨by decide, by decide +kernel, ⟨(findParam 0x1220 1).get (by decide +kernel),
    found_ok (by decide +kernel), by decide +kernel, by decide +kernel, by decide +kernel⟩,
    ⟨(findParam 0x1220 1).get (by decide +kernel), found_ok (by decide +kernel), by decide +kernel⟩⟩, by decide +kernel, ⟨⟨7, pf0, 0, []⟩, by decide +kernel, by decide +kernel⟩⟩

/-- A write of POWER_CAP below its range. -/
def badEntry : Entry := ⟨false, 0x1220, 1, devInst, 10, 2⟩

theorem witness_CommitIsAllOrNothing : (commit pf0 rdy [badEntry]).status ≠ 0 := by decide +kernel

theorem witness_CommitsAndDefaultsAreAnswered :
    let es : List Entry := [⟨false, 0x1220, 1, devInst, 300, 2⟩]
    let s := withTxn es
    (Served s pf0 ∧ txnOf s pf0 (7#16).toNat = some ⟨7, pf0, 0, es⟩ ∧
      (∀ g ∈ (layAll (closeTxn s 7) es).2, entryFails pf0 (closeTxn s 7) (layAll (closeTxn s 7) es).1 g = none) ∧
      (s.seed.writable = true ∧ s.seed.copyOk.any (· = true) = true) ∧ (commit pf0 (closeTxn s 7) es).reset = none) ∧
    Accepts rdy pf0 0x0020 2 devInst devInst 0xD5F0 :=
  ⟨⟨servedB_ok (by decide +kernel), by decide +kernel, by decide +kernel, by decide +kernel, by decide +kernel⟩, acceptsB_ok (by decide +kernel)⟩

theorem witness_TransactionCommitAppliesItsWrites :
    let g : Entry := ⟨true, 0x1220, 1, devInst, 899, 2⟩
    let es : List Entry := [⟨false, 0x1220, 1, devInst, 300, 2⟩, ⟨false, 0x1210, 7, devInst, 105, 1⟩]
    Served (withTxn [g]) pf0 ∧ (withTxn [g]).power.mode ≠ .dormant ∧ txnOf (withTxn [g]) pf0 7 = some ⟨7, pf0, 0, [g]⟩ ∧
    (findParam g.index g.sub).isSome = true ∧ readValue (closeTxn (withTxn [g]) 7) g.index g.sub g.inst % 256 ^ ((findParam g.index g.sub).map (·.size)).getD 0 ≠ g.value ∧
    Served (withTxn es) pf0 ∧ txnOf (withTxn es) pf0 7 = some ⟨7, pf0, 0, es⟩ ∧ ((withTxn es).seed.writable = true ∧ 5 ≤ (withTxn es).boot.stage) ∧
    (∀ q ∈ [(0x1220, 1), (0x1210, 7)], ∀ d, findParam q.1 q.2 = some d → denied (withTxn es) pf0 d q.1 q.2 devInst true = false) := by
  refine ⟨servedB_ok (by decide +kernel), by decide +kernel, by decide +kernel, by decide +kernel, by decide +kernel, servedB_ok (by decide +kernel),
    by decide +kernel, by decide +kernel, ?_⟩
  intro q hq d hd
  have h : ∀ q ∈ [(0x1220, 1), (0x1210, 7)], (match findParam q.1 q.2 with
      | some d => denied (withTxn [⟨false, 0x1220, 1, devInst, 300, 2⟩, ⟨false, 0x1210, 7, devInst, 105, 1⟩]) pf0 d q.1 q.2 devInst true
      | none => false) = false := by decide +kernel
  have := h q hq
  rw [hd] at this
  exact this

theorem witness_RestoreDefaultsEmptiesTheJournal :
    let s := { rdy with dir.params := [(pkey 0x0020 4 devInst, 7)] }
    Accepts s pf0 0x0020 2 devInst devInst 0xD5F0 ∧ s.power.mode ≠ .dormant ∧ restored s ≠ [] ∧ (∀ c ∈ restored s, c.index < 0x1100) :=
  ⟨acceptsB_ok (by decide +kernel), by decide +kernel, by decide +kernel, by decide +kernel⟩

theorem witness_RequestedResetsClearTheirScope :
    Accepts rdy pf0 0x1400 4 devInst devInst 0xC01D ∧ Accepts rdy pf0 0x1400 4 devInst devInst 0x7A11 ∧ Accepts rdy pf0 0x1410 1 71 71 0x9C3E ∧
    rdy.power.mode ≠ .dormant :=
  ⟨acceptsB_ok (by decide +kernel), acceptsB_ok (by decide +kernel), acceptsB_ok (by decide +kernel), by decide⟩

/-- A device whose intake holds bytes of a container. -/
def intake (b : List Byte) (total : Nat) : State := keyed { rdy with boot := { rdy.boot with ctTotal := total, ctData := b, ctStatus := 1 } }

theorem witness_ContainerIntakeVerifiesBeforeApplying :
    Accepts rdy pf0 0x1420 1 devInst devInst 512 ∧ Accepts (intake [] 4096) pf0 0x1420 2 devInst devInst (leNat [1, 2, 3]) ∧
    (Accepts (intake (List.replicate 512 0) 512) pf0 0x1420 4 devInst devInst 1 ∧ ctKind (intake (List.replicate 512 0) 512).boot.ctData ≠ 2 ∧
      ∃ e, verifyContainer (intake (List.replicate 512 0) 512) (List.replicate 512 0) = .error e) ∧
    (Accepts (intake keyContainer 512) pf0 0x1420 4 devInst devInst 1 ∧ ctKind (intake keyContainer 512).boot.ctData = 4 ∧
      ∃ c, verifyContainer (intake keyContainer 512) (intake keyContainer 512).boot.ctData = .ok c ∧ c.kind = 4) := by
  refine ⟨acceptsB_ok (by decide +kernel), acceptsB_ok (by decide +kernel), ⟨acceptsB_ok (by decide +kernel), by decide +kernel, refuses_ok (by decide +kernel)⟩,
    acceptsB_ok (by decide +kernel), by decide +kernel, ?_⟩
  obtain ⟨c, h, k⟩ := verifies_ok keyContainer_verifies
  exact ⟨c, h ▸ verify_congr _ _ _ rfl rfl rfl, k⟩

theorem witness_ManagementWritesTakeEffect :
    let halt := { rdy with und.wardens := [{}, { halted := true }] }
    let going := { rdy with power.entry := some ⟨true, 3⟩ }
    Accepts { rdy with und.standbyOk := true } pf0 0x0040 4 devInst devInst 0x5A3D ∧ Accepts halt pf0 0x0040 5 devInst devInst 1 ∧
    Accepts rdy pf0 0x1128 64 devInst devInst 0 ∧ Accepts rdy pf0 0x1230 6 devInst devInst (2 ^ 72 - 1) ∧
    (Accepts rdy pf0 0x1240 2 devInst devInst 2 ∧ rdy.power.mode = .running ∧ rdy.power.entry = none ∧ rdy.power.committed = none) ∧
    Accepts rdy pf0 0x1240 2 devInst devInst 3 ∧ Accepts going pf0 0x1240 2 devInst devInst 0 ∧ going.power.entry.isSome = true := by
  refine ⟨acceptsB_ok ?_, acceptsB_ok ?_, acceptsB_ok ?_, acceptsB_ok ?_, ⟨acceptsB_ok ?_, rfl, rfl, rfl⟩, acceptsB_ok ?_, acceptsB_ok ?_, rfl⟩ <;> decide +kernel

end Sys2Proof.Tests
end

