-- ==== Sys2Proof/Tests/W3.lean ====
section
/-!
SUPPORT. Witnesses: the rows that are one write of a partition's or of the device's parameters.
-/
namespace Sys2Proof.Tests
set_option Elab.async false
open Sys2Proof.Machine Sys2Proof.Claims

/-- `rdy` with committed parameters. -/
def withParams (ps : Sparse Nat) : State := { rdy with dir.params := ps }

/-- A RING_CFG of a host ring of partition 0: 64 entries, first sequence number 1, not enabled. -/
def hostCfg : Nat := 0x10000 + (0x20000 <<< 64) + (0x30000 <<< 128) + (6 <<< 192) + (1 <<< 256)

/-- The ring of partition 0 that the configuration makes. -/
def hostRing : Ring := { part := 0, sqBase := 0x10000, cqBase := 0x20000, cswAddr := 0x30000, nextSeq := 1, csw := 0, state := 1 }

/-- A descriptor of a table with 16 rows of 32 elements, VALID. -/
def someTable : Nat := 16 + (32 <<< 32) + (1 <<< 58)

theorem witness_PartitionWritesTakeEffect :
    (let s := withParams [(pkey 0x2100 56 0, hostCfg)];
      let v := putBit (ringCfg s (ownInst s pf0 0) 55) 200 true;
      Accepts s pf0 (0x2100 + 55 / 128) (55 % 128 + 1) 0 0 v ∧ cfgEnable (ringCfg s 0 55) = false ∧ ownInst s pf0 0 = 0 ∧ ringCfg s 0 55 < 256 ^ 48 ∧
      (∀ d, findParam (0x2100 + 55 / 128) (55 % 128 + 1) = some d → merged s d (0x2100 + 55 / 128) (55 % 128 + 1) 0 v = v) ∧
      ringAddrs s 0 v = some (0x10000, 0x20000, 0x30000)) ∧
    (let s := { withParams [(pkey 0x2100 1 0, putBit hostCfg 200 true)] with trail.rings := [(0, hostRing)] };
      let v := putBit (ringCfg s (ownInst s pf0 0) 0) 200 false;
      Accepts s pf0 (0x2100 + 0 / 128) (0 % 128 + 1) 0 0 v ∧ cfgEnable (ringCfg s 0 0) = true ∧ ownInst s pf0 0 = 0 ∧
      (∀ d, findParam (0x2100 + 0 / 128) (0 % 128 + 1) = some d → merged s d (0x2100 + 0 / 128) (0 % 128 + 1) 0 v = v) ∧ cfgEnable v = false ∧
      ringOf s (ringFirst s 0 + 0) = some hostRing) ∧
    (Accepts rdy pf0 0x2003 1 0 0 1048576 ∧ 1048576 ≠ htabSize rdy 0 ∧ htabSize rdy 0 < 2 ^ 32) ∧
    (let s := { rdy with root.insts := [(16383, { part := 0, owner := .run 5 9 })] };
      Accepts s pf0 0x2601 3 0 0 (5 + 9 * 2 ^ 64) ∧ instanceOfRun s (ringFirst s 0 + 5) 9 = some 16383) ∧
    (let s := withParams [(pkey 0x3811 128 0, someTable)];
      Accepts s pf0 (0x3810 + 255 / 128) (255 % 128 + 1) 0 0 (putBit (tableDesc s (ownInst s pf0 0) 255) 58 false) ∧ ownInst s pf0 0 = 0 ∧
      tdValid (tableDesc s 0 255) = true ∧ tableDesc s 0 255 < 2 ^ 59) ∧
    (Accepts rdy pf0 0x5803 1 0 0 (1 <<< 32) ∧ 1 <<< 32 ≠ param rdy 0x5803 1 0 ∧ param rdy 0x5803 1 0 < 2 ^ 64) ∧ rdy.power.mode ≠ .dormant := by
  have e : ∀ (s : State) (i j v : Nat), (match findParam i j with
      | some d => decide (merged s d i j 0 v = v)
      | none => false) = true → ∀ d, findParam i j = some d → merged s d i j 0 v = v := by
    intro s i j v h d hd
    rw [hd] at h
    exact of_decide_eq_true h
  refine ⟨⟨acceptsB_ok ?_, ?_, ?_, ?_, e _ _ _ _ ?_, ?_⟩, ⟨acceptsB_ok ?_, ?_, ?_, e _ _ _ _ ?_, ?_, ?_⟩, ⟨acceptsB_ok ?_, ?_, ?_⟩, ⟨acceptsB_ok ?_, ?_⟩,
    ⟨acceptsB_ok ?_, ?_, ?_, ?_⟩, ⟨acceptsB_ok ?_, ?_, ?_⟩, ?_⟩ <;> decide +kernel

/-- A device whose UNIT_SEL names a unit in a given summary. -/
def selected (u : Nat) (x : UnitSum) : State := { withParams [(pkey 0x6004 1 devInst, u)] with seed.units := [(u, x)] }

theorem witness_DeviceWritesTakeEffect :
    Accepts rdy pf0 0x5004 1 devInst devInst 1 ∧
    (let s := { withParams [(pkey 0x5008 1 devInst, 5)] with fab.isManager := true };
      Accepts s pf0 0x5008 3 devInst devInst 1 ∧ field (dparam s 0x5008 1) 15 0 ≠ 0) ∧
    (let s := selected (unitGrove 431) {};
      s.fb.round = none ∧ Accepts s pf0 0x6004 3 devInst devInst 0xFE01 ∧ unitKind (dparam s 0x6004 1) ≠ 3) ∧
    (let s := selected (unitGrove 0) { state := 2 };
      Accepts s pf0 0x6004 3 devInst devInst 0xFE02 ∧ unitKind (dparam s 0x6004 1) ≠ 3) ∧
    (let s := selected (unitPort 47) { state := 2 };
      Accepts s pf0 0x6004 3 devInst devInst 0xFE02 ∧ unitKind (dparam s 0x6004 1) = 3) ∧
    Accepts (selected (unitGrove 0) { state := 2, retired := true }) pf0 0x6004 3 devInst devInst 0xFE03 ∧
    Accepts (selected (unitGrove 0) { strikes := 2 }) pf0 0x6004 3 devInst devInst 0xFE04 ∧ Accepts rdy pf0 0x6006 2 devInst devInst 1 ∧
    (Accepts rdy pf0 0x7001 2 devInst devInst 1 ∧ rdy.time.src = 0 ∧ second rdy < 1) ∧
    (let s := { rdy with time.src := 1 };
      Accepts s pf0 0x7001 2 devInst devInst 1 ∧ s.time.src = 1) ∧
    Accepts rdy pf0 0x7402 3 0 0 0x1FF ∧ Accepts rdy pf0 0x7412 1 devInst devInst 0x3F ∧ Accepts rdy pf0 0x7420 3 devInst devInst 0x3F := by
  refine ⟨acceptsB_ok ?_, ⟨acceptsB_ok ?_, ?_⟩, ⟨?_, acceptsB_ok ?_, ?_⟩, ⟨acceptsB_ok ?_, ?_⟩, ⟨acceptsB_ok ?_, ?_⟩, acceptsB_ok ?_, acceptsB_ok ?_, acceptsB_ok ?_,
    ⟨acceptsB_ok ?_, ?_, ?_⟩, ⟨acceptsB_ok ?_, ?_⟩, acceptsB_ok ?_, acceptsB_ok ?_, acceptsB_ok ?_⟩ <;> decide +kernel

end Sys2Proof.Tests
end

