-- ==== Sys2Proof/Tests/W4.lean ====
section
/-!
SUPPORT. Witnesses: mailboxes, the field bus, the islands, Wardens, pins and events.
-/
namespace Sys2Proof.Tests
set_option Elab.async false
open Sys2Proof.Machine Sys2Proof.Claims

theorem witness_MailboxRequestsAreAnsweredOnce :
    (let s := setMailbox rdy 1 0 { busy := true };
      reaches s (sessionOf 1 0) = true ∧ (mailbox s 1 0).busy = true) ∧
    (let q := mailReq { reqHdr := (0xFF0112200005#96).setWidth 128, reqValue := 0 % 256 ^ 4096 };
      reaches rdy (sessionOf 0 0) = true ∧ Served rdy (sessionOf 0 0) ∧ (mailbox rdy 0 0).busy = false ∧ q.op = 5 ∧ q.txn = 0 ∧
      ∃ d inst, lookUp rdy (sessionOf 0 0) q false = .ok (d, inst)) ∧
    (let r : Rsp := ⟨0x85, 0x1220, 1, 0xFF, 0, 8, 0, 0⟩;
      mbSource 1 (.fn 72) = .host 1 72 ∧ mbSource 1 .warden = .warden 1 ∧ (mbOf rdy (.warden 1)).waiting = none ∧
      (mbOf (setMb rdy (.host 1 72) { busy := true, waiting := some (7, r) }) (.host 1 72)).waiting = some (7, r) ∧
      (mbOf (setMb rdy (.warden 1) { busy := true, waiting := some (7, r) }) (.warden 1)).waiting = some (7, r)) :=
  ⟨by decide +kernel, ⟨by decide +kernel, servedB_ok (by decide +kernel), by decide +kernel, by decide +kernel, by decide +kernel,
    (findParam 0x1220 1).get (by decide +kernel), devInst, found_ok (by decide +kernel)⟩, by decide +kernel⟩

/-- A frame on bus B to node 0 from node 5 with priority 3 and tag 0x1FF. -/
def frame (kind dst : Nat) (data : BitVec 512) : CanFrame := ⟨1, true, true, true, false, 15, canId 3 kind dst 5 0x1FF, data⟩

theorem witness_FieldRequestsAreAnsweredOnTheirBus : busOn rdy 1 = true ∧
    canIgnored { frame 0 0 0 with fd := false } = true ∧
    (let f := frame 0 0x7F 2;
      canIgnored f = false ∧ canKind f = 0 ∧ canDst f = 0x7F ∧ field f.data.toNat 7 0 ∉ [1, 4, 5]) ∧
    (let f := frame 0 0 0xFF0112200005;
      let h := field f.data.toNat 95 0;
      canIgnored f = false ∧ canKind f = 0 ∧ canDst f = nodeId rdy ∧ field h 7 0 = 5 ∧ bitOf h 8 = false ∧ field h 63 48 = 0 ∧ rdy.fieldBus.done = [] ∧
      Served rdy (.field f.bus (BitVec.ofNat 7 (canSrc f))) ∧ ∃ d inst, lookUp rdy (.field f.bus (BitVec.ofNat 7 (canSrc f)))
        { op := 5, index := field h 31 16, sub := field h 39 32, inst := field h 47 40, len := field h 79 64 } false = .ok (d, inst)) :=
  ⟨by decide +kernel, by decide, by decide +kernel, by decide +kernel, by decide +kernel, by decide +kernel, by decide +kernel, by decide +kernel, by decide +kernel,
    rfl, servedB_ok (by decide +kernel), (findParam 0x1220 1).get (by decide +kernel), devInst, found_ok (by decide +kernel)⟩

theorem witness_SegmentsGoInSequence :
    (let x : CanRx := ⟨1, 5, 0x1FF, 3, 4096 <<< 64, [], 7⟩;
      let s := { rdy with fieldBus := { rdy.fieldBus with rx := [x] } };
      let f := frame 2 0 8;
      let g := frame 2 0 65;
      busOn s f.bus = true ∧ canIgnored f = false ∧ canKind f = 2 ∧ canDst f = nodeId s ∧ s.fieldBus.rx = [x] ∧ x.bus = f.bus ∧ x.src = canSrc f ∧ x.xfer = canXfer f ∧
      canByte f 0 = x.segs + 1 ∧ canByte f 0 ≤ 65 ∧ canByte f 0 ≠ segments (field x.hdr 79 64) ∧
      canByte g 0 ≠ x.segs + 1 ∧ canByte g 0 ≤ 65) ∧
    (let x : CanTx := ⟨1, 5, 0x1FF, 3, [], 20, 8, 16, 0⟩;
      let s := { rdy with fieldBus := { rdy.fieldBus with tx := [x] } };
      let f := frame 3 0 20;
      let g := frame 3 0 16;
      let a := frame 3 0 (65 + 1 * 256 + 0x13 * 65536);
      busOn s f.bus = true ∧ canIgnored f = false ∧ canKind f = 3 ∧ canDst f = nodeId s ∧ s.fieldBus.tx = [x] ∧ x.bus = f.bus ∧ x.dst = canSrc f ∧ x.xfer = canXfer f ∧
      canByte f 0 = x.total ∧ canByte f 0 ≤ 65 ∧ canByte f 1 = 0 ∧ canByte a 0 ≤ 65 ∧ canByte a 1 = 1 ∧ canByte g 1 = 0 ∧ canByte g 0 ≤ 65 ∧ x.acked ≤ canByte g 0 ∧ canByte g 0 ≤ x.sent ∧ canByte g 0 < x.total) ∧
    (let x : CanTx := ⟨1, 5, 0x1FF, 3, [], 20, 8, 16, 3⟩;
      x.bus = 1 ∧ x.dst = (5#7).toNat ∧ x.xfer = (0x1FF#9).toNat ∧ 3 ≤ x.resends ∧ { x with resends := 2 }.resends < 3) := by decide +kernel

theorem witness_FieldBusAnnouncesAndWatchesItsNode :
    (rdy.fieldBus.started = true ∧ rdy.fieldBus.listenOnly = false ∧ rdy.fieldBus.announced = false ∧ 2 < 3 ∧ 3 ≤ 3) ∧
    (let s := { rdy with fieldBus := { rdy.fieldBus with announced := true, listenUntil := 50 }, time.clock := 50 };
      let f : CanFrame := ⟨0, true, true, true, false, 15, canId 7 4 0x7F 0 0, 0x0201⟩;
      busOn s f.bus = true ∧ canIgnored f = false ∧ canKind f = 4 ∧ s.fieldBus.announced = true ∧ s.time.clock ≤ s.fieldBus.listenUntil ∧ canSrc f = nodeId s ∧
      field f.data.toNat 71 8 ≠ s.fuses.serial.toNat ∧ dparam s 0x0030 4 ≠ 0) ∧
    (let s := { rdy with fieldBus := { rdy.fieldBus with ratePending := true, carrying := some (1, 5, 0x1FF) } };
      let o : CanOut := ⟨1, canId 3 1 5 0 0x1FF, 0, false⟩;
      s.fieldBus.ratePending = true ∧ responseWaits s = false ∧ responseWaits { s with fieldBus := { s.fieldBus with out := [o] } } = true) ∧
    (1 < rdy.fieldBus.busState.length ∧ lget 0 rdy.fieldBus.busState 1 ≠ 2) := by decide +kernel

theorem witness_StandbyTakesOverTheBlock :
    (let s := { rdy with und.standbyOk := true, time.clock := 50000 };
      s.und.standbyOk = true ∧ s.boot.stage = 10 ∧ s.und.lastBeacon + 50000 ≤ s.time.clock) ∧
    (let s := { rdy with und := { standbyOk := true, wardens := [{ halted := true }, { halted := true }], roleSwapPending := true, formerRestarting := true } };
      wardenState s = 3 ∧ s.und.roleSwapPending = true ∧ s.und.formerRestarting = true) := by decide +kernel

/-- A device at which a source routed to a target is pending. -/
def pendingAt (src route cfg : Nat) : State :=
  { rdy with dir.params := [(pkey (0x1110 + src / 128) (src % 128 + 1) devInst, route), (pkey (0x1118 + src / 128) (src % 128 + 1) devInst, cfg)],
             ev := { pending := bit1024 0 src true, met := [src], msixEnable := [0, 73], vecUnmasked := [0, 320 * 73] } }

/-- A device whose first Warden is as given. -/
def withWarden (x : Warden) : State := { rdy with und.wardens := [x, {}] }

theorem witness_WardenWindowsAndTraps :
    (wardenAt (withWarden wdn) 0 = wdn ∧ wdn.halted = false ∧ WardenWhole (withWarden wdn) 0 ∧ WardenFree (withWarden wdn) 0) ∧
    (wdn.wptr ≠ 7 ∧ wdn.wres < 7 ∧ 1 < { wdn with wres := 2 }.wres ∧ 7 ≤ { wdn with wres := 7 }.wres ∧ wdn.wres ≤ 1 ∧ wdn.spilled = 0 ∧
      { wdn with spilled := 1 }.spilled ≠ 0) ∧
    (let s := withWarden { wdn with wptr := 7, trapWptr := 3 };
      let t := { pendingAt 0x200 1 2 with und.wardens := s.und.wardens };
      s.ev.late = [] ∧ s.ev.bursts = [] ∧ bestFor s 1 = none ∧ t.ev.late = [] ∧ (wardenAt t 0).stores = [] ∧ (wardenAt t 0).trapWptr ≠ 7 ∧
      bestFor t 1 = some 0x200) ∧
    WardenFree (withWarden { wdn with wres := 7 }) 0 ∧ WardenWhole (withWarden { wdn with wptr := 7 }) 0 ∧ { wdn with wptr := 7 }.stores = [] := by
  unfold WardenWhole WardenFree
  decide +kernel

theorem witness_WardenMemoryInstructions :
    (wdn.stores = [] ∧ accessTrap (0x10000004#32).toNat (accBytes .word) false = none ∧ accessTrap (0x1007FFFF#32).toNat (accBytes .byte) true = none ∧
      (List.replicate 7 (0, 1, 0)).length < 8 ∧ (0x10000002#32).toNat % 4 ≠ 0) ∧
    (let x := { wdn with wres := 2, spillPtr := 0x1007FFC0 };
      1 < x.wres ∧ x.spillPtr.toNat = 0x1007FFC0 ∧ 0x1007FFC0 % 4 = 0 ∧ 0x10000000 ≤ 0x1007FFC0 ∧ 0x1007FFC0 + 64 ≤ 0x10080000 ∧ 0x1007FFC0 + 64 ≤ x.spillLimit.toNat) ∧
    (let x := { wdn with wres := 6, spilled := 1, spillPtr := 0x10000040 };
      x.wres < 7 ∧ x.spilled ≠ 0 ∧ x.spillPtr.toNat = 0x10000000 + 64) := by decide +kernel

theorem witness_WardensTakeAndMaskEvents :
    let s := { pendingAt 0x1E3 2 2 with und.wardens := [wdn, wdn] }
    WardenFree s 1 ∧ WardenWhole s 1 ∧ s.ev.late = [] ∧ bestFor s (1 + 1) = some 0x1E3 := by
  unfold WardenWhole WardenFree
  decide +kernel

theorem witness_PinSwitchesStartFromTheOldFunction :
    (rdy.und.mioFunc.length = 40 ∧ rdy.und.mioDeferred = [] ∧ lget 3 rdy.und.mioFunc 39 ≠ mioCommitted rdy 39) ∧
    (let s := { rdy with und.mioFunc := List.replicate 40 0 };
      lget 3 s.und.mioFunc 39 = mioCommitted s 39) ∧
    (let s := { withParams [(pkey 0x1000 1 devInst, 2)] with und.mioFunc := List.replicate 40 0 };
      lget 3 s.und.mioFunc 0 ≠ mioCommitted s 0 ∧ (mioSignal 0 (lget 3 s.und.mioFunc 0)).bind mioController = some 6 ∧ mioDrive s 0 = some false ∧
      mioDrive { s with und.mioFunc := List.replicate 40 3 } 0 = none) ∧
    (let s := { rdy with und.mioDeferred := [(39, 7)], time.clock := 5000007 };
      let o : CanOut := ⟨1, canId 3 1 5 0 0x1FF, 0, false⟩;
      let w := { rdy with und.mioDeferred := [(39, 8)], time.clock := 5000007, fieldBus := { rdy.fieldBus with carrying := some (1, 5, 0x1FF), out := [o] } };
      (39, 7) ∈ s.und.mioDeferred ∧ (∀ d ∈ s.und.mioDeferred, d.2 + 5000000 ≤ s.time.clock) ∧ responseWaits rdy = false ∧
      responseWaits w = true ∧ ∀ d ∈ w.und.mioDeferred, w.time.clock < d.2 + 5000000) := by decide +kernel

theorem witness_OccurrencesPendOverrunAndCoalesce :
    (sourceReserved 0x1FF = true ∧ bitOf (evConfig (pendingAt 0x200 0 0) 0x200) 1 = false) ∧
    (sourceReserved 0x3FF = false ∧ bitOf (evConfig rdy 0x3FF) 1 = true ∧ rdy.ev.pending.getLsbD 0x3FF = false ∧ 0x200 ≤ 0x3FF ∧ 0x1E3 < 0x200 ∧
      (pendingAt 0x3FF 0 2).ev.pending.getLsbD 0x3FF = true) ∧
    (let s := { rdy with ev.due := [(0x200, 9)], time.clock := 9 };
      0x200 ≤ 0x200 ∧ sfind s.ev.due 0x200 = some 9 ∧ 9 ≤ s.time.clock ∧ { s with time.clock := 8 }.time.clock < 9) := by decide +kernel

theorem witness_DeliveryIssuesTheLowestEligibleSource :
    (let s := pendingAt 0x200 4 2;
      s.ev.late = [] ∧ bestFor s (1 + 3) = some 0x200 ∧ vectorMasked s 73 0 = false ∧ vectorMasked { s with ev.fnMask := [73] } 73 0 = true ∧ bestFor s (0 + 3) = none) ∧
    (rdy.ev.late = [] ∧ rdy.ev.bursts = [] ∧ bestFor rdy 4 = none) ∧
    (let s := { rdy with ev.held := [(63, ⟨0, 9, [1]⟩)], time.clock := 9 };
      sfind s.ev.held 63 = some ⟨0, 9, [1]⟩ ∧ 9 ≤ s.time.clock ∧ { s with time.clock := 8 }.time.clock < 9 ∧
      ∀ n < 1024, s.ev.pending.getLsbD n = true → evGroup s n ≠ 63) ∧
    (let s := { pendingAt 5 1 (2 + 63 * 4) with ev.held := [(63, ⟨0, 9, [1]⟩)], time.clock := 9 };
      sfind s.ev.held 63 = some ⟨0, 9, [1]⟩ ∧ 9 ≤ s.time.clock ∧ ready s 5 = true ∧ evGroup s 5 = 63) := by decide +kernel

theorem witness_ConfigurationWritesTakeEffect : lget false rdy.boot.hostL0 1 = true ∧ 13 < 14 ∧ (23 < 24 ∨ (72 : Nat) = 0) := by decide

end Sys2Proof.Tests
end

