-- ==== Sys2Proof/Tests/W5.lean ====
section
/-!
SUPPORT. Witnesses: sleep, wake and groves in service; the Trailhead; stands, models and step lists.
-/
namespace Sys2Proof.Tests
set_option Elab.async false
open Sys2Proof.Machine Sys2Proof.Claims

theorem witness_SleepIsEnteredFromIdleness :
    (isReady rdy = true ∧ sleepReady rdy = true ∧ dparam rdy 0x1240 3 ≠ 0 ∧ rdy.power.entry = none ∧ rdy.power.mode = .running ∧ rdy.power.committed = none) ∧
    { rdy with power.entry := some ⟨false, 4⟩ }.power.entry = some ⟨false, 4⟩ ∧ { rdy with power.entry := some ⟨true, 4⟩ }.power.entry = some ⟨true, 4⟩ ∧
    { rdy with power.committed := some true }.power.committed = some true := by decide +kernel

/-- A DORMANT device with every wake enabled and a wake pin and timer chosen. -/
def dormant : State :=
  { rdy with power := { mode := .dormant }, time.clock := 1000000000, pins := { rdy.pins with perst := [false, false] },
             dir.params := [(pkey 0x1240 5 devInst, 0x0E), (pkey 0x1240 6 devInst, 4), (pkey 0x1240 7 devInst, 1), (pkey 0x1000 38 devInst, 0)] }

theorem witness_WakesEndSleep :
    (let s := { rdy with power.entry := some ⟨false, 4⟩ };
      s.power.entry.isSome = true ∧ s.power.committed = none ∧ s.power.mode = .running) ∧
    (let s := { rdy with power.mode := .idle };
      s.power.mode = .idle ∧ s.power.entry = none ∧ s.power.committed = none) ∧
    (dormant.power.mode = .dormant ∧ dormant.power.entry = none ∧ dormant.power.committed = none ∧ dormant.power.wakeAfter = false) ∧
    (lget false dormant.pins.perst 1 = false ∧ bitOf (dparam dormant 0x1240 5) 1 = true) ∧
    (dparam dormant 0x1240 6 = 4 ∧ 4 % 4 < 3 ∧ 37 = 37 + 4 % 4 ∧ 4 / 4 % 2 = 1 ∧ bitOf dormant.und.mioIn 37 ≠ true ∧ isGpio 37 (mioCommitted dormant 37) = true ∧
      bitOf (dparam dormant 0x1240 5) 2 = true) ∧
    (dparam dormant 0x1240 7 ≠ 0 ∧ bitOf (dparam dormant 0x1240 5) 3 = true ∧
      dormant.power.dormantAt + 1000000000 * dparam dormant 0x1240 7 ≤ dormant.time.clock) ∧
    (let s := { dormant with power.wakeAfter := true };
      s.power.mode = .dormant ∧ s.power.wakeAfter = true ∧ s.pins.tripped = false) := by decide +kernel

theorem witness_GrovesJoinAndLeaveAtBoundaries :
    (let s := { rdy with groves.leaving := [(431, 0)] };
      sfind s.groves.departing 431 = none ∧ sfind s.groves.leaving 431 = some 0 ∧ sfind s.stands.lists 0 = none ∧ mayLeave s 0 = true ∧ groveRuns s 431 = false ∧
      Settled s ∧ groveEnabled s 431 = true ∧ groveEnabled { s with dir.params := [(pkey 0x1230 6 devInst, 0)] } 431 = false ∧
      groveRuns { s with gr.cores := [(431 * 64, { task := 0 })] } 431 = true ∧
      sfind { s with groves.departing := [(431, 0)] }.groves.departing 431 = some 0) ∧
    (let s := { rdy with groves.joining := [(0, .zeroing), (431, .powering)] };
      sfind s.groves.joining 431 = some .powering ∧ sfind s.groves.joining 0 = some .zeroing ∧ (groveTarget s 431).isSome = true) := by
  unfold Settled
  decide +kernel

/-- A device whose ring 0 is the host ring, with the commands given in flight. -/
def cmdsAre (cs : List Cmd) : State := { rdy with trail := { rings := [(0, hostRing)], cmds := cs } }

/-- A decided command of ring 0 with sequence number 1: its entry and relocations. -/
def cmd1 (entry : BitVec 512) (rs : List Reloc) : Cmd := { ring := 0, seq := 1, entry, part := 0, decided := true, relocs := some rs, fetchDev := 7 }

/-- An entry with an opcode and further bytes. -/
def entry (op rest : Nat) : BitVec 512 := BitVec.ofNat 512 (1 + (op <<< 64) + rest)

/-- A handle entry of a kind with all rights. -/
def hnd (kind base len : Nat) (object : Nat := 0) : HEntry := { base, length := len, kind, rights := 7, valid := true, object }

/-- A relocated handle field. -/
def rel (off : Nat) (e : HEntry) (desc : Nat := 0) : Reloc := ⟨off, 1, e, desc⟩

/-- `Begins`, as a truth value. -/
def beginsB (s : State) (ring : Nat) (seq : BitVec 64) (op : Nat) (c : Cmd) : Bool :=
  decide (begin? s ring seq op = (s, some c)) && s.trail.cmds.all (fun d => decide (d.ring ≠ ring) || decide (d.seq ≠ seq) || d.dup || decide (d = c))

theorem beginsB_ok {s : State} {ring : Nat} {seq : BitVec 64} {op : Nat} {c : Cmd} (h : beginsB s ring seq op c = true) : Begins s ring seq op c := by
  simp only [beginsB, Bool.and_eq_true, decide_eq_true_eq, List.all_eq_true, Bool.or_eq_true] at h
  refine ⟨h.1, fun d hd h1 h2 h3 => ?_⟩
  rcases h.2 d hd with ((h | h) | h) | h
  · exact absurd h1 h
  · exact absurd h2 h
  · rw [h3] at h; cases h
  · exact h

/-- Every command of a ring is decided. -/
theorem allDecided {s : State} (r : Nat) (h : s.trail.cmds.all (·.decided) = true) : AllDecided s r := fun d hd _ _ =>
  .inl (List.all_eq_true.mp h d hd)

theorem witness_DoorbellsMoveTailAndHead :
    doorbellsOpen (atStage 9) = false ∧
    (doorbellsOpen rdy = true ∧ doorbellRing rdy ⟨0, 0, 4095, 0, true⟩ = none) ∧
    (let s := cmdsAre [];
      let d : Doorbell := ⟨0, 0, 0, 64, true⟩;
      doorbellsOpen s = true ∧ d.full = true ∧ doorbellRing s d = some hostRing ∧ (d.value - hostRing.sqHead).toNat ≤ depth hostRing ∧
      (d.value - hostRing.sqTail).toNat ≤ depth hostRing ∧ d.value ≠ hostRing.sqTail ∧ depth hostRing < (65 - hostRing.sqHead).toNat ∧ hostRing.state = 1 ∧
      (0 - hostRing.cqHead).toNat ≤ (hostRing.cqTail - hostRing.cqHead).toNat ∧ hostRing.stopRec = none) ∧
    (let g := { hostRing with state := 3, stopRec := some (3, 1) };
      let s := { rdy with trail.rings := [(4095, g)] };
      ringOf s 4095 = some g ∧ g.isLocal = false ∧ g.stopRec = some (3, 1) ∧ slotFree s 4095 g = true ∧ g.source < 512) := by decide +kernel

theorem witness_FetchTakesEntriesInSequence :
    let g := { hostRing with sqTail := 1, nextSeq := 5 }
    let s := { rdy with trail.rings := [(4095, g)] }
    (ringOf s 4095 = some g ∧ g.isLocal = false ∧ mayFetch s 4095 g = true) ∧
    (BitVec.ofNat 64 (cf (5#512).toNat 7 0) = g.nextSeq ∧ cmdOf s 4095 5 = none) ∧
    (BitVec.ofNat 64 (cf (4#512).toNat 7 0)).toNat < g.nextSeq.toNat ∧ g.nextSeq.toNat < (BitVec.ofNat 64 (cf (6#512).toNat 7 0)).toNat ∧
    (let c : Cmd := { ring := 4095, seq := 5, entry := entry 0x01 0, part := 0 };
      c.dup = false ∧ c.begun = false ∧ c.result = none ∧ c.decided = false ∧ c.relocs = none ∧ c.shadowErr = none ∧
      handleFields s c.part c.entry.toNat = []) ∧
    (opcodeOf (5#512).toNat ∉ opcodes ∧ ∀ d ∈ s.trail.cmds, d.ring ≠ 4095) := by decide +kernel

theorem witness_CompletionWritesRecordThenStatusWord :
    let c := { cmd1 (entry 1 0) [] with begun := true, result := some ⟨0, 0, 0⟩ }
    let s := cmdsAre [c]
    (ringOf s 0 = some hostRing ∧ hostRing.isLocal = false ∧ hostRing.state ≠ 2 ∧ hostRing.source < 512 ∧ recordable s 0 1 = some c ∧ c.result = some ⟨0, 0, 0⟩ ∧
      c.dup = false ∧ isHandleCmd c = false ∧ opcodeOf c.entry.toNat ≠ 0x11 ∧ 1 = hostRing.csw + 1 ∧ (1#64).toNat ≠ 0 ∧ hostRing.written = []) ∧
    (let d := { c with dup := true };
      recordable (cmdsAre [d]) 0 1 = some d ∧ d.dup = true) ∧ AllDecided s 0 ∧ AllDecided (cmdsAre [{ c with dup := true }]) 0 :=
  ⟨by decide +kernel, by decide +kernel, allDecided _ rfl, allDecided _ rfl⟩

theorem witness_HandleCommandsSetAndClearEntries :
    (∃ c, Begins (cmdsAre [cmd1 (entry 0x01 0) []]) 0 1 0x01 c) ∧
    (let c := cmd1 (entry 0x08 (0xFFFFF <<< 128)) [];
      Begins (cmdsAre [c]) 0 1 0x08 c ∧ (hEntry (cmdsAre [c]) c.part 0xFFFFF).valid = false ∧ handleCmdIndex c = 0xFFFFF ∧
      (let s := { cmdsAre [c] with trail.handles := [(0xFFFFF, hnd 1 0 64)] };
        Begins s 0 1 0x08 c ∧ (hEntry s c.part 0xFFFFF).valid = true)) ∧
    (let c := cmd1 (entry 0x09 (1 <<< 128)) [];
      Begins (cmdsAre [c]) 0 1 0x09 c) ∧
    (let c := { cmd1 (entry 0x08 (0xFFFFF <<< 128)) [] with begun := true, result := some ⟨stOk, 0, 0⟩ };
      let d := { cmd1 (entry 0x09 (0x100001 <<< 128)) [] with begun := true, result := some ⟨stOk, 0, 0⟩ };
      let x := { cmd1 (entry 0x40 0) [rel 16 (hnd 1 0 64)] with ring := 9 };
      let s := { cmdsAre [d] with trail := { rings := [(0, hostRing)], cmds := [d], handles := [(1, hnd 1 0 64)] } };
      (ringOf (cmdsAre [c]) 0 = some hostRing ∧ hostRing.isLocal = false ∧ hostRing.state ≠ 2 ∧ hostRing.source < 512 ∧ cmdOf (cmdsAre [c]) 0 1 = some c ∧
        1 = hostRing.csw + 1 ∧ (1#64).toNat ≠ 0 ∧ hostRing.written = [] ∧ opcodeOf c.entry.toNat = 0x08 ∧
        (hEntry (cmdsAre [c]) c.part (handleCmdIndex c)).valid = false) ∧
      (cmdOf s 0 1 = some d ∧ opcodeOf d.entry.toNat = 0x09 ∧ clearFree s d = true ∧ (hEntry s d.part (handleCmdIndex d)).valid = true ∧
        (hEntry s d.part (handleCmdIndex d)).gen = hGen (cf d.entry.toNat 19 16)) ∧
      clearFree { s with trail.cmds := [x, d] } d = false ∧ AllDecided (cmdsAre [c]) 0 ∧ AllDecided s 0) := by
  refine ⟨⟨_, beginsB_ok (c := cmd1 (entry 0x01 0) []) ?_⟩, ⟨beginsB_ok ?_, ?_, ?_, beginsB_ok ?_, ?_⟩, beginsB_ok ?_, ?_, ?_, ?_, allDecided _ rfl,
    allDecided _ rfl⟩ <;> decide +kernel

end Sys2Proof.Tests
end

