-- ==== Sys2Proof/Tests/W6.lean ====
section
/-!
SUPPORT. Witnesses: transfers, stands, models, step lists, the Thicket and live rows.
-/
namespace Sys2Proof.Tests
set_option Elab.async false
open Sys2Proof.Machine Sys2Proof.Claims

/-- Nothing is cached and no port is fenced in a state whose Canopy and units are those of `rdy`. -/
theorem uncached {s : State} (h1 : s.canopy = rdy.canopy) (h2 : s.seed = rdy.seed) (h3 : s.mem.latent = []) : Uncached s := by
  unfold Uncached Settled unitSum
  rw [h1, h2]
  exact ⟨rfl, rfl, ⟨rfl, rfl, rfl⟩, h3, fun _ _ => Nat.zero_ne_add_one 1⟩

theorem witness_TransferCommandsMoveTheirBytes :
    (let c (x y : HEntry) := cmd1 (entry 0x40 (64 <<< (8 * 40))) [rel 16 x, rel 20 y];
      let hb := hnd kHostbuf 0x1000 4096;
      let db := hnd kBuffer 0x2000 4096;
      Begins (cmdsAre [c hb hb]) 0 1 0x40 (c hb hb) ∧ ringOf (cmdsAre [c hb hb]) 0 = some hostRing ∧ relocAt (c hb db) 16 = some hb ∧ relocAt (c hb db) 20 = some db ∧
      hb.kind = kHostbuf ∧ db.kind ≠ kHostbuf ∧ Begins (cmdsAre [c hb db]) 0 1 0x40 (c hb db) ∧ Uncached (cmdsAre [c hb db]) ∧
      Begins (cmdsAre [c db hb]) 0 1 0x40 (c db hb) ∧ firstPoison (cmdsAre [c db hb]) (db.base + cf (c db hb).entry.toNat 31 24) 64 = none) ∧
    (let g := hnd kGraph 0x4000 4096;
      let c := cmd1 (entry 0x20 0) [rel 16 g];
      Begins (cmdsAre [c]) 0 1 0x20 c ∧ relocAt c 16 = some g ∧ relocAt c 20 = none) ∧
    (let h := hnd kHostbuf 0x1000 4096;
      let c := cmd1 (entry 0x50 (7 <<< 128)) [rel 20 h];
      let d := cmd1 (entry 0x51 (7 <<< 128)) [];
      let on := fun (x : Cmd) => { cmdsAre [x] with fab := { usable := List.range 12, peers := [(7, { inc := some 1 })] }, dir.params := [(pkey 0x5001 2 devInst, 9), (pkey 0x5005 1 devInst, 0)] };
      Begins (cmdsAre [c]) 0 1 0x50 c ∧ relocAt c 20 = some h ∧ h.kind = kHostbuf ∧ cf c.entry.toNat 17 16 = 7 ∧ hasRoute (cmdsAre [c]) 7 = false ∧
      Begins (on c) 0 1 0x50 c ∧ hasRoute (on c) 7 = true ∧ (peerOf (on c) 7).inc.isSome = true ∧
      Begins (cmdsAre [d]) 0 1 0x51 d ∧ hasRoute (cmdsAre [d]) 7 = false ∧ Begins (on d) 0 1 0x51 d ∧ hasRoute (on d) 7 = true) := by
  refine ⟨⟨beginsB_ok ?_, ?_, ?_, ?_, ?_, ?_, beginsB_ok ?_, uncached rfl rfl rfl, beginsB_ok ?_, ?_⟩, ⟨beginsB_ok ?_, ?_, ?_⟩,
    ⟨beginsB_ok ?_, ?_, ?_, ?_, ?_, beginsB_ok ?_, ?_, ?_, beginsB_ok ?_, ?_, beginsB_ok ?_, ?_⟩⟩ <;> decide +kernel

/-- A command naming stand 1819, and a device with that stand. -/
def standCmd (op rest : Nat) : Cmd := cmd1 (entry op rest) [rel 16 (hnd kStand 0 0 1819), rel 20 (hnd kModel 0 0 15)]
def withStand (c : Cmd) (x : Option Stand) : State :=
  { cmdsAre [c] with stands := { stands := (x.map (fun y => (1819, y))).toList, slots := [(15, 2)] } }

theorem witness_StandCommandsFollowTheStandStates :
    let x : Stand := { state := 1, part := 0, model := 15 }
    let p : Stand := { x with stepPending := true, ring := 9, stepSeq := 4 }
    standNamed (withStand (standCmd 0x10 0) none) (standCmd 0x10 0) = some 1819 ∧
    (let c := standCmd 0x10 0;
      Begins (withStand c none) 0 1 0x10 c ∧ relocAt c 20 = some (hnd kModel 0 0 15) ∧ standOf (withStand c none) 1819 = none ∧
      slotState (withStand c none) c.part 15 ≠ 0 ∧ (standOf (withStand c (some x)) 1819).isSome = true ∧ Begins (withStand c (some x)) 0 1 0x10 c ∧
      Begins (cmdsAre [c]) 0 1 0x10 c ∧ slotState (cmdsAre [c]) c.part 15 = 0) ∧
    (standOf (withStand (standCmd 0x11 0) (some x)) 1819 = some x ∧ x.state ≠ 3 ∧ x.stepPending = false ∧ x.closeReq = false ∧ p.stepPending = true) ∧
    (Begins (withStand (standCmd 0x11 0) (some x)) 0 1 0x11 (standCmd 0x11 0) ∧ Begins (withStand (standCmd 0x11 0) (some p)) 0 1 0x11 (standCmd 0x11 0)) ∧
    (Begins (withStand (standCmd 0x12 0) (some x)) 0 1 0x12 (standCmd 0x12 0) ∧ Begins (withStand (standCmd 0x12 0) (some p)) 0 1 0x12 (standCmd 0x12 0)) ∧
    (Begins (withStand (standCmd 0x13 0) (some x)) 0 1 0x13 (standCmd 0x13 0) ∧ { p with listed := true }.listed = true ∧
      Begins (withStand (standCmd 0x13 0) (some { p with listed := true })) 0 1 0x13 (standCmd 0x13 0)) ∧
    (let c := standCmd 0x13 0;
      let d : Cmd := { cmd1 (entry 0x11 0) [] with ring := 9, seq := 4, begun := true };
      let s := { withStand c (some p) with trail := { rings := [(0, hostRing)], cmds := [d, c] } };
      Begins s 0 1 0x13 c ∧ cmdOf s p.ring p.stepSeq = some d ∧ d.result = none ∧ d ≠ c ∧ opcodeOf d.entry.toNat = 0x11 ∧
      ∀ f ∈ s.trail.cmds, f.ring = p.ring → f.seq = p.stepSeq → f.dup = false → f = d) ∧
    (let c := { standCmd 0x11 0 with begun := true, result := some ⟨0, 0, 0⟩ };
      let s := withStand c (some { p with ring := 0, stepSeq := 1, listed := true });
      standNamed s c = some 1819 ∧ opcodeOf c.entry.toNat = 0x11 ∧ ringOf s 0 = some hostRing ∧ hostRing.isLocal = false ∧ cmdOf s 0 1 = some c ∧
      p.closeReq = false ∧ p.parkReq = false ∧ AllDecided s 0) := by
  refine ⟨?_, ⟨beginsB_ok ?_, ?_, ?_, ?_, ?_, beginsB_ok ?_, beginsB_ok ?_, ?_⟩, ?_, ⟨beginsB_ok ?_, beginsB_ok ?_⟩, ⟨beginsB_ok ?_, beginsB_ok ?_⟩,
    ⟨beginsB_ok ?_, ?_, beginsB_ok ?_⟩, ⟨beginsB_ok ?_, ?_, ?_, ?_, ?_, ?_⟩, ?_, ?_, ?_, ?_, ?_, ?_, ?_, allDecided _ rfl⟩ <;> decide +kernel

theorem witness_ModelSwitchLoadsItsSlot :
    (let c := cmd1 (entry 0x14 (4096 <<< (8 * 32))) [rel 16 (hnd kModel 0x8000 4096 15), rel 20 (hnd kHostbuf 0 4096)];
      Begins (cmdsAre [c]) 0 1 0x14 c ∧ relocAt c 16 = some (hnd kModel 0x8000 4096 15) ∧ relocAt c 20 = some (hnd kHostbuf 0 4096) ∧ relocAt c 40 = none ∧
      cf c.entry.toNat 39 32 ≠ 0 ∧ slotState (cmdsAre [c]) c.part 15 = 0 ∧ Begins (withStand c none) 0 1 0x14 c ∧ slotState (withStand c none) c.part 15 ≠ 0) ∧
    (let w : Switch := ⟨0, 0, 1, 15, none, true, 0x8000, 0, 4096, true⟩;
      let s := { rdy with stands.switches := [w] };
      s.stands.switches = [w] ∧ w.part = 0 ∧ w.new = 15 ∧ w.loading = true ∧ w.hostSrc = true ∧ w.old = none ∧ Uncached s) := by
  refine ⟨⟨beginsB_ok ?_, ?_, ?_, ?_, ?_, ?_, beginsB_ok ?_, ?_⟩, rfl, rfl, rfl, rfl, rfl, rfl, uncached rfl rfl rfl⟩ <;> decide +kernel

theorem witness_StepBoundariesListTheReadyStands :
    let x : Stand := { state := 1, part := 0, model := 0, stepPending := true, deadline := 5 }
    let s := { rdy with stands := { stands := [(7, x)], slots := [(0, 2)] }, dir.params := [(pkey 0x2410 1 0, 0x100001)], trail.handles := [(1, hnd kGraph 0x4000 4096)] }
    (sfind { rdy with stands.lists := [(71, ⟨[], 0, 0, 0⟩)] }.stands.lists 71).isSome = true ∧
    (sfind s.stands.lists 0 = none ∧ s.stands.switches = [] ∧ readySet s 0 = [(7, x)] ∧ partEnabled s 0 = true ∧ fillMet s 0 [(7, x)] = true ∧ 1 ≤ param s 0x2402 1 0 ∧
      relocate s 0 (slotGraph s 0 x.model) [kGraph] true false 0 0 = .ok (hnd kGraph 0x4000 4096)) ∧
    (let w := { s with time.clock := 1000 * param s 0x2402 3 0 };
      sfind w.stands.lists 0 = none ∧ readySet w 0 = [(7, x)] ∧ partEnabled w 0 = true ∧ 1 ≤ param w 0x2402 1 0 ∧
      relocate w 0 (slotGraph w 0 x.model) [kGraph] true false 0 0 = .ok (hnd kGraph 0x4000 4096) ∧
      ∃ z ∈ [(7, x)], z.2.readyAt + 1000 * param w 0x2402 3 0 ≤ w.time.clock) ∧
    (let v := { s with dir.params := [(pkey 0x2402 3 0, 1), (pkey 0x2410 1 0, 0x100001)] };
      readySet v 0 = [(7, x)] ∧ ∀ z ∈ readySet v 0, v.time.clock < z.2.readyAt + 1000 * param v 0x2402 3 0) ∧ Settled s ∧
    gathers s 0 = false ∧ gathers (cmdsAre [cmd1 (entry 0x30 0) []]) 0 = true := by
  unfold Settled
  refine ⟨?_, ⟨?_, ?_, ?_, ?_, ?_, ?_, rfl⟩, ⟨?_, ?_, ?_, ?_, rfl, ?_⟩, ?_, ?_, ?_⟩ <;> decide +kernel

end Sys2Proof.Tests
end

