-- ==== Sys2Proof/Tests/W7.lean ====
section
/-!
SUPPORT. Witnesses: gathers, the hot set, Thicket engines, and rows replaced while serving.
-/
namespace Sys2Proof.Tests
set_option Elab.async false
open Sys2Proof.Machine Sys2Proof.Claims

/-- What a job answers, as an option. -/
def okOf {α ε : Type} (r : State × Except ε α) : Option α :=
  match r.2 with
  | .ok a => some a
  | .error _ => none

/-- A table descriptor of 16 rows of 32 elements, with an index fault, VALID. -/
def faultTable : Nat := 16 + (32 <<< 32) + (1 <<< 56) + (1 <<< 58)

/-- A GATHER of two indices, without pooling, into a host buffer. -/
def gatherCmd (desc : Nat) : Cmd :=
  cmd1 (entry 0x30 (2 <<< (8 * 32))) [rel 16 (hnd kTable 0x40000 4096) desc, rel 20 (hnd kBuffer 0x10000 4096), rel 48 (hnd kHostbuf 0 65536)]

/-- The job of that command over memory as given. -/
def gatherOf (desc : Nat) (mem : Sparse Byte) : State × Except Nat GatherJob :=
  let c := gatherCmd desc
  gatherJob { cmdsAre [c] with mem := { density := 16, bytes := mem } } false c.part c.entry.toNat (descAt c 16) (relocAt c) (hnd kTable 0x40000 4096)

/-- The job over memory as given, then its run: with an output, or with an error. -/
def gatherRuns (desc : Nat) (mem : Sparse Byte) (good : Bool) : Bool :=
  match gatherOf desc mem with
  | (s, .ok j) => (match runGather s j with
    | (_, .ok g) => good && decide (g.dropped < 2 ^ 32)
    | (_, .error _) => !good)
  | (_, .error _) => false

theorem gatherRuns_ok {desc : Nat} {mem : Sparse Byte} (h : gatherRuns desc mem true = true) :
    ∃ s2 j s3 g, gatherOf desc mem = (s2, .ok j) ∧ runGather s2 j = (s3, .ok g) ∧ g.dropped < 2 ^ 32 := by
  unfold gatherRuns at h
  split at h
  · next s j e =>
    split at h
    · next s3 g e3 => exact ⟨s, j, s3, g, e, e3, by simpa using h⟩
    · simp at h
  · cases h

theorem gatherRuns_error {desc : Nat} {mem : Sparse Byte} (h : gatherRuns desc mem false = true) :
    ∃ s2 j s3 e, gatherOf desc mem = (s2, .ok j) ∧ runGather s2 j = (s3, .error e) := by
  unfold gatherRuns at h
  split at h
  · next s j e =>
    split at h
    · simp at h
    · next s3 g e3 => exact ⟨s, j, s3, g, e, e3⟩
  · cases h

/-- The job of two indices 0 and 99. -/
def job : GatherJob := { part := 0, listed := false, slot := 0, base := 0x40000, desc := faultTable, idx := [0, 99], bags := [0], weights := [], op := 0, out := 0 }

theorem witness_GathersAndHotRowsFollowTheirCommands :
    (let c := gatherCmd faultTable;
      Begins (cmdsAre [c]) 0 1 0x30 c ∧ ringOf (cmdsAre [c]) 0 = some hostRing ∧ relocAt c 16 = some (hnd kTable 0x40000 4096) ∧
      relocAt c 48 = some (hnd kHostbuf 0 65536)) ∧
    (∃ s2 j s3 g, gatherOf faultTable [] = (s2, .ok j) ∧ runGather s2 j = (s3, .ok g) ∧ g.dropped < 2 ^ 32) ∧
    (∃ s2 j s3 e, gatherOf faultTable [(0x10004, 99)] = (s2, .ok j) ∧ runGather s2 j = (s3, .error e)) ∧
    (okOf (gatherOf faultTable [(0x10004, 99)]) = some job ∧ 1 < job.idx.length ∧ badBag job.idx.length job.bags = none ∧ tdFault job.desc = true ∧
      (∀ k < 1, lget 0 job.idx k < tdRows job.desc) ∧ tdRows job.desc ≤ lget 0 job.idx 1) ∧
    (let c (mode n : Nat) := cmd1 (entry 0x32 ((n <<< (8 * 24)) + (mode <<< (8 * 28)))) [rel 16 (hnd kTable 0x40000 4096) faultTable, rel 20 (hnd kBuffer 0x10000 4096)];
      let s (x : Cmd) := { cmdsAre [x] with canopy := { laidOut := true, hotRegion := 64 }, dir.params := [(pkey 0x3801 1 0, 64)] };
      Begins (s (c 1 1)) 0 1 0x32 (c 1 1) ∧ relocAt (c 1 1) 20 = some (hnd kBuffer 0x10000 4096) ∧ cf (c 1 1).entry.toNat 27 24 = 1 ∧ Uncached (s (c 1 1)) ∧
      firstPoison (s (c 1 1)) 0x10000 (4 * 1) = none ∧
      (∀ k ∈ (List.range 1).map (fun i => leAt (memRead (s (c 1 1)).mem.bytes 0x10000 (4 * 1)) (4 * i) 4), k < tdRows (descAt (c 1 1) 16)) ∧
      cf (c 1 1).entry.toNat 28 28 = 1 ∧ cf (c 0 1).entry.toNat 28 28 = 0 ∧ Begins (s (c 0 1)) 0 1 0x32 (c 0 1) ∧
      FromMemory (s (c 0 1)) 0x40000 (tdStride faultTable) ∧ hotFits (s (c 0 1)) 0 0x40000 (tdStride faultTable) = true ∧
      Begins (s (c 2 0)) 0 1 0x32 (c 2 0) ∧ cf (c 2 0).entry.toNat 28 28 = 2 ∧ cf (c 2 0).entry.toNat 27 24 = 0) := by
  refine ⟨⟨beginsB_ok ?_, ?_, ?_, ?_⟩, gatherRuns_ok ?_, gatherRuns_error ?_, ?_,
    ⟨beginsB_ok ?_, ?_, ?_, ?_, ?_, ?_, ?_, ?_, beginsB_ok ?_, ?_, ?_, beginsB_ok ?_, ?_, ?_⟩⟩
  all_goals first
    | decide +kernel
    | (unfold FromMemory Uncached Settled; decide +kernel)
    | (unfold Uncached Settled; decide +kernel)

/-- A retired and a present task. -/
def doneTask : Task := { place := .retired }
def thkTask : Task := { place := .engine 0 }

/-- The entry of a THICKET node whose table is handle 3. -/
def thicketEnt : NodeEnt :=
  { kind := 2, nin := 1, nout := 0, provOk := false, checked := false, remote := false, width := 2, dieMask := 1, entry := 0, firings := 1, inQ := [], outQ := [],
    operand := 0x100003, opOff := 0, opLen := 0 }

/-- A device at which a THICKET task with its 64-byte record at 0x10000 is on an engine. -/
def thicketAt : State :=
  let f : Firing := { num := 0, tasks := [thkTask, thkTask], taken := [{ data := 0x10000, node := 0, firing := 0, out := 0 }] }
  let y : Node := { ent := thicketEnt, started := 1, firings := [f], operand := some (hnd kTable 0x40000 4096), desc := faultTable }
  { rdy with root.insts := [(16383, { part := 0, owner := .run 0 1, nodes := [y] })],
             trail.handles := [(1, hnd kBuffer 0x20000 4096), (2, hnd kHostbuf 0 65536), (3, hnd kTable 0x40000 4096)],
             mem := { density := 16, bytes := [(0x10004, 1), (0x10006, 0x10), (0x10010, 2), (0x10020, 2), (0x10022, 0x10)] } }

/-- The task reads its record, relocates and gathers without an error, into a host buffer. -/
def thicketRuns : Bool :=
  match readMem thicketAt 0x10000 64 with
  | (_, .error _) => false
  | (s1, .ok rec) => decide (recordBad (recordBody thicketEnt.operand rec) = none) &&
    (match relocateAll s1 0 (recordBody thicketEnt.operand rec) ((gatherFields faultTable (recordBody thicketEnt.operand rec)).filter (fun z => decide (z.off ≠ 16))) with
    | .error _ => false
    | .ok rs => decide (((rs.find? (fun z => decide (z.off = 48))).map (·.entry)).map (·.kind) = some kHostbuf) &&
      (match gatherJob s1 false 0 (recordBody thicketEnt.operand rec) faultTable (fun off => (rs.find? (fun z => decide (z.off = off))).map (·.entry))
          (hnd kTable 0x40000 4096) with
      | (_, .error _) => false
      | (s2, .ok j) => (match runGather s2 j with
        | (_, .ok _) => true
        | (_, .error _) => false)))

theorem thicketRuns_ok (h : thicketRuns = true) : ∃ s1 rec rs s2 j s3 g o, readMem thicketAt 0x10000 64 = (s1, .ok rec) ∧
    recordBad (recordBody thicketEnt.operand rec) = none ∧
    relocateAll s1 0 (recordBody thicketEnt.operand rec) ((gatherFields faultTable (recordBody thicketEnt.operand rec)).filter (fun z => decide (z.off ≠ 16))) = .ok rs ∧
    gatherJob s1 false 0 (recordBody thicketEnt.operand rec) faultTable (fun off => (rs.find? (fun z => decide (z.off = off))).map (·.entry))
      (hnd kTable 0x40000 4096) = (s2, .ok j) ∧ runGather s2 j = (s3, .ok g) ∧
    (rs.find? (fun z => decide (z.off = 48))).map (·.entry) = some o ∧ o.kind = kHostbuf := by
  unfold thicketRuns at h
  split at h
  · cases h
  · next s1 rec e1 =>
    simp only [Bool.and_eq_true, decide_eq_true_eq] at h
    obtain ⟨h1, h⟩ := h
    split at h
    · cases h
    · next rs e2 =>
      simp only [Bool.and_eq_true, decide_eq_true_eq, Option.map_eq_some_iff] at h
      obtain ⟨⟨o, h2, h3⟩, h⟩ := h
      split at h
      · cases h
      · next s2 j e3 =>
        split at h
        · next s3 g e4 => exact ⟨s1, rec, rs, s2, j, s3, g, o, e1, h1, e2, e3, e4, by simpa using h2, h3⟩
        · cases h

theorem witness_ThicketTasksAndPrefetchReadTheirRows :
    (∃ x y f, instOf thicketAt 16383 = some x ∧ nodeOf x 0 = some y ∧ y.ent.kind = 2 ∧ (∃ d, (f.tasks[0]?).map (·.place) = some (.engine d)) ∧ y.firings = [f] ∧
      (∃ m, m ≠ 0 ∧ (f.tasks[m]?).any (fun z => decide (z.place ≠ .retired)) = true) ∧ y.operand = some (hnd kTable 0x40000 4096) ∧
      (f.taken.headD { data := 0, node := 0, firing := 0, out := 0 }).data.toNat % 2 ^ 64 + 64 * 0 = 0x10000 ∧ y.ent = thicketEnt ∧ y.desc = faultTable ∧
      x.owner ≠ .list x.part ∧ ∃ s1 rec rs s2 j s3 g o, readMem thicketAt 0x10000 64 = (s1, .ok rec) ∧ recordBad (recordBody thicketEnt.operand rec) = none ∧
        relocateAll s1 0 (recordBody thicketEnt.operand rec) ((gatherFields faultTable (recordBody thicketEnt.operand rec)).filter (fun z => decide (z.off ≠ 16))) = .ok rs ∧
        gatherJob s1 false 0 (recordBody thicketEnt.operand rec) faultTable (fun off => (rs.find? (fun z => decide (z.off = off))).map (·.entry))
          (hnd kTable 0x40000 4096) = (s2, .ok j) ∧ runGather s2 j = (s3, .ok g) ∧
        (rs.find? (fun z => decide (z.off = 48))).map (·.entry) = some o ∧ o.kind = kHostbuf) ∧
    (let x : Stand := { state := 1, part := 0, model := 0, stepPending := true, ring := 0, stepSeq := 1 };
      let c := cmd1 (entry 0x11 (8 <<< (8 * 32))) [rel 20 (hnd kBuffer 0x10000 4096)];
      let td := 16 + (32 <<< 32) + (1 <<< 57) + (1 <<< 58);
      let s := { cmdsAre [c] with stands := { stands := [(131071, x)], slots := [(0, 2)] }, dir.params := [(pkey 0x3802 1 0, 1 <<< 32), (pkey 0x3810 1 0, td)],
                                  trail := { rings := [(0, hostRing)], cmds := [c], handles := [(3, hnd kTable 0x40000 4096)] } };
      standOf s 131071 = some x ∧ standReady s x = true ∧ cmdOf s x.ring x.stepSeq = some c ∧ relocAt c 20 = some (hnd kBuffer 0x10000 4096) ∧
      field (param s 0x3802 1 x.part) 47 32 = 1 ∧ field (param s 0x3802 1 x.part) 31 0 = 0 ∧ 0 + 8 ≤ cf c.entry.toNat 35 32 ∧ Uncached s ∧
      firstPoison s (0x10000 + cf c.entry.toNat 31 24 + 0) 8 = none ∧ leNat (memRead s.mem.bytes (0x10000 + cf c.entry.toNat 31 24 + 0) 8) = 0 ∧
      slotBase s x.part 0 = some 0x40000 ∧ tableDesc s x.part 0 = td ∧ tdValid td = true ∧ tdPrefetch td = true ∧ 0 < tdRows td ∧
      FromMemory s 0x40000 (tdStride td) ∧ pfFits s (homeDie 0x40000) (tdStride td) = true) := by
  refine ⟨⟨_, _, _, rfl, rfl, rfl, ⟨0, rfl⟩, rfl, ⟨1, by decide, by decide +kernel⟩, rfl, by decide +kernel, rfl, rfl, by decide, thicketRuns_ok (by decide +kernel)⟩,
    ?_, ?_, ?_, ?_, ?_, ?_, ?_, ?_, ?_, ?_, ?_, ?_, ?_, ?_, ?_, ?_, ?_⟩
  all_goals first
    | decide +kernel
    | (unfold FromMemory Uncached Settled; decide +kernel)
    | (unfold Uncached Settled; decide +kernel)

theorem witness_ThicketWordsActOnTheirEngine :
    let w : ThkSlot := ⟨1, 1, 7, 1, 0x1FFF, 0, 0, 0, 0⟩
    let p : PfEntry := { part := 0, slot := 0, row := 0, bytes := [] }
    (engineWork rdy 95 = none ∧ (∀ n < 7, thkBad n { w with pop := 8 } = true) ∧ thkBad 6 w = false ∧ NextFits 1 (engineOf rdy 95).seq w.next w.target.toNat ∧ (lget 0 (engineOf rdy 95).eregs w.ereg).toNat = 0) ∧
    (let z : Inst := { part := 0, owner := .run 0 1, queues := [],
                       nodes := [{ ent := ⟨2, 0, 0, false, false, false, 16, 63, 0, 1, [], [], 0, 0, 0⟩, firings := [{ num := 0, tasks := List.replicate 16 { place := .engine 5 } }] }] };
      let cm := cmd1 (entry 0x20 0) [];
      let s := { rdy with root.insts := [(16311, z)], trail := { rings := [(0, hostRing)], cmds := [cm] } };
      engineWork s 95 = some (.task 16311) ∧ instOf s 16311 = some z ∧ z.owner = .run 0 1 ∧ z.rerun = false ∧ cmdOf s 0 1 = some cm ∧ cm.result = none) ∧
    (let cm := { cmd1 (entry 0x30 0) [] with begun := true };
      engineWork (cmdsAre [cm]) 0 = some (.gather 0 1) ∧ cmdOf (cmdsAre [cm]) 0 1 = some cm ∧ cm.result = none) ∧
    (Uncached rdy ∧ firstPoison rdy 0 64 = none ∧ FromMemory rdy 0 (16 + elemBytes w.fmt.toNat 16)) ∧
    (let s := { rdy with thk.prefetch := [(0, p)] };
      servingEntry s 0 = none ∧ sfind s.thk.prefetch 0 = some p ∧ p.poison = none) := by
  unfold FromMemory Uncached Settled NextFits
  decide +kernel

/-- A staged row at 0x40000. -/
def staged (id gen : Nat) (st : StageState) : Staged :=
  { id, part := 0, slot := 0, row := 0, addr := 0x40000, gen, bytes := List.replicate 144 1, state := st, ring := 0, seq := 1 }

/-- A ROW_UPDATE of row 0 from a host buffer with generation 5. -/
def updateCmd : Cmd := cmd1 (entry 0x31 (5 <<< (8 * 24))) [rel 16 (hnd kTable 0x40000 4096) faultTable, rel 32 (hnd kHostbuf 0 4096)]

theorem stageFits_empty {s : State} (w : StageWait) (h : s.rows.staged = []) (hp : 0 < lrQuota s w.part) (hl : stageLines w.addr w.len ≤ 126976) :
    stageFits s w = true := by
  simp [stageFits, dieEntries, dieLines, h, hp, hl]

theorem witness_RowUpdatesStageAndCommit :
    (let c := cmd1 (entry 0x31 (16 <<< (8 * 20))) updateCmd.relocs.get!;
      Begins (cmdsAre [c]) 0 1 0x31 c ∧ relocAt c 16 = some (hnd kTable 0x40000 4096) ∧ relocAt c 32 = some (hnd kHostbuf 0 4096) ∧ tdRows (descAt c 16) ≤ cf c.entry.toNat 23 20) ∧
    (let s := { cmdsAre [updateCmd] with rows.staged := [staged 0 5 .committed] };
      Begins s 0 1 0x31 updateCmd ∧ cf updateCmd.entry.toNat 23 20 < tdRows (descAt updateCmd 16) ∧ (currentGen s 0x40000).2 = some 5 ∧
      cf updateCmd.entry.toNat 31 24 ≤ 5) ∧
    (let s := cmdsAre [updateCmd];
      Begins s 0 1 0x31 updateCmd ∧ (currentGen s 0x40000).2 = some 0 ∧ 0 < cf updateCmd.entry.toNat 31 24 ∧ (∀ x ∈ s.rows.waiting, homeDie x.addr ≠ homeDie 0x40000) ∧
      (∀ w : StageWait, w.part = updateCmd.part → w.addr = 0x40000 → w.len = tdStride (descAt updateCmd 16) → stageFits s w = true)) ∧
    (let w : StageWait := ⟨0, 1, 0, 0, 0, 0x40000, 5, 144, 0⟩;
      let s := { rdy with rows.waiting := [w] };
      let c := { cmd1 (entry 0x31 0) [rel 32 (hnd kHostbuf 0 4096)] with begun := true };
      let u := { s with trail.cmds := [c] };
      s.rows.waiting = [w] ∧ w ∉ ([] : List StageWait) ∧ homeDie w.addr < 6 ∧ stageFits s w = true ∧ cmdOf u w.ring w.seq = some c ∧
      relocAt c 32 = some (hnd kHostbuf 0 4096) ∧ (∃ x ∈ s.rows.waiting, homeDie x.addr = homeDie 0x40000)) ∧
    (let e := staged 7 5 .filling;
      let c := { cmd1 (entry 0x31 0) [] with begun := true };
      let s (g : Nat) := { cmdsAre [c] with rows.staged := [e, staged 1 g .committed] };
      (s 4).rows.staged.find? (fun x => decide (x.ring = 0) && decide (x.seq = 1) && decide (x.state = .filling)) = some e ∧ e.bad = none ∧ { e with bad := some 2 }.bad = some 2 ∧
      (∀ x ∈ (s 4).rows.staged, x.id = e.id → x = e) ∧ (currentGen (s 4) e.addr).2 = some 4 ∧ cmdOf (s 4) 0 1 = some c ∧ c.result = none ∧
      isNewer e.gen (some 4) = true ∧ (currentGen (s 5) e.addr).2 = some 5 ∧ isNewer e.gen (some 5) = false) := by
  refine ⟨⟨beginsB_ok ?_, ?_, ?_, ?_⟩, ⟨beginsB_ok ?_, ?_, ?_, ?_⟩, ⟨beginsB_ok ?_, ?_, ?_, ?_,
    fun w h1 h2 h3 => stageFits_empty w rfl (by rw [h1]; decide +kernel) (by rw [h2, h3]; decide +kernel)⟩, ?_, ?_⟩
  all_goals decide +kernel

theorem witness_RowVersionsOutliveTheirReaders :
    let d := homeDie 0x40000
    let e := { staged 7 5 .committed with tag := 0 }
    (let s := { rdy with rows.staged := [e] };
      (dieEntries s d).any (fun x => decide (x.state = .committed) && decide (x.tag = lget 0 s.rows.epoch d)) = true ∧ epochReaders s d 1 = 0 ∧
      epochReaders { s with rows.readers := [(8 * d + 1, 3)] } d 1 ≠ 0) ∧
    (let s := { rdy with rows := { staged := [e], epoch := [1, 1, 1, 1, 1, 1] } };
      entryOf s 7 = some e ∧ (∀ x ∈ s.rows.staged, x.id = 7 → x = e) ∧ e.state = .committed ∧ closedUpTo s d e.tag = true ∧
      (∀ x ∈ s.rows.staged, x.addr = e.addr → x.state ≠ .writing) ∧ closedUpTo rdy d 0 = false) ∧
    (let w := staged 7 5 .writing;
      let s := { rdy with rows.staged := [w] };
      entryOf s 7 = some w ∧ w.state = .writing ∧ w.bad = none ∧ Uncached s) ∧
    ((staged 7 5 .releasing).state = .releasing ∧ (staged 7 5 .superseded).state = .superseded ∧ (staged 7 5 .releasing).refs = 0 ∧
      { staged 7 5 .releasing with refs := 2 }.refs ≠ 0) ∧
    (let s := { rdy with dir.params := [(pkey 0x3811 128 71, faultTable)], rows.staged := [e] };
      tableDesc s 71 255 = faultTable ∧ tdValid faultTable = true ∧ 0 < tdRows faultTable ∧ servingEntry s 0x40000 = some e ∧
      FromMemory { s with rows.staged := [] } 0x40000 (tdStride faultTable) ∧
      (let t := { s with rows.staged := [], thk.prefetch := [(0x40000, { part := 71, slot := 255, row := 0, bytes := [] })] };
        servingEntry t 0x40000 = none ∧ (sfind t.thk.prefetch 0x40000).isSome = true)) ∧
    (let q : RowRead := ⟨0, d, .epoch 7, 144, [], none⟩;
      { rdy with rows.reads := [q] }.rows.reads = q :: [] ∧ q.src = .epoch 7 ∧ { q with src := .staged 3 }.src = .staged 3) := by
  unfold FromMemory Uncached Settled
  decide +kernel

end Sys2Proof.Tests
end

