-- ==== Sys2Proof/Tests/W8.lean ====
section
/-!
SUPPORT. Witnesses: Rootwork, and checks of results.
-/
namespace Sys2Proof.Tests
set_option Elab.async false
open Sys2Proof.Machine Sys2Proof.Claims

/-- A node entry of a kind with its queues, one firing. -/
def ent (kind : Nat) (ins outs : List Nat) (operand : Nat := 0) : NodeEnt :=
  { kind, nin := ins.length, nout := outs.length, provOk := false, checked := false, remote := false, width := 1, dieMask := 63, entry := 0, firings := 1,
    inQ := ins, outQ := outs, operand, opOff := 0, opLen := 4096 }

/-- An instance 16311 of partition 0, run by command 1 of ring 0. -/
def inst (nodes : List Node) (queues : List Queue) : Inst := { part := 0, owner := .run 0 1, nodes, queues }
def hosting (x : Inst) : State := { rdy with root.insts := [(16311, x)], trail := { rings := [(0, hostRing)], cmds := [cmd1 (entry 0x20 0) []] } }

/-- A confirmed token, an empty queue and a queue with one token. -/
def tok (d : BitVec 128) : Token := { data := d, node := 0, firing := 0, out := 0 }
def emptyQ : Queue := { depth := 1, producer := 0, consumer := 0 }
def fullQ : Queue := { depth := 1, producer := 0, consumer := 0, occupied := 1, tokens := [tok 5] }

/-- A descriptor is read and its initial tokens too. -/
def admits (s : State) (q : Request) : Bool :=
  match readGraph s q.part q.graph with
  | (_, .error _) => false
  | (s2, .ok g) => match (readInits s2 q.part g).2 with
    | .ok () => true
    | .error _ => false

theorem admits_ok {s : State} {q : Request} (h : admits s q = true) :
    ∃ s2 g, readGraph s q.part q.graph = (s2, .ok g) ∧ (readInits s2 q.part g).2 = .ok () := by
  unfold admits at h
  split at h
  · cases h
  · next s2 g e =>
    split at h
    · next e2 => exact ⟨s2, g, e, e2⟩
    · cases h

/-- The answer is an error. -/
theorem error_of {α ε : Type} {r : State × Except ε α} (h : (okOf r).isSome = false) : ∃ s e, r = (s, .error e) := by
  obtain ⟨t, e | a⟩ := r
  · exact ⟨t, e, rfl⟩
  · cases h

/-- A graph of one core node without queues at 0x4000, and a command that runs it. -/
def graphBytes : Sparse Byte :=
  [(0x4000, 0x52), (0x4001, 0x57), (0x4002, 0x54), (0x4003, 0x48), (0x4004, 1), (0x4008, 64), (0x4040, 1), (0x4044, 1), (0x4046, 1), (0x404A, 1)]
def request : Request := { part := 0, owner := .run 0 1, graph := hnd kGraph 0x4000 128 }

theorem witness_InstancesAreAdmittedAndFire :
    (let s := { rdy with mem.bytes := graphBytes };
      request.argSrc = none ∧ freeInstance s request = some 0 ∧ ∃ s2 g, readGraph s 0 (hnd kGraph 0x4000 128) = (s2, .ok g) ∧ (readInits s2 0 g).2 = .ok ()) ∧
    (let s := cmdsAre [cmd1 (entry 0x20 0) []];
      freeInstance s request = some 0 ∧ cmdOf s 0 1 = some (cmd1 (entry 0x20 0) []) ∧ ∃ s2 e, readGraph s 0 (hnd kGraph 0x4000 128) = (s2, .error e)) ∧
    (let y : Node := { ent := ent 1 [0] [1] };
      let x := inst [y] [fullQ, emptyQ];
      Holds (hosting x) 16311 0 x y ∧ canFire (hosting x) x 0 y = true ∧ y.ent.kind = 1 ∧ (inQs y.ent).count 0 = 1 ∧ 0 ∉ outQs y.ent ∧ (outQs y.ent).count 1 = 1 ∧
      1 ∉ inQs y.ent) ∧
    (let y : Node := { ent := ent 6 [0] [] };
      let x := inst [y] [fullQ];
      Holds (hosting x) 16311 0 x y ∧ canFire (hosting x) x 0 y = true ∧ y.ent.kind = 6 ∧ y.ent.remote = false ∧ (inQs y.ent).count 0 = 1) ∧
    (let y : Node := { ent := ent 5 [] [0] };
      let x := inst [y] [emptyQ];
      let s := { hosting x with root.staging := [⟨0, 0, 0, 0, 9, 7, .confirmed⟩] };
      Holds s 16311 0 x y ∧ canFire s x 0 y = true ∧ y.ent.kind = 5 ∧ s.fab.refusedTokens = [] ∧ (outQs y.ent).count 0 = 1) ∧
    (let y : Node := { ent := ent 1 [0] [1] };
      let x := inst [y] [fullQ, fullQ];
      let s := hosting x;
      Holds s 16311 0 x y ∧ canFire s x 0 y = false ∧ y.ent.kind ≠ 5 ∧ ¬(y.ent.kind = 6 ∧ y.ent.remote = true) ∧ y.started < y.ent.firings ∧ nodeRunning y = false ∧
      outputsFree x y.ent = false ∧ (∀ q ∈ outQs y.ent, (queueOf x q).isSome = true) ∧ (headTokens x y.ent).any (mayTake s x y.ent) = true ∧ y.refusedOn = none) ∧
    (let y : Node := { ent := ent 1 [0] [1], refusedOn := some 1 };
      let x := inst [y] [fullQ, emptyQ];
      Holds (hosting x) 16311 0 x y ∧ y.refusedOn = some 1 ∧ (queueOf x 1).any (fun z => decide (z.occupied < z.depth)) = true ∧ outputsFree x y.ent = true ∧
      (let y : Node := { ent := ent 1 [0] [1, 2], refusedOn := some 1 };
        let x := inst [y] [fullQ, emptyQ, fullQ];
        Holds (hosting x) 16311 0 x y ∧ (queueOf x 1).any (fun z => decide (z.occupied < z.depth)) = true ∧ outputsFree x y.ent = false ∧
        ∀ k ∈ outQs y.ent, (queueOf x k).isSome = true)) ∧
    (let z : Queue := { emptyQ with flight := [tok 5] };
      let y : Node := { ent := ent 1 [0] [] };
      Holds (hosting (inst [y] [z])) 16311 0 (inst [y] [z]) y ∧ queueOf (inst [y] [z]) 0 = some z ∧ z.flight = tok 5 :: []) := by
  unfold Holds
  refine ⟨⟨rfl, ?_, admits_ok (q := request) ?_⟩, ⟨?_, ?_, error_of ?_⟩, ?_, ?_, ?_, ?_, ?_, ?_⟩ <;> decide +kernel

/-- An instance whose one node has one firing, of one task. -/
def oneTask (e : NodeEnt) (z : Task) (f : Firing) (qs : List Queue := []) : Inst :=
  inst [{ ent := e, started := 1, firings := [{ f with tasks := [z] }] }] qs
def firing0 : Firing := { num := 0 }

theorem witness_ReadyTasksReachCores :
    (∀ k ∈ [1, 2, 3],
      let x := oneTask (ent k [] []) { place := .ready 5 } firing0;
      let y := x.nodes.headD { ent := ent k [] [] };
      let s := hosting x;
      let c : Cand := ⟨0, 0, 1, 0, 0, 16311, 0⟩;
      readyList s 5 = [c] ∧ Holds s 16311 0 x y ∧ (firingOf s 16311 0 0).map (·.tasks) = some [{ place := .ready 5 }] ∧ (∀ g < 72, gQueue s (72 * 5 + g) = []) ∧
      y.ent.kind = k ∧ servingOn s x.part 5 ≠ [] ∧ pickGrove s x.part 5 y.ent.dieMask { firing0 with tasks := [{ place := .ready 5 }] } = some 360 ∧
      idleCore s 360 = some (64 * 360) ∧ 360 / 72 = 5) ∧
    (let z : Task := { place := .queued 431 };
      let x := oneTask (ent 1 [] []) z firing0;
      let q : QTask := ⟨16311, 0, 0, 0, 0⟩;
      let s := { hosting x with root := { insts := [(16311, x)], queues := [(431, [q])] } };
      readyList s 5 = [] ∧ gQueue s (72 * 5 + 71) = [q] ∧ (∀ h < 72, h ≠ 71 → gQueue s (72 * 5 + h) = []) ∧ instOf s q.ins = some x ∧
      (firingOf s q.ins q.node q.firing).map (·.tasks) = some [z] ∧ serving s (unitGrove 431) = true ∧ switchingNow s 431 = false ∧ idleCore s 431 = some (64 * 431)) ∧
    (let x := oneTask (ent 1 [] []) { place := .ready 5 } firing0;
      let s := { hosting x with gr.cores := (List.range 64).map (fun k => (64 * 360 + k, { ins := 0, node := 0, firing := 0, task := 0 })) };
      pickGrove s x.part 5 63 { firing0 with tasks := [{ place := .ready 5 }] } = some 360 ∧ idleCore s 360 = none) := by
  unfold Holds
  decide +kernel

theorem witness_InstancesCompleteOrDeadlock :
    (let c := cmd1 (entry 0x20 0) [];
      let y : Node := { ent := ent 1 [] [], started := 1, fired := 1 };
      let x := inst [y] [];
      let s := hosting x;
      instOf s 16311 = some x ∧ x.owner = .run 0 1 ∧ x.rerun = false ∧ cmdOf s 0 1 = some c ∧ c.result = none ∧
      x.nodes.all (fun y => nodeDone y && y.firings.isEmpty) = true ∧ x.remote = 0) ∧
    (let x := inst [{ ent := ent 1 [0] [] }] [emptyQ];
      deadlocked (hosting x) 16311 x = true ∧ x.part < 72 ∧ deadlocked (hosting (inst [{ ent := ent 1 [] [] }] [])) 16311 (inst [{ ent := ent 1 [] [] }] []) = false ∧
      ¬(x.nodes.all (fun y => nodeDone y && y.firings.isEmpty) = true ∧ x.remote = 0)) := by decide +kernel

/-- A shadowed task, retired. -/
def shadow : Task := { place := .retired, shadowed := true }

theorem witness_ShadowedTasksAreReleasedOrUndone :
    (let f : Firing := { num := 0, tasks := [shadow, shadow], emitted := true };
      let y : Node := { ent := { ent 1 [] [] with width := 2, provOk := true }, started := 1, firings := [f] };
      let x := inst [y] [];
      let s := hosting x;
      Holds s 16311 0 x y ∧ y.firings = [f] ∧ f.tasks[1]? = some shadow ∧ shadow.heldFault = none ∧ clearing s shadow = false ∧ releasable y f shadow = true ∧
      shadow.redo = [] ∧ 0 ≠ 1 ∧ f.tasks[0]? = some shadow ∧ shadow.shadowed = true ∧ shadow.released = false) ∧
    (let u : UndoEnt := { line := 64, old := List.replicate 64 7, seq := 3 };
      let z : Task := { shadow with undo := [u] };
      let f : Firing := { num := 0, tasks := [z], undoDue := some 0 };
      f.undoDue.isSome = true ∧ (ent 1 [] []).kind ≠ 6 ∧ f.tasks = [z] ∧ z.shadowed = true ∧ z.released = false ∧ z.undo = [u] ∧ u.mixed = false ∧
      (∀ w ∈ shadowOn (hosting (inst [{ ent := ent 1 [] [], firings := [f] }] [])) z.grove, ∀ v ∈ w.val.undo, v.line = u.line → v.seq ≤ u.seq) ∧
      Holds (hosting (inst [{ ent := ent 1 [] [], firings := [f] }] [])) 16311 0 (inst [{ ent := ent 1 [] [], firings := [f] }] []) { ent := ent 1 [] [], firings := [f] }) := by
  unfold Holds
  decide +kernel

/-- A checked node. -/
def checkedEnt : NodeEnt := { ent 1 [] [] with checked := true }

/-- A layer of mode RERUN with wider entries 7 and 9. -/
def rerunLayer : Nat := (7 <<< 80) + (9 <<< 96) + 2

theorem witness_FailedChecksReturnTheFiring :
    (let z := shadow;
      let x := oneTask checkedEnt z firing0;
      let s := hosting x;
      let f : Firing := { num := 0, tasks := [z] };
      let bad : Task := { z with sound := false };
      Holds s 16311 0 x (x.nodes.headD { ent := checkedEnt }) ∧ (x.nodes.headD { ent := checkedEnt }).firings = [f] ∧ f.tasks[0]? = some z ∧ checkedEnt.checked = true ∧
      clearing s z = false ∧ checkDue x f z = true ∧ z.sound = true ∧ f.failed = [] ∧
      checkDue (oneTask checkedEnt bad firing0) { firing0 with tasks := [bad] } bad = true ∧ clearing s bad = false ∧ bad.sound = false ∧ f.undoDue = none ∧
      f.badInput = false ∧ f.failures < 2 ∧ 2 ≤ { f with failures := 2 }.failures ∧ x.owner = .run 0 1 ∧ x.rerun = false ∧
      cmdOf s 0 1 = some (cmd1 (entry 0x20 0) []) ∧ (cmd1 (entry 0x20 0) []).result = none) ∧
    (let z : Task := { place := .retired, tripped := [63], rerunWord := true };
      let f : Firing := { num := 0, tasks := [z] };
      let x := { oneTask (ent 1 [] []) z firing0 with layers := List.replicate 63 0 ++ [rerunLayer] };
      let g : Firing := { num := 0, tasks := [{ z with rerunFmt := [(63, 4)] }] };
      Holds (hosting x) 16311 0 x (x.nodes.headD { ent := ent 1 [] [] }) ∧ f.returned = false ∧ f.undoDue = none ∧ f.tasks ≠ [] ∧ allRetired f = true ∧
      rerunTripped x f = [63] ∧ ((rerunTripped x f).filter (fun m => decide (widerEntry x f m ≠ 0))).head? = some 63 ∧
      (let w := { x with nodes := [{ ent := ent 1 [] [], started := 1, firings := [g] }] };
        Holds (hosting w) 16311 0 w (w.nodes.headD { ent := ent 1 [] [] }) ∧ allRetired g = true ∧ rerunTripped w g = [63] ∧ widerEntry w g 63 = 0)) := by
  unfold Holds
  decide +kernel

theorem witness_SelfTestsPatchSwitchesAndTickets :
    (431 ∉ rdy.groves.gated ∧ serving rdy (unitGrove 431) = true ∧ rdy.fb.round = none) ∧
    (let s := { rdy with gr.micro.switching := [[], [], [5]] };
      mayApply s 2 5 = true ∧ 2 < s.gr.micro.switching.length) ∧
    (let x : Ticket := { num := 9, part := 0, ins := 0, node := 0 };
      let e : ProvEntry := { ticket := 9, part := 0, ins := none, node := 0, firing := 0, out := 0, slot := 0, key := 0, token := 0, dests := [{ dest := 7 }] };
      let s := { rdy with fb := { tickets := [{ x with resolved := 1 }], store := [e] }, fab := { usable := List.range 12, peers := [(7, { inc := some 1 })] },
                          dir.params := [(pkey 0x5001 2 devInst, 9), (pkey 0x5005 1 devInst, 0)] };
      x.resolved = 0 ∧ destsIn s 9 0 = [7] ∧ destsIn s 9 2 = [] ∧ hasRoute s 7 = true ∧ (peerOf s 7).inc.isSome = true ∧ s.fb.tickets = [{ x with resolved := 1 }]) := by
  decide +kernel

/-- An instance with one task of a kind at the slice, with a token of the value given and one output queue. -/
def sliceTask (kind : Nat) (d : BitVec 128) : Inst :=
  inst [{ ent := ent kind [1] [0] 0x100001, started := 1, firings := [{ num := 0, tasks := [{ place := .slice 0 }], taken := [tok d] }],
          operand := some (hnd kBuffer 0x20000 4096) }] [emptyQ, { fullQ with tokens := [] }]

/-- The token of a CANOPY task: 64 bytes at 0x10000, code 0x25. -/
def canopyTok : BitVec 128 := BitVec.ofNat 128 (0x10000 + (64 <<< 64) + (0x25 <<< 96))
/-- The token of a COPY task of 64 bytes with handle 1, kind as given. -/
def copyTokOf (kind : Nat) : BitVec 128 := BitVec.ofNat 128 ((0x00100002 <<< 16) + (1 <<< 112) + (kind <<< 126))

/-- `OneSliceTask` from its parts. -/
theorem oneSliceTask_ok {s : State} {i n q : Nat} {x : Inst} {y : Node} {f : Firing}
    (h : Holds s i n x y ∧ y.firings = [f] ∧ inputsConfirmed f = true ∧ f.freed = false ∧ f.tasks = [{ place := .slice 0 }] ∧ outQs y.ent = [q] ∧
      (queueOf x q).isSome = true ∧ standsRetracted x n f.num 0 = false ∧ s.fb.store = []) : OneSliceTask s i n x y f q := by
  obtain ⟨a, b, c, d, e, g⟩ := h
  exact ⟨a, b, c, d, ⟨_, 0, e, rfl, rfl⟩, g⟩

/-- An answer is the value given, as a truth value. -/
def isOk {α ε : Type} [DecidableEq α] (r : Except ε α) (a : α) : Bool :=
  match r with
  | .ok b => decide (b = a)
  | .error _ => false

theorem isOk_eq {α ε : Type} [DecidableEq α] {r : Except ε α} {a : α} (h : isOk r a = true) : r = .ok a := by
  cases r with
  | ok b => exact congrArg _ (of_decide_eq_true h)
  | error e => cases h

theorem witness_CanopyCopyAndRemoteOutputNodes :
    (let x := sliceTask 3 canopyTok;
      let y := x.nodes.headD { ent := ent 3 [] [] };
      let f := y.firings.headD firing0;
      let s := { hosting x with dir.params := [(pkey 0x5803 1 0, 1 <<< 32)] };
      let d := canopyTok.toNat;
      OneSliceTask s 16311 0 x y f 0 ∧ y.ent.kind = 3 ∧ y.operand = some (hnd kBuffer 0x20000 4096) ∧ (f.taken.head?).map (·.data.toNat) = some d ∧
      field d 47 0 = 0x10000 ∧ field d 95 64 = 64 ∧ field d 103 96 = 0x25 ∧ 64 ≤ y.ent.opLen ∧ 64 % 32 = 0 ∧ inPartMem s x.part 0x10000 64 = true ∧ field d 63 48 = 0 ∧
      0x10000 % 32 = 0 ∧ (0x20000 + y.ent.opOff) % 32 = 0 ∧ Uncached s ∧ firstPoison s 0x10000 64 = none ∧ firstPoison s 0x20000 64 = none ∧
      (0x10000 + 64 ≤ 0x20000 + y.ent.opOff ∨ 0x20000 + y.ent.opOff + 64 ≤ 0x10000)) ∧
    (∀ k : Fin 2,
      let x := sliceTask 4 (copyTokOf k);
      let y := x.nodes.headD { ent := ent 4 [] [] };
      let f := y.firings.headD firing0;
      let s := { hosting x with trail.handles := [(2, hnd kBuffer 0x40000 4096)] };
      let d := (copyTokOf k).toNat;
      let c := copyTok s x.part d;
      OneSliceTask s 16311 0 x y f 0 ∧ y.ent.kind = 4 ∧ copyOut s 16311 0 f.num = false ∧ y.operand = some (hnd kBuffer 0x20000 4096) ∧
      (f.taken.head?).map (·.data.toNat) = some d ∧ c.dest = 0 ∧ copyBad c d y.ent.opLen = false ∧ c.kind = k ∧ bitOf (hnd kBuffer 0x20000 4096).rights (if c.kind = 1 then 1 else 0) = true ∧
      relocate s x.part c.handle [kBuffer] (decide (k = 1)) (decide (k = 0)) c.roff c.len = .ok (hnd kBuffer 0x40000 4096) ∧ Uncached s ∧ firstPoison s 0x20000 64 = none) ∧
    (let x := inst [{ ent := { ent 6 [0] [7, 9] with remote := true } }] [fullQ];
      let y : Node := { ent := { ent 6 [0] [7, 9] with remote := true } };
      let s := { hosting x with fab := { usable := List.range 12, peers := [(7, { inc := some 1 })] }, dir.params := [(pkey 0x5001 2 devInst, 9), (pkey 0x5005 1 devInst, 0)] };
      Holds s 16311 0 x y ∧ y.ent.kind = 6 ∧ y.ent.remote = true ∧ y.started < y.ent.firings ∧ headTokens x y.ent = some (tok 5 :: []) ∧ (tok 5).st = .confirmed ∧
      lget 0 y.ent.outQ 0 = 7 ∧ hasRoute s 7 = true ∧ (peerOf s 7).inc.isSome = true ∧ hasRoute (hosting x) 7 = false ∧ x.owner = .run 0 1 ∧ x.rerun = false ∧
      cmdOf (hosting x) 0 1 = some (cmd1 (entry 0x20 0) []) ∧ (cmd1 (entry 0x20 0) []).result = none) := by
  unfold Holds Uncached Settled
  refine ⟨⟨oneSliceTask_ok ?_, ?_⟩, fun k => ⟨oneSliceTask_ok ?_, ?_, ?_, ?_, ?_, ?_, ?_, ?_, ?_, isOk_eq ?_, ?_⟩, ?_⟩
  case refine_2 => decide +kernel
  all_goals first
    | (unfold Holds; decide +kernel)
    | (revert k; unfold Holds; decide +kernel)
    | (revert k; decide +kernel)
    | decide +kernel

end Sys2Proof.Tests
end

