-- ==== Sys2Proof/Tests/W9.lean ====
section
/-!
SUPPORT. Witnesses: groves' words, slots and cores, vectors and matrices.
-/
namespace Sys2Proof.Tests
set_option Elab.async false
open Sys2Proof.Machine Sys2Proof.Claims

/-- A task on core 63 of grove 431, and that core. -/
def coreTask : Task := { place := .core 27647, grove := 431 }
def k0 : Core := { ins := 16311, node := 0, firing := 0, task := 0 }

/-- The parameters of a partition of 256 MiB at 0 with a grove split. -/
def window (split : Nat) : Sparse Nat := [(pkey 0x3001 1 0, split), (pkey 0x5803 1 0, 1 <<< 32)]

/-- A device whose core 27,647 runs the task of an instance. -/
def onCore (x : Inst) (k : Core) (split : Nat := 0) : State := { hosting x with gr.cores := [(27647, k)], dir.params := window split }
def coreInst (z : Task) : Inst := oneTask (ent 1 [] []) z firing0
def coreAt : State := onCore (coreInst coreTask) k0

/-- A grove word from COND, NEXT, TARGET, its four slots, STRIDES, REP and IMM. -/
def word (cond next target sc ve ma me strides rep imm : Nat) : BitVec 256 :=
  BitVec.ofNat 256 ((cond <<< 250) + (next <<< 246) + (target <<< 232) + (sc <<< 192) + (ve <<< 160) + (ma <<< 128) + (me <<< 96) + (strides <<< 64) + (rep <<< 48) + imm)

/-- A microcode whose grove store holds a word at address 0. -/
def holding (w : BitVec 256) : State := { coreAt with gr.micro.stores := [[(0, w)], [], []] }

theorem fetches_store (w : BitVec 256) : Fetches (holding w) 27647 k0 (gword w) false 0 :=
  .inr (.inl ⟨rfl, rfl, rfl, rfl, fun _ h => by cases h⟩)

/-- A word whose condition is flag 0, an empty word with every stride and 65,536 iterations, a VBCAST of s3 in INT32, END alone, and ADD s1 with VMOVS s2. -/
def wFlag : BitVec 256 := word 16 0 0 0 0 0 0 0 0 0
def wEmpty : BitVec 256 := word 0 4 0x3FFF 0 0 0 0 0xFF80017F 65535 0
def wBcast : BitVec 256 := word 0 0 0 0 ((14 <<< 26) + (3 <<< 16) + (1 <<< 4)) 0 0 0 0 0
def wEnd : BitVec 256 := word 0 7 0 0 0 0 0 0 0 0
def wBoth : BitVec 256 := word 0 1 7 ((1 <<< 26) + (1 <<< 21) + (4 <<< 16) + (5 <<< 11)) ((15 <<< 26) + (2 <<< 21) + (3 <<< 16) + (7 <<< 11) + (1 <<< 4)) 0 0 0 0 0

theorem witness_NextActionsMoveTheCore :
    Running coreAt 27647 k0 ∧
    (k0.stack.length < 4 ∧ k0.stack = [] ∧ 4 ≤ { k0 with stack := List.replicate 4 (false, 1) }.stack.length ∧ { k0 with stack := [(true, 511)] }.stack = (true, 511) :: [] ∧
      Running (onCore (coreInst coreTask) { k0 with stack := List.replicate 4 (false, 1) }) 27647 { k0 with stack := List.replicate 4 (false, 1) }) ∧
    (let x := coreInst coreTask;
      let f : Firing := { num := 0, tasks := [coreTask] };
      let g : Firing := { num := 0, tasks := [coreTask], taken := [{ tok 1 with st := .prov 3 }] };
      instOf coreAt 16311 = some x ∧ firingOf coreAt 16311 0 0 = some f ∧ f.tasks[0]? = some coreTask ∧ inputsConfirmed f = true ∧ x.owner = .run 0 1 ∧
      x.rerun = false ∧ cmdOf coreAt 0 1 = some (cmd1 (entry 0x20 0) []) ∧ (cmd1 (entry 0x20 0) []).result = none ∧ inputsConfirmed g = false) ∧
    (let two : Firing := { num := 0, tasks := [coreTask, { place := .core 27646, grove := 431 }] };
      let s := onCore (inst [{ ent := { ent 1 [] [] with width := 2 }, started := 1, firings := [two] }] []) k0;
      Running s 27647 k0 ∧ firingOf s 16311 0 0 = some two ∧ 1 ≠ k0.task ∧ two.tasks[1]? = some { place := .core 27646, grove := 431 } ∧ TaskPlace.core 27646 ≠ .retired) ∧
    (let f : Firing := { num := 0, tasks := [coreTask] };
      let y : Node := { ent := ent 1 [] [0], started := 1, firings := [f] };
      let x := inst [y] [{ emptyQ with occupied := 1 }];
      let s := onCore x k0;
      Running s 27647 k0 ∧ Holds s 16311 0 x y ∧ coreTask.shadowed = false ∧ f.freed = false ∧ f.emitted = false ∧ outQs y.ent = [0] ∧ (queueOf x 0).isSome = true ∧
      standsRetracted x 0 f.num 0 = false ∧ s.fb.store = []) := by
  unfold Running Holds
  refine ⟨?_, ?_, ?_, ?_, ?_⟩ <;> decide +kernel

theorem witness_WordsIssueAndGoOn :
    (Running (holding wFlag) 27647 k0 ∧ (gword wFlag).cond ≤ 38 ∧ k0.iter = 0 ∧ k0.scan = none ∧ k0.scanOut = none ∧ condTrue (holding wFlag) 27647 k0 (gword wFlag).cond = false ∧
      param (holding wFlag) 0x3002 1 0 ≠ 0) ∧
    (let w := gword wEmpty;
      condTrue (holding wEmpty) 27647 k0 w.cond = true ∧ w.sop = 0 ∧ w.mop = 0 ∧ w.mem = 0 ∧ w.next ≤ 4 ∧ w.vop = 0 ∧ w.rep = 65535 ∧ Running (holding wEmpty) 27647 k0) ∧
    (let w := gword wBcast;
      condTrue (holding wBcast) 27647 k0 w.cond = true ∧ w.sop = 0 ∧ w.mop = 0 ∧ w.mem = 0 ∧ w.next ≤ 4 ∧ w.vop = 14 ∧ w.rep = 0 ∧ w.strides = 0 ∧ w.v.fmt = 1 ∧ w.v.ksel = 0) ∧
    (let w := gword wBoth;
      condTrue (holding wBoth) 27647 k0 w.cond = true ∧ w.sop = 1 ∧ w.vop = 15 ∧ w.v.fmt = 1 ∧ w.v.vb.val < 8 ∧ w.v.vd.val ≠ w.sd ∧ w.mop = 0 ∧ w.mem = 0 ∧ w.rep = 0 ∧
      w.strides = 0 ∧ w.next ≤ 4 ∧ issueFault (holding wBoth) k0 w = none ∧ w.next ≠ 7 ∧ matrixBad w k0 = false) ∧
    (let w := gword wEnd;
      Running (holding wEnd) 27647 k0 ∧ w.cond ≤ 38 ∧ condTrue (holding wEnd) 27647 k0 w.cond = true ∧ issueFault (holding wEnd) k0 w = none ∧ w.vop ≠ 22 ∧ w.mem = 0 ∧
      w.next = 7) := by
  unfold Running
  refine ⟨?_, ?_, ?_, ?_, ?_⟩ <;> decide +kernel

theorem witness_WordsAreFetchedFromStoreOrPatch :
    Fetches (holding wFlag) 27647 k0 (gword wFlag) false 0 ∧
    (let s := { coreAt with gr.micro.patch := [{ id := 1, words := [(511, wBcast)], regs := [(0, (5, 7)), (15, (0, 511))] }, {}, {}] };
      Fetches s 27647 k0 (gword wBcast) true 511 ∧ Fetches s 27647 { k0 with inPatch := true, upc := 511 } (gword wBcast) true 511) := by
  refine ⟨fetches_store _, .inr (.inr ⟨rfl, rfl, rfl, [(0, (5, 7))], (15, (0, 511)), [], rfl, rfl, rfl, ?_⟩), .inl ⟨rfl, rfl, rfl, rfl⟩⟩
  decide

theorem witness_ScalarSlotsWriteOneRegister :
    let k := { k0 with s := [0, 31, 32] ++ List.replicate 29 0 }
    Running (onCore (coreInst coreTask) k) 27647 k ∧ (getS k 1).toNat < 32 ∧ 32 ≤ (getS k 2).toNat ∧
    taskOf (onCore (coreInst coreTask) k) k.ins k.node k.firing k.task = some coreTask := by
  unfold Running
  decide +kernel

/-- A core whose a0 holds an address. -/
def kAt (a : Nat) : Core := { k0 with a := [BitVec.ofNat 48 a, 0, 0, 0] }
def slot0 : MemSlot := ⟨0, 31, 0⟩
def memAt (z : Task) (a : Nat) (split : Nat := 0) : State := onCore { coreInst z with argAddr := 0xFFFFFF000000, args := List.replicate 4096 0 } (kAt a) split

theorem witness_MemorySlotsReadAndStore :
    (∀ a ∈ [1966048, 1966080, 1966047, 0x20000, 0x20001, 0xFFFFFF000FE0, 0x10000000],
      Running (memAt coreTask a) 27647 (kAt a) ∧ (taskCtx (memAt coreTask a) (kAt a)).isSome = true ∧ (getA (kAt a) 0 + BitVec.ofNat 48 (32 * slot0.offset.toNat)).toNat = a) ∧
    (let s := memAt coreTask 0;
      1966048 < scratchBytes (splitOf s 0) ∧ 1966048 % 32 = 0 ∧ scratchBytes (splitOf s 0) ≤ 1966080 ∧ 1966047 < scratchBytes (splitOf s 0) ∧ 1966047 % 32 ≠ 0) ∧
    (inShadow { coreTask with shadowed := true } = true ∧ { coreTask with shadowed := true }.undo = [] ∧ { coreTask with shadowed := true }.redo = [] ∧ inShadow coreTask = false) ∧
    (let s := memAt { coreTask with shadowed := true } 1966048;
      (∀ q ∈ s.gr.cores, q.1 ≠ 27647 → ¬(q.2.ins = 16311 ∧ q.2.node = 0 ∧ q.2.firing = 0 ∧ q.2.task = 0)) ∧
      ∀ w ∈ shadowOn s 431, (w.ins = 16311 ∧ w.node = 0 ∧ w.firing = 0 ∧ w.num = 0) ∨ ∀ u ∈ w.val.undo, u.line ≠ 64 * (1966048 / 64)) ∧
    (let s := memAt coreTask 0;
      deviceOk s 0 0x20001 32 = true ∧ 0x20001 % 32 ≠ 0 ∧ deviceOk s 0 0x10000000 32 = false ∧ ¬(0xFFFFFF000000 ≤ 0x10000000 ∧ 0x10000000 + 32 ≤ 0xFFFFFF000000 + 4096) ∧
      deviceOk s 0 0xFFFFFF000FE0 32 = false ∧ 0xFFFFFF000000 ≤ 0xFFFFFF000FE0 ∧ 0xFFFFFF000FE0 + 32 ≤ 0xFFFFFF000000 + 4096 ∧ 0xFFFFFF000FE0 % 32 = 0) ∧
    (let s := memAt coreTask 0x20000;
      deviceOk s 0 0x20000 32 = true ∧ 0x20000 % 32 = 0 ∧ poisonOf s (0x20000 / 64) = none ∧ cacheBytes (splitOf s 0) = 0 ∧ Uncached s ∧
      (∀ bs, overlay s 431 0x20000 bs = bs)) ∧
    (let cp : GCopy := { st := .modified, data := List.replicate 64 9 };
      let s := { memAt coreTask 0x20000 1 with canopy.copies := [(copyKey (0x20000 / 64) 431, cp)] };
      deviceOk s 0 0x20000 32 = true ∧ poisonOf s (0x20000 / 64) = none ∧ cacheBytes (splitOf s 0) ≠ 0 ∧ lineBusy s (0x20000 / 64) = false ∧
      copyOfLine s 431 (0x20000 / 64) = some cp ∧ cp.data.length = 64 ∧ (cp.st = .exclusive ∨ cp.st = .modified) ∧ (unitSum s (unitPort (portOf 0x20000))).state ≠ 2) ∧
    (let imm : BitVec 48 := BitVec.ofNat 48 ((0x10 <<< 40) + (1 <<< 47));
      let s := memAt coreTask 0x20000;
      field imm.toNat 46 40 = 0x10 ∧ atomSize 0x10 = some 8 ∧ fetchOk 0x10 (bitOf imm.toNat 47) = true ∧ deviceOk s 0 0x20000 8 = true ∧ 0x20000 % 8 = 0) ∧
    (atomSize 0x25 = some 32 ∧ fetchOk 0x25 false = true ∧ deviceOk (memAt coreTask 0x20000) 0 0x20000 32 = true) := by
  unfold Running
  refine ⟨?_, ?_, ?_, ?_, ?_, ⟨?_, ?_, ?_, ?_, ?_, fun _ => rfl⟩, ?_, ?_, ?_⟩
  case refine_10 => unfold Uncached Settled; decide +kernel
  all_goals decide +kernel

/-- A vector slot of a format and MOD. -/
def vslot (fmt : Fin 8) (mod : Fin 16) (vb : Fin 32 := 2) : VSlot := ⟨1, 3, vb, 0, false, fmt, mod⟩

theorem witness_VectorLanesAreComputedUnderTheMask :
    Running coreAt 27647 k0 ∧ (∀ f : Fin 6, (vslot (Fin.ofNat 8 f.val) 0).fmt.val ≤ 5) ∧ (vslot 3 6).mod.val = 6 ∧ (vslot 3 6).fmt.val = 3 ∧ (vslot 0 1).mod = 1 ∧
    (vslot 0 4).mod = 4 ∧ (vslot 1 0).mod = 0 ∧ (vslot 4 8).mod = 8 ∧ (vslot 0 5).mod.val < 6 := by
  unfold Running
  decide +kernel

/-- Two tasks of a firing on cores 62 and 63 of grove 431. -/
def scanAt (w : Option ScanWait) : State :=
  { onCore (inst [{ ent := { ent 1 [] [] with width := 2 }, started := 1,
                    firings := [{ num := 0, tasks := [{ coreTask with place := .core 27646 }, coreTask] }] }] []) k0
      with gr.cores := [(27646, { k0 with scan := w }), (27647, { k0 with task := 1 })] }

theorem witness_ScansAndMasksMoveElements :
    Running coreAt 27647 k0 ∧ (vslot 1 0 7).fmt.val ≤ 5 ∧ (vslot 1 0 7).vb.val < vCount 1 ∧ (vslot 0 3).mod.val % 4 = 3 ∧ (vslot 1 3).mod.val % 4 = 3 ∧ (vslot 1 3).mz = false ∧
    (let k := { k0 with task := 1 };
      let d := { k0 with scan := none };
      let w : ScanWait := ⟨1, 8, 5, 2, 4, false⟩;
      Running (scanAt none) 27647 k ∧ bitOf (vslot 1 8).mod 2 = false ∧ k.scan = none ∧
      tasksOn (scanAt none) k 431 = [({ coreTask with place := .core 27646 }, 0), (coreTask, 1)] ∧ sfind (scanAt none).gr.cores 27646 = some d ∧ d.scan = none ∧
      Running (scanAt (some w)) 27647 k ∧ tasksOn (scanAt (some w)) k 431 = [({ coreTask with place := .core 27646 }, 0), (coreTask, 1)] ∧
      sfind (scanAt (some w)).gr.cores 27646 = some { k0 with scan := some w } ∧ w.fmt = 1 ∧ w.mod = (vslot 1 8).mod.val ∧ w.word = false ∧ w.vd ≠ w.vb ∧
      (vslot 1 8).vd ≠ (vslot 1 8).vb) ∧ (vslot 1 3).mod.val ≤ 3 := by
  unfold Running
  decide +kernel

/-- A core whose matrix block holds a panel of 32 bytes in row 7, and a slot of that row. -/
def panel7 (fmt : Nat) : Panel := { fmt, bytes := List.replicate 32 0x11, layer := 0 }
def kMat (fmt kp : Nat) : Core := { kAt 0x20000 with mat := { panels := [(7, panel7 fmt)], kp := [(7, kp)] } }
def xslot (fmt : Fin 8) (group : Fin 4 := 0) (layer : Fin 64 := 0) : XSlot := ⟨fmt, fmt, 7, 7, group, 0, layer, 31⟩
def matAt (fmt kp : Nat) : State := onCore (coreInst coreTask) (kMat fmt kp)

theorem witness_MatrixSlotsAccumulateAndDrain :
    (∀ f : Fin 5, Running (matAt f 0) 27647 (kMat f 0) ∧ FormatsOk (matAt f 0) (kMat f 0) (xslot (Fin.ofNat 8 f.val)) (coreInst coreTask) ∧
      Streams (matAt f 0) 27647 (kMat f 0) slot0 (memRead (matAt f 0).mem.bytes 0x20000 32) ∧
      sfind (kMat f 0).mat.panels 7 = some (panel7 f) ∧ (panel7 f).fmt = (xslot (Fin.ofNat 8 f.val)).pfmt.val ∧ (panel7 f).bytes ≠ [] ∧ 0 < rowLen f (panel7 f)) ∧
    (isScaleIter (xslot 1 0) (kMat 1 0).mat = false ∧ mIsInt 1 = true ∧
      (∀ n < 8, (sget 0 (kMat 1 0).mat.acc (accKey 7 7 n)).toInt.natAbs < 2 ^ 30 ∧ (sget 0 (kMat 1 0).mat.part (partKey 7 n)).toInt.natAbs < 2 ^ 30)) ∧
    (groupSize 1 ≠ 0 ∧ rowLen 1 (panel7 1) % groupSize 1 = 0 ∧ isScaleIter (xslot 1 1) (kMat 1 0).mat = true ∧ isScaleIter (xslot 1 1) (kMat 1 28).mat = false ∧
      28 < rowLen 1 (panel7 1) ∧ (28 + kStep 1) % groupSize 1 = 0 ∧ (24 + kStep 1) % groupSize 1 ≠ 0) ∧
    (mIsInt 4 = false ∧ isScaleIter (xslot 4) (kMat 4 14).mat = false ∧ 14 < rowLen 4 (panel7 4)) ∧
    (sfind (kMat 1 0).mat.pend 7 = none ∧ (∀ l, (coreInst coreTask).owner ≠ .list l) ∧ (nodeOf (coreInst coreTask) (kMat 1 0).node).any (·.ent.checked) = false ∧
      layerTrip (lget 0 (coreInst coreTask).layers 0) = 0) := by
  refine ⟨fun f => ⟨?_, ?_, ⟨_, _, _, 0x20000, rfl, rfl, ?_, ?_, ?_, ?_, ?_, fun _ => rfl, rfl⟩, ?_, ?_, ?_, ?_⟩, ?_, ?_, ?_, ⟨?_, fun _ h => InsFor.noConfusion h, ?_, ?_⟩⟩
  all_goals first
    | decide +kernel
    | (revert f; unfold Running; decide +kernel)
    | (revert f; unfold FormatsOk; decide +kernel)
    | (revert f; unfold Uncached Settled; decide +kernel)
    | (revert f; decide +kernel)

/-- The MATRIX slot of a format in row 7, for an operation. -/
def mword (mop mem : Nat) : GWord := { mop, x := xslot 1, mem, m := slot0 }

theorem witness_MatrixRowsComplete :
    Running (matAt 1 0) 27647 (kMat 1 0) ∧ instOf (matAt 1 0) 16311 = some (coreInst coreTask) ∧ layerMode (lget 0 (coreInst coreTask).layers 0) ≠ 2 ∧
    (∀ q ∈ [(1, 5), (2, 5), (3, 0), (4, 0)], issueFault (matAt 1 0) (kMat 1 0) (mword q.1 q.2) = none) ∧
    Streams (matAt 1 0) 27647 (kMat 1 0) slot0 (memRead (matAt 1 0).mem.bytes 0x20000 32) := by
  unfold Running Streams Uncached Settled
  refine ⟨?_, ?_, ?_, ?_, _, _, _, 0x20000, rfl, rfl, ?_, ?_, ?_, ?_, ?_, fun _ => rfl, rfl⟩ <;> decide +kernel

theorem witness_VectorRowsComplete :
    Running coreAt 27647 k0 ∧ (∀ p < 27, vectorBad { vop := p, v := vslot 1 0 } = false) ∧
    (let k := { k0 with task := 1 };
      let own (s : State) := modCore s 27647 (fun z => { z with scan := some ⟨1, 8, scanShare k (vslot 1 8), 1, 2, false⟩ });
      Running (scanAt none) 27647 k ∧ vectorBad { vop := 22, v := vslot 1 8 } = false ∧ k.scan = none ∧ scanReady (own (scanAt none)) k 431 = none ∧
      (scanReady (own (scanAt (some ⟨1, 8, 5, 2, 4, false⟩))) k 431).map scanAgrees = some true) ∧
    (let k := { k0 with scan := some ⟨1, 8, 5, 2, 4, false⟩ };
      Running (scanAt k.scan) 27646 k ∧ k.scan.isSome = true) := by
  unfold Running
  decide +kernel

/-- An instance whose layer 63 is a RERUN layer, and a ZERO word that names it. -/
def rerunInst : Inst := { coreInst coreTask with layers := List.replicate 63 0 ++ [rerunLayer] }
def wZero : BitVec 256 := word 0 0 0 0 0 ((4 <<< 28) + (1 <<< 25) + (1 <<< 22) + (63 <<< 5)) 0 0 0 0

theorem witness_RerunLayersNeedACheckedNode :
    let s := { onCore rerunInst (kMat 1 0) with gr.micro.stores := [[(0, wZero)], [], []] }
    let w := gword wZero
    Running s 27647 (kMat 1 0) ∧ instOf s 16311 = some rerunInst ∧ (nodeOf rerunInst 0).any (·.ent.checked) = false ∧
    layerMode (lget 0 rerunInst.layers (xslot 1 0 63).layer) = 2 ∧ sfind (kMat 1 0).mat.panels (xslot 1 0 63).row = some (panel7 1) ∧ (panel7 1).bytes ≠ [] ∧
    Fetches s 27647 (kMat 1 0) w false 0 ∧ (kMat 1 0).iter = 0 ∧ (kMat 1 0).scan = none ∧ (kMat 1 0).scanOut = none ∧ w.cond ≤ 38 ∧
    condTrue s 27647 (kMat 1 0) w.cond = true ∧ w.next ≤ 4 ∧ w.sop ≤ 15 ∧ memBad w = false ∧ vectorBad w = false ∧ matrixBad w (kMat 1 0) = false ∧ twoWriters w = false ∧
    w.mop ≠ 0 ∧ layerMode (lget 0 rerunInst.layers w.x.layer) = 2 := by
  refine ⟨?_, ?_, ?_, ?_, ?_, ?_, .inr (.inl ⟨rfl, rfl, rfl, rfl, fun _ h => by cases h⟩), ?_, ?_, ?_, ?_, ?_, ?_, ?_, ?_, ?_, ?_, ?_, ?_, ?_⟩
  all_goals first
    | decide +kernel
    | (unfold Running; decide +kernel)

end Sys2Proof.Tests
end

