-- ==== Sys2Proof/Tests/W10.lean ====
section
/-!
SUPPORT. Witnesses: atomics, the directory protocol, memory sequencers, memory errors and BAR2.
-/
namespace Sys2Proof.Tests
set_option Elab.async false
open Sys2Proof.Machine Sys2Proof.Claims

/-- An atomic's operands at an address. -/
def atomAt (a : Nat) : AtomArgs := ⟨BitVec.ofNat 48 a, 5, 0⟩

theorem witness_AtomicsUpdateTheirBytes :
    Uncached rdy ∧ (let a := usable rdy - 32; a % 32 = 0 ∧ a + 32 ≤ usable rdy ∧ poisonOf rdy (a / 64) = none ∧ (atomAt a).addr.toNat = a ∧ a % 8 = 0 ∧ a % 4 = 0) ∧
    ¬((atomAt 2).addr.toNat % 4 = 0 ∧ (atomAt 2).addr.toNat + 4 ≤ usable rdy) ∧ ¬((atomAt 2).addr.toNat % 32 = 0 ∧ (atomAt 2).addr.toNat + 32 ≤ usable rdy) := by
  refine ⟨?_, ?_, ?_⟩
  · unfold Uncached Settled; decide +kernel
  · decide +kernel
  · decide +kernel

/-- A device with a Canopy in which line 2,048 has a directory state, a copy in grove 431, and messages and a transaction as given. -/
def canopyAt (d : DirState) (c : Option GCopy := none) (fs : List Flight := []) (h : Option HomeTxn := none) : State :=
  { rdy with canopy := { laidOut := true, lines := [(2048, { dir := d })], copies := (c.map (fun x => (copyKey 2048 431, x))).toList, flights := fs,
                         homes := (h.map (fun x => (2048, x))).toList } }

/-- A message of line 2,048 to or from grove 431, and a copy. -/
def fl (m : DMsg) (data : List Byte := []) : Flight := ⟨m, 431, 2048, data⟩
def copyIn (st : CopyState) : GCopy := { st, data := List.replicate 64 7 }

/-- There is room for that line in all of these states. -/
theorem roomy_canopyAt (d : DirState) (c : Option GCopy) (fs : List Flight) (h : Option HomeTxn) : Roomy (canopyAt d c fs h) 431 2048 := by
  have n : (canopyAt d c fs h).canopy.copies.length ≤ 1 := by
    cases c
    · exact Nat.zero_le 1
    · exact Nat.le_refl 1
  refine ⟨.inl rfl, rfl, decide_eq_true ?_, Nat.lt_of_le_of_lt (List.length_filter_le ..) (Nat.lt_of_le_of_lt n (by decide))⟩
  unfold evLines
  rw [List.length_map]
  exact Nat.lt_of_le_of_lt (List.length_filter_le ..) (Nat.lt_of_le_of_lt n (by decide))

theorem witness_DirectoryMessagesMoveOneLine : Roomy rdy 431 2048 ∧ (∀ d c fs h, Roomy (canopyAt d c fs h) 431 2048) ∧
    (lineBusy rdy 2048 = false ∧ copyOfLine rdy 431 2048 = none ∧ dirOf rdy 2048 = .u ∧ dirOf (canopyAt (.ow 0)) 2048 = .ow 0 ∧ 0 ≠ 431 ∧
      lineBusy (canopyAt (.ow 0)) 2048 = false ∧ copyOfLine (canopyAt (.ow 0)) 431 2048 = none) ∧
    (dirOf (canopyAt (.sh 1)) 2048 = .sh 1 ∧ groupGroves 1 431 ≠ [] ∧ groupGroves 0 431 = [] ∧ dirOf (canopyAt (.sh 0)) 2048 = .sh 0 ∧
      copyOfLine (canopyAt (.sh 1) (some (copyIn .shared))) 431 2048 = some (copyIn .shared) ∧ (copyIn .shared).st = .shared ∧ lineBusy (canopyAt (.sh 1)) 2048 = false) ∧
    (let s := canopyAt (.ow 0) none [] (some { req := .rdX, g := 5, waiting := [0] });
      (sfind s.canopy.homes 2048).isSome = true ∧ copyOfLine s 431 2048 = none) ∧
    (∀ m ∈ [DMsg.snpSh, .snpInv], ∀ st ∈ [CopyState.modified, .shared, .exclusive, .evicting],
      let s := canopyAt (.ow 431) (some (copyIn st)) [fl m];
      flightFor s m 431 2048 = some (fl m) ∧ copyOfLine s 431 2048 = some (copyIn st) ∧ (copyIn st).st = st ∧ copyOfLine (canopyAt (.ow 431) none [fl m]) 431 2048 = none ∧
      flightFor (canopyAt (.ow 431) none [fl m]) m 431 2048 = some (fl m)) ∧
    (∀ q ∈ [DMsg.rdS, .rdX, .upg], ∀ f ∈ [fl .rspS, fl .rspI, fl .rspD (List.replicate 64 1), fl .evictingA],
      let h : HomeTxn := { req := q, g := 5, waiting := [431] };
      let s := canopyAt (.ow 431) none [f] (some h);
      sfind s.canopy.homes 2048 = some h ∧ h.waiting = [431] ∧ h.acks = [] ∧ (∀ q ∈ s.canopy.queue, q.2.2 ≠ 2048) ∧ dirOf s 2048 = .ow 431 ∧
      flightFor s f.msg 431 2048 = some f ∧ 431 ∉ h.evHave ∧ 431 ∈ { h with evHave := [431] }.evHave ∧
      sfind (canopyAt (.ow 431) none [f] (some { h with evHave := [431] })).canopy.homes 2048 = some { h with evHave := [431] }) ∧
    (let h : HomeTxn := { req := .upg, g := 5, waiting := [431] };
      let s0 := canopyAt (.sh 1) none [fl .rspI] (some h);
      let s := { s0 with canopy := { s0.canopy with copies := [(copyKey 2048 5, copyIn .shared)] } };
      sfind s.canopy.homes 2048 = some h ∧ dirOf s 2048 = .sh 1 ∧ bitOf 1 (h.g / 8) = true ∧ copyOfLine s h.g 2048 = some (copyIn .shared) ∧ (evRoom s 431 = true ∧ s.canopy.lines.length < 16) ∧
      (copyIn .shared).st ≠ .evicting ∧ flightFor s .rspI 431 2048 = some (fl .rspI)) ∧
    (∀ st ∈ [CopyState.modified, .shared, .exclusive],
      let s := canopyAt (.ow 431) (some (copyIn st));
      copyOfLine s 431 2048 = some (copyIn st) ∧ flightFor s .evictD 431 2048 = none ∧ flightFor s .evictC 431 2048 = none) ∧
    (∀ f ∈ [fl .evictD (List.replicate 64 1), fl .evictC],
      let s := canopyAt (.ow 431) none [f];
      sfind s.canopy.homes 2048 = none ∧ dirOf s 2048 = .ow 431 ∧ flightFor s f.msg 431 2048 = some f) ∧ (fl .evictD (List.replicate 64 1)).data.length = 64 ∧ (fl .evictC).data = [] ∧
    (∀ m ∈ [DMsg.evictAck, .dataE, .dataS, .dataX, .upgAck],
      let s := canopyAt (.ow 431) (some (copyIn .shared)) [fl m];
      flightFor s m 431 2048 = some (fl m) ∧ copyOfLine s 431 2048 = some (copyIn .shared)) := by
  refine ⟨⟨.inr (by decide), rfl, rfl, by decide⟩, roomy_canopyAt, ?_, ?_, ?_, ?_, ?_, ?_, ?_, ?_, ?_, ?_, ?_⟩ <;> decide +kernel

/-- The slot of the last bank, row and column of the last rank of a port. -/
def lastBank : MSlot := ⟨3, 1, 15, 262143, 63, 0, 7, 0, 0, 0, 0⟩

theorem witness_SequencerCommandsActOnTheirPort :
    lastBank.qsel.toNat ≤ 3 ∧ lastBank.poll.toNat ≤ 7 ∧ { lastBank with qsel := 3 }.qsel.toNat ≤ 3 ∧ (∀ fr, operandsOf lastBank fr = lastBank) ∧
    NextFits 2 (mport rdy 47).seq lastBank.next lastBank.target.toNat ∧
    (let bk := 16 * (2 * 3 + 1) + 15;
      let key := bk * 2 ^ 24 + 64 * 262143 + 63;
      let x : MPort := { openRow := [(bk, 262143)], cells := [(key, 9)], fifo := [3] };
      let s := { rdy with ports := [(47, x)] };
      mport s 47 = x ∧ sfind x.openRow bk = some 262143 ∧ key = bk * 2 ^ 24 + 64 * 262143 + lastBank.col.toNat ∧ sfind x.cells key = some 9 ∧ x.fifo = 3 :: [] ∧
      (mport rdy 47).fifo = [] ∧ sfind (mport rdy 47).openRow bk = none) ∧
    serving rdy (unitPort 47) = true ∧ (unitSum rdy (unitPort 47)).inSurvey = false := by
  refine ⟨by decide, by decide, by decide, fun _ => rfl, ⟨by decide, by decide⟩, ?_⟩
  decide +kernel

theorem witness_MemoryErrorsAreCountedAndPoisoned :
    (serving rdy (unitPort 47) = true ∧ (unitSum rdy (unitPort 47)).inSurvey = false) ∧
    (dparam rdy 0x4003 1 ≠ 0 ∧ rdy.mem.eccOn = true ∧ portOf (64 * 0) = 0 ∧ 64 * 0 < usable rdy ∧ sfind rdy.mem.latent 0 = none ∧
      sfind { rdy with mem := { density := 16, latent := [(0, .corrected)] } }.mem.latent 0 = some .corrected) ∧
    (47 ∈ activeBanks rdy 5 ∧ rdy.canopy.bankHour = [] ∧ isReservedLoc (.hot 0) = true ∧ isReservedLoc (.stand 131071) = true ∧ isReservedLoc (.staging 7 2) = true) ∧
    (let s := { rdy with rows.staged := [staged 7 5 .committed] };
      let f : PfEntry := { part := 0, slot := 0, row := 0, bytes := [] };
      entryOf s 7 = some (staged 7 5 .committed) ∧ 2 < stageLines (staged 7 5 .committed).addr (staged 7 5 .committed).bytes.length ∧
      sfind { s with thk.prefetch := [(0x40000, f)] }.thk.prefetch (staged 7 5 .committed).addr = some f) ∧
    (let s := { rdy with canopy := { laidOut := true, lines := [(1, { dirty := true })] } };
      sfind s.canopy.lines ((64 : BitVec 48).toNat / 64) = some { dirty := true } ∧ 0 ∈ activeBanks s 0) ∧
    (let s := { rdy with canopy := { laidOut := true, flipWait := [299], active := [(5, List.range 47)] } };
      let l := s.canopy.flipWait.filter (fun b => decide (b / 50 = 5));
      l ≠ [] ∧ s.canopy.homes = [] ∧ (activeBanks s 5).length + l.length ≤ 48) := by decide +kernel

theorem witness_BarAccessesReachMemory :
    lget false rdy.boot.hostL0 1 = true ∧ rdy.power.intakeStopped = false ∧ { rdy with power.intakeStopped := true }.power.intakeStopped = true ∧ 6 ≤ rdy.boot.stage ∧ lget false s0.boot.hostL0 1 = false ∧
    (let s := { atStage 5 with boot := { stage := 5, hostL0 := [true, true] } };
      lget false s.boot.hostL0 1 = true ∧ s.power.intakeStopped = false ∧ s.boot.stage < 6) ∧ Uncached rdy ∧ 0 < (bar2Map rdy 1 0 0).2 ∧ firstPoison rdy (bar2Map rdy 1 0 0).1 4095 = none := by
  unfold Uncached Settled
  decide +kernel

end Sys2Proof.Tests
end

