-- ==== Sys2Proof/Tests/W11.lean ====
section
/-!
SUPPORT. Witnesses: the fabric.
-/
namespace Sys2Proof.Tests
set_option Elab.async false
open Sys2Proof.Machine Sys2Proof.Claims

/-- The fields of a flit: LSEQ, KIND, ACKSEQ, DST, HOPS, first, count. -/
def flitNum (lseq kind ack dst hops : Nat) (first count : Nat := 0) : Nat :=
  lseq + (kind <<< 12) + (ack <<< 16) + (first <<< 43) + (dst <<< 48) + (7 <<< 64) + (hops <<< 104) + (count <<< 208)

/-- A flit with its CRC. -/
def flitOf (lseq kind ack dst hops : Nat) : BitVec 1024 :=
  let n := flitNum lseq kind ack dst hops
  BitVec.ofNat 1024 (putField n 127 112 (crc16 (crcBytes n)))

/-- A flit in a transit queue, where its CRC has been checked. -/
def inTransit (dst hops : Nat) (first count : Nat := 0) : BitVec 1024 := BitVec.ofNat 1024 (flitNum 0 1 0 dst hops first count)

/-- A device whose fabric port 11 is as given, with routes to every address by port 0 and with address 9. -/
def portAt (x : FPort) (fab : Fabric := {}) : State :=
  { rdy with fab := { fab with ports := [(11, x)], usable := [0, 11] }, dir.params := [(pkey 0x5001 2 devInst, 9), (pkey 0x5005 1 devInst, 0), (pkey 0x5005 4 devInst, 0)] }
def up11 : FPort := { state := 2, width := 4, lanes := 15 }

theorem witness_FlitsArriveInOrderAndGoOn :
    (mayTrain rdy 11 = true ∧ (fport rdy 11).fails < 2 ∧ mayTrain (portAt { state := 1, fails := 2 }) 11 = true ∧ 2 ≤ (fport (portAt { state := 1, fails := 2 }) 11).fails ∧
      serving (portAt { state := 1, fails := 2 }) (unitFabric 11) = true ∧ serving rdy (unitFabric 11) = true) ∧
    (fport (portAt up11) 11 = up11 ∧ up11.state = 2 ∧ crcOk (flitOf 0 1 4094 9 64 + (1 <<< 112)) = false) ∧
    (∀ k ∈ [0, 1], crcOk (flitOf 0 k 4094 9 64) = true ∧ flNak (flitOf 0 k 4094 9 64).toNat = false ∧ flCredits (flitOf 0 k 4094 9 64).toNat = 0 ∧
      (∀ q ∈ up11.retry, q.1 ≠ flAck (flitOf 0 k 4094 9 64).toNat) ∧ up11.waiting = [] ∧ up11.credits.all (· ≤ 128) = true ∧ flKind (flitOf 0 k 4094 9 64).toNat = k) ∧
    (flLseq (flitOf 0 1 4094 9 64).toNat = (up11.rxSeq + 1) % 4096 ∧ flLseq (flitOf 1 1 4094 9 64).toNat ≠ (up11.rxSeq + 1) % 4096 ∧ flDst (flitOf 0 1 4094 4096 64).toNat = 4096) ∧
    (∀ k ∈ [1, 2], crcOk (flitOf 0 k 4094 4097 64) = true ∧ flNak (flitOf 0 k 4094 4097 64).toNat = false ∧ flCredits (flitOf 0 k 4094 4097 64).toNat = 0 ∧
      flKind (flitOf 0 k 4094 4097 64).toNat = k ∧ flLseq (flitOf 0 k 4094 4097 64).toNat = (up11.rxSeq + 1) % 4096 ∧ 4096 < flDst (flitOf 0 k 4094 4097 64).toNat) ∧
    (let l : LFlit := ⟨5, inTransit 7 64, none, 0⟩;
      let x := { up11 with retry := [(4094, l), (4095, l), (0, l)] };
      let n := (flitOf 0 0 4095 0 0).toNat;
      flAck n = 4095 ∧ flKind n = 0 ∧ flNak n = false ∧ crcOk (flitOf 0 0 4095 0 0) = true ∧ x.waiting = [] ∧ x.retry = [(4094, l)] ++ (flAck n, l) :: [(0, l)] ∧
      (∀ q ∈ [(4094, l)], q.1 ≠ flAck n) ∧ x.retry ≠ [] ∧ x.attempts < 8) ∧
    (let f : LFlit := ⟨5, inTransit 7 64, none, 0⟩;
      let o : OutOp := { dest := 7, oseq := 5, opc := 3, part := 0, arg := 0, data := [], owner := .other };
      let x := { up11 with retry := [(0, f)], attempts := 8 };
      let s := portAt x { out := [o] };
      x.state = 2 ∧ x.waiting = [] ∧ s.fab.out = [o] ∧ o.dest = flDst f.flit.toNat ∧ o.dest ≠ 0 ∧ o.oseq = BitVec.ofNat 64 f.op ∧ f.op ≠ 0 ∧ flVc f.flit.toNat ≠ 1 ∧ o.lost < 4 ∧
      otherManager s = none ∧ hasRoute { s with fab := { s.fab with usable := s.fab.usable.filter (· ≠ 11) } } o.dest = true ∧ ¬x.attempts < 8) ∧
    (∀ k : Fin 3,
      let n := lget 0 [inTransit 7 1, inTransit 7 2, inTransit 9 2 1 37] k;
      let u : Transit := ⟨11, n, 0⟩;
      let x := { up11 with transit := [u] };
      let s := { portAt x with fab := { (portAt x).fab with ports := [(0, up11), (11, x)] } };
      x.transit = u :: [] ∧ u.port ≠ 14 ∧ fport s 0 = up11 ∧ up11.waiting = [] ∧ up11.retry.length < 512 ∧ up11.busy = [] ∧ 0 < lget 0 up11.credits (flVc n.toNat) ∧
      routePort s (flEpoch n.toNat) (flDst n.toNat) = some (if k = 2 then 14 else 0) ∧
      up11.owed = [0, 0, 0, 0] ∧ flVc n.toNat < up11.owed.length ∧ { x with state := 1 }.state ≠ 2 ∧
      (let y := { up11 with credits := [0, 0, 0, 0] };
        fport { s with fab := { s.fab with ports := [(0, y), (11, x)] } } 0 = y ∧ lget 0 y.credits (flVc n.toNat) = 0)) ∧
    (flHops (inTransit 7 1).toNat ≤ 1 ∧ 1 < flHops (inTransit 7 2).toNat ∧ flFirst (inTransit 9 2 1 37).toNat = true ∧ flCount (inTransit 9 2 1 37).toNat = 37) ∧
    (let a : Assembly := { src := 7, vc := 0, oseq := 3, nflits := 2, got := 1, prov := false, ticket := 0, bytes := [] };
      [a].any (fun a => decide (a.src = (7 : BitVec 16).toNat) && decide (a.oseq = 3)) = true) := by
  refine ⟨?_, ?_, ?_, ?_, ?_, ?_, ?_, ?_, ?_, ?_⟩ <;> decide +kernel

theorem witness_NeighboursElectAManagerAndTime :
    let m := portAt up11 { isManager := true }
    let c : Candidate := ⟨3, 77⟩
    let n := portAt up11 { manager := some c }
    solo m = false ∧ (fport m 11).state = 2 ∧ m.fab.isManager = true ∧ n.fab.isManager = false ∧ n.fab.manager = some c ∧ c.serial ≠ n.fuses.serial.toNat ∧ upPorts m = [11] ∧
    sget 0 m.fab.beacons 5 = 0 ∧ n.fab.lastTime = 0 ∧ 1 + 500000 ≤ { n.fab with lastTime := 500001 }.lastTime ∧ n.time.src = 0 ∧ { n with time := { n.time with src := 2 } }.time.src = 2 ∧
    (11, c) ∈ { n.fab with heard := [(11, c)] }.heard ∧ c.priority ≠ 0 := by decide +kernel

/-- An operation from device 7 with data. -/
def opOf (data : List Byte) (arg : Nat := 0) : OpMsg := ⟨7, 1, 0, 1, 0, BitVec.ofNat 32 arg, false, 0, data, none⟩

/-- `Fresh`, of a source with no window yet, in a device that is awake. -/
theorem fresh_ok {s : State} {m : OpMsg} (h : fabricOn s = true ∧ 1 ≤ m.src.toNat ∧ m.src.toNat ≤ 4096 ∧ m.disc = none ∧ workArrives s = s ∧ m.dinc = s.seed.incarnation)
    (hw : s.fab.windows = []) : Fresh s m := by
  obtain ⟨a, b, c, d, e, f⟩ := h
  exact ⟨a, b, c, d, e, f, fun w hw' => by rw [hw] at hw'; cases hw'⟩

/-- A ring 4095 that remote devices may use, a BUFFER for them as handle 1, and a device with both. -/
def farRing (isLocal : Bool) (tail : BitVec 32) : Ring := { hostRing with isLocal, remoteOk := true, sqTail := tail, sqBase := 0x10000 }
def farAt (x : Ring) : State := { portAt up11 with trail := { rings := [(4095, x)], handles := [(1, hnd kBuffer 0x20000 8192)] } }

/-- The data of an operation on that handle at an offset, with further bytes. -/
def onHandle (off : Nat) (l : List Byte) : List Byte := leBytes 4 0x100001 ++ leBytes 8 off ++ l

theorem far_fresh (data : List Byte) : Fresh (farAt (farRing true 63)) (opOf data 4095) :=
  fresh_ok ⟨by decide +kernel, Nat.le_add_left 1 6, Nat.le_add_right 7 4089, rfl, rfl, rfl⟩ rfl

theorem witness_FabricOperationsExecuteOnce :
    (∀ data, Fresh (farAt (farRing true 63)) (opOf data 4095)) ∧
    (let x := farRing true 63;
      let s := farAt x;
      let m := opOf (leBytes 64 127) 4095;
      field m.arg.toNat 11 0 = 4095 ∧ ringOf s 4095 = some x ∧ (x.state = 1 ∨ x.state = 3) ∧ x.remoteOk = true ∧ x.isLocal = true ∧
      (x.sqTail - x.sqHead).toNat < depth x ∧ Uncached s ∧ depth (farRing true 64) ≤ ((farRing true 64).sqTail - (farRing true 64).sqHead).toNat ∧
      (BitVec.ofNat 32 64 - x.sqHead).toNat ≤ depth x ∧ (BitVec.ofNat 32 64 - x.sqTail).toNat ≤ depth x ∧
      ringOf s (field (opOf [] 4094).arg.toNat 11 0) = none ∧ bitOf (opOf [] 4095).arg.toNat 16 = false ∧
      (s.root.staging.filter (fun u => decide (u.die = ((opOf [] 4095).src.toNat - 1) % 6))).length < 4096 ∧ (opOf []).prov = false) ∧
    (let s := farAt (farRing true 63);
      let w := opOf (onHandle 4096 (List.replicate 4096 1)) 4095;
      remoteReloc s w false true (w.data.length - 12) = .ok 0x21000 ∧ 12 ≤ w.data.length ∧ w.data.length ≤ 4108) ∧
    (let s := farAt (farRing true 63);
      let r := opOf (onHandle 4096 (leBytes 4 4096)) 4095;
      remoteReloc s r true false 4096 = .ok 0x21000 ∧ leAt r.data 12 4 = 4096 ∧ firstPoison s 0x21000 4096 = none) ∧
    (let s := farAt (farRing true 63);
      let a := opOf (onHandle 64 (leBytes 1 0x90 ++ leBytes 32 5)) 4095;
      remoteReloc s a true true 8 = .ok 0x20040 ∧ leAt a.data 12 1 % 128 = 0x10 ∧ atomSize 0x10 = some 8 ∧ fetchOk 0x10 (bitOf (leAt a.data 12 1) 7) = true ∧
      0x20040 % 8 = 0 ∧ poisonOf s (0x20040 / 64) = none) ∧
    (∃ e, ∀ r a b, remoteReloc (farAt (farRing true 63)) (opOf (List.replicate 16 0) 4095) r a b = .error e) ∧
    (let m := opOf (leBytes 64 1);
      leAt m.data 0 1 = 1 ∧ leAt m.data 6 2 = 0 ∧ (∀ x ∈ (farAt (farRing true 63)).dir.txns, x.num ≠ 0)) ∧
    (let w : Window := { inc := 1, high := 9, seen := [(9, .answered 0 0)] };
      let s := { farAt (farRing true 63) with fab := { (portAt up11).fab with windows := [(7, w)] } };
      s.fab.windows = [((opOf []).src.toNat, w)] ∧ w.inc = (opOf []).sinc ∧ w.high < (9 : BitVec 64).toNat + 1024 ∧ sfind w.seen (9 : BitVec 64).toNat = some (.answered 0 0)) := by
  refine ⟨far_fresh, ?_, ⟨isOk_eq ?_, ?_⟩, ⟨isOk_eq ?_, ?_⟩, ⟨isOk_eq ?_, ?_⟩, ⟨stBadHandle, fun r a b => ?_⟩, ?_, ?_⟩
  case refine_8 => rfl
  all_goals first
    | decide +kernel
    | (unfold Uncached Settled; decide +kernel)

theorem witness_SourceRoutedOperationsFollowTheirPath :
    let s := portAt up11 { manager := some ⟨3, 77⟩ }
    let d : Disc := { port := 11, route := [], path := [0, 1, 2], serial := 5 }
    (fabricOn s = true ∧ { d with route := [11, 0] }.route = 11 :: [0] ∧ (fport s 11).state = 2 ∧ d.path.length + 1 < dparam s 0x5001 4 ∧ workArrives s = s ∧
      s.fab.manager.map (·.serial) ≠ some d.serial.toNat ∧ s.fab.manager.map (·.serial) = some { d with serial := 77 }.serial.toNat ∧
      (⟨7, 5, 0, false, [], [11, 0]⟩ : AnsMsg).path = 11 :: [0]) ∧
    ∃ u r, mgmtRun s (BitVec.ofNat 16 (managerNow s)) (leBytes 64 1) = (u, some r) := by
  refine ⟨by decide +kernel, ?_⟩
  have h : (mgmtRun (portAt up11 { manager := some ⟨3, 77⟩ }) (BitVec.ofNat 16 (managerNow (portAt up11 { manager := some ⟨3, 77⟩ }))) (leBytes 64 1)).2.isSome = true := by
    decide +kernel
  obtain ⟨r, e⟩ := Option.isSome_iff_exists.mp h
  exact ⟨_, r, Prod.ext rfl e⟩

/-- A received provisional ticket, in a state as given. -/
def rxTicket (st : Nat) : ProvRx := { src := 7, ticket := 16777215, part := 0, key := 0, slot := 0, since := 0, state := st }

theorem witness_TicketsConfirmAndRetractTokens :
    let m := opOf (leBytes 4 16777215)
    let s (st : Nat) : State := { portAt up11 with fb := { provRx := [rxTicket st] } }
    (∀ st, Fresh (s st) m) ∧ m.data = leBytes 4 (16777215 : BitVec 24).toNat ∧ m.src.toNat = 7 ∧ (∀ r ∈ (s 0).fb.provRx, r.src = 7 → r.ticket = 16777215 → r.state = 0) ∧
    (rxTicket 1 ∈ (s 1).fb.provRx ∧ (rxTicket 1).src = 7 ∧ (rxTicket 1).ticket = 16777215 ∧ (rxTicket 1).state = 1) ∧
    (let e : ProvEntry := { ticket := 16777215, part := 0, ins := none, node := 0, firing := 0, out := 0, slot := 0, key := 0, token := 0, dests := [{ dest := 7 }] };
      e.ticket = 16777215 ∧ e.resolved = 0 ∧ e.dests.any (fun x => decide (x.dest = 7) && decide (x.state ≠ 1)) = true ∧
      Fresh { portAt up11 with fb := { store := [e] } } m) ∧
    (∃ r ∈ (s 0).fb.provRx, r.src = 7 ∧ r.ticket = 16777215 ∧ r.state = 0) ∧ hasRoute (s 0) 7 = true ∧
    (let t := { s 0 with fab := { (s 0).fab with peers := [(7, { inc := some 1 })] } };
      hasRoute t 7 = true ∧ (peerOf t 7).inc.isSome = true) := by
  refine ⟨fun st => fresh_ok ⟨show fabricOn (portAt up11) = true by decide +kernel, by decide, by decide, rfl, rfl, rfl⟩ rfl, ?_, ?_, ?_, ?_, ⟨?_, ?_, ?_,
    fresh_ok ⟨by decide +kernel, by decide, by decide, rfl, rfl, rfl⟩ rfl⟩, ⟨rxTicket 0, ?_⟩, ?_, ?_⟩ <;> decide +kernel

theorem witness_AnswersAndTimersEndOperations :
    let c := cmd1 (entry 0x51 0) []
    let o (opc : Nat) (own : OpFor) (parked : Bool) (expired : Nat) : OutOp :=
      { dest := 4096, oseq := 5, opc, part := 0, arg := 0, data := [], owner := own, sent := true, parked, expired }
    let s (x : OutOp) : State := { portAt up11 { out := [x] } with trail := { rings := [(0, hostRing)], cmds := [c] } }
    let a (st : BitVec 8) : AnsMsg := ⟨4096, 5, st, false, leBytes 8 1, []⟩
    (∀ x ∈ [o 1 (.cmd 0 1) false 0, o 1 (.cmd 0 1) false 1, o 0x0D .other false 0, o 3 (.token 0 0) false 0, o 3 (.token 0 0) true 0],
      fabricOn (s x) = true ∧ (s x).fab.out = [x] ∧ x.sent = true ∧ x.oseq ≠ 0 ∧ 1 ≤ x.dest ∧ x.dest ≤ 4096 ∧ (a 0).src.toNat = x.dest ∧ (a 0).oseq = x.oseq ∧
      (a 0).transit = false ∧ (a 0).path = [] ∧ hasRoute (s x) x.dest = true) ∧
    cmdOf (s (o 1 (.cmd 0 1) false 0)) 0 1 = some c ∧ c.result = none ∧ (0 : BitVec 8).toNat ≠ stUnreachable ∧
    (BitVec.ofNat 8 stUnreachable).toNat = stUnreachable ∧ (BitVec.ofNat 8 stRingFull).toNat = stRingFull := by decide +kernel

end Sys2Proof.Tests
end

