-- ==== Sys2Proof/Tests/W12.lean ====
section
/-!
SUPPORT. Witnesses: units, device time and the Lookout, counters and Tracks, and isolation.
-/
namespace Sys2Proof.Tests
set_option Elab.async false
open Sys2Proof.Machine Sys2Proof.Claims

/-- A device with one unit's record. -/
def unitAt (u : Nat) (x : UnitSum) : State := { rdy with seed.units := [(u, x)] }

theorem witness_UnitsAreFencedAndReturn :
    (∀ u ∈ [unitGrove 431, unitPort 47, unitFabric 11, 2 * 4096 + 299],
      isUnit rdy u = true ∧ rdy.fb.round = none ∧ hardCause (unitKind u) 0x05 = true ∧ (unitSum rdy u).state = 0 ∧ (unitSum rdy u).inSurvey = false ∧
      (unitSum (unitAt u { state := 3 }) u).state = 3 ∧ (unitSum (unitAt u { state := 1 }) u).state = 1 ∧ isUnit (unitAt u { state := 3 }) u = true ∧
      (BitVec.ofNat 16 u).toNat = u) ∧
    (let x : UnitSum := { state := 1, cause := 3 };
      x.inSurvey = false ∧ x.returned = false ∧ x.cause ≠ 0x05 ∧ dparam { unitAt (unitFabric 11) x with dir.params := [(pkey 0x6003 4 devInst, 0)] } 0x6003 4 ≠ 1 ∧ unitKind (2 * 4096 + 299) = 2 ∧ unitKind (unitFabric 11) = 4 ∧
      (fport (unitAt (unitFabric 11) x) (unitIndex (unitFabric 11))).state ≠ 2 ∧ unitKind (unitGrove 431) = 1 ∧ rdy.root.insts = [] ∧ rdy.root.queues = [] ∧
      rdy.gr.cores = [] ∧ rdy.canopy.copies = []) ∧
    (sfind rdy.groves.joining 431 ≠ some .waiting ∧ (groveTarget rdy 431).isSome = true ∧
      (groveTarget { rdy with dir.params := [(pkey 0x1230 6 devInst, 0)] } 431).isSome = false ∧
      (fport (portAt { up11 with state := 0 }) (unitIndex (unitFabric 11))).width ≠ 0) ∧
    (let s := { coreAt with seed.units := [(unitGrove 431, { state := 1, cause := 0x7F })] };
      (unitSum s (unitGrove 431)).state = 1 ∧ (unitSum s (unitGrove 431)).inSurvey = false ∧ (unitSum s (unitGrove 431)).returned = false ∧ (0x7F : Nat) ≠ 0x05 ∧
      clearGoesOn s (unitGrove 431) = true) ∧
    (let s (v : Nat) : State := { rdy with dir.params := [(pkey 0x6006 1 devInst, v)], time := { dev := 3600000000000 } };
      isReady (s 1) = true ∧ roundDue (s 1) = true ∧ roundDue (s 2) = false ∧ bitOf (dparam (s 1) 0x6006 1) 24 = false ∧ bitOf (dparam (s 1) 0x6006 1) 25 = false) := by
  decide +kernel

/-- A device of which grove 431 alone serves, with survey rounds of one grove. -/
def oneGrove : State :=
  { rdy with seed.units := (List.range 431).map (fun g => (unitGrove g, { state := 2 })), dir.params := [(pkey 0x5802 6 0, 0), (pkey 0x6006 1 devInst, 1 + (1 <<< 16) + (1 <<< 24))],
             time := { dev := 3600000000000 } }

theorem witness_SurveyRoundsTakeTheirUnits :
    isReady oneGrove = true ∧ roundDue oneGrove = true ∧ bitOf (dparam oneGrove 0x6006 1) 24 = true ∧ bitOf (dparam oneGrove 0x6006 1) 25 = false ∧
    1 ≤ field (dparam oneGrove 0x6006 1) 23 16 ∧ partOfGrove oneGrove 431 = none ∧
    (∀ h < 432, serving oneGrove (unitGrove h) = decide (h = 431)) := by decide +kernel

theorem witness_SecondsAndMinutesAreRecorded :
    (let s := { rdy with look.cfg := [(255, 1)], time := { dev := 59999999999 } };
      (second s + 1) % 60 = 0 ∧ (∃ c < 256, lkEnabled s c = true)) ∧
    (let s := { rdy with look.toSeal := [(255, 4), (255, 5)] };
      s.look.toSeal.find? (fun p => p.1 = 255) = some (255, 4) ∧ s.look.toSeal.find? (fun p => p.1 = 0) = none) ∧
    (let s := { rdy with time := { src := 1, setPending := some 9 }, und := { rdy.und with mioFunc := List.replicate 40 0 } };
      s.time.src = 1 ∧ lget 3 s.und.mioFunc 35 = 0 ∧ s.time.setPending = some 9 ∧ second s < 9 ∧ { s.time with setPending := none }.setPending = none ∧
      s.time.lost = false) ∧
    (let s := { rdy with time := { src := 1, clock := 1500000000 } };
      s.time.src ≠ 0 ∧ s.time.lost = false ∧ s.time.lastRef + 1500000000 ≤ s.time.clock) ∧ rdy.time.src = 0 := by decide +kernel

/-- Counter configurations: each of the eight counters enabled with event 1 and its overflow event. -/
def ctrOnAll : Nat := (List.range 8).foldl (fun v k => v + ((1 + (1 <<< 8) + (1 <<< 9)) <<< (32 * k))) 0

theorem witness_CountersWrapAndSamplesAreKept :
    (let s := { rdy with dir.params := [(pkey 0x7402 1 0, ctrOnAll), (pkey 0x7410 6 devInst, ctrOnAll), (pkey 0x7420 1 0, 1), (pkey 0x7420 2 devInst, 1 + (1 <<< 16))] };
      ctrEnabled s (.grove 0 431 7) = true ∧ (groveCtr s 431).pc.length = 8 ∧ ctrEnabled s (.die 5 7) = true ∧ (dieCtr s 5).pc.length = 8 ∧
      bitOf (ctrEntry (gctrCfg s 0) 7) 9 = true ∧ ctrPart s 431 = some 0 ∧ field (tracksCfg s 0) 31 0 ≠ 0 ∧ 431 ∉ s.trk.armed ∧ sfind s.trk.tagged 431 = none) ∧
    (let s := { rdy with trk := { armed := [431], tagged := [(431, (0, 5))] } };
      431 ∈ s.trk.armed ∧ sfind s.trk.tagged 431 = some (0, 5) ∧ tracksStop s = false) ∧
    (let s := { rdy with trk := { tagged := [(431, (0, 5))], bufs := [(5, { full := true, wp := 4096 })] }, dir.params := [(pkey 0x7420 2 devInst, 1)] };
      tracksStop s = true ∧ (sget {} s.trk.bufs (431 / 72)).full = true) ∧
    (let s := { rdy with trk := { tagged := [(431, (0, 5))], bufs := [(5, { wp := 5000, base := 904 })] }, dir.params := [(pkey 0x7420 2 devInst, 1)] };
      let b := sget {} s.trk.bufs (431 / 72);
      tracksStop s = true ∧ b.full = false ∧ 4096 ≤ b.wp - b.base) := by decide +kernel

theorem witness_GroveWordsLeaveManagementAlone :
    ∃ t, exec (.add 27647 1 2 3) coreAt = .next t := ⟨_, rfl⟩

end Sys2Proof.Tests
end

