-- ==== Sys2Proof/WellFormed.lean ====
section
/-!
DEFINITION. Which commands can be sent at all: lengths and numbers that the carriers of a command bound. What the block checks itself is no part
of this.
-/
namespace Sys2Proof

/-- A header names at most 4,096 bytes of value (R40, R62). -/
def wfHdr (h : Hdr) : Bool := decide (h.len.toNat ≤ 4096)

/-- A value of at most 4,096 bytes (R62). -/
def wfValue (v : Nat) : Bool := decide (v < 256 ^ 4096)

/-- At most so many bytes. -/
def wfBytes (n : Nat) (l : List Byte) : Bool := decide (l.length ≤ n)

/-- What a read of host memory returns is no longer than a handle's longest range, 2⁴⁴ bytes (Table 8-5). -/
def wfRead : HostRead → Bool
  | .ok d => wfBytes (2 ^ 44) d
  | .err => true

/-- A sequencer of a kind (Table 11-2): 432 of groves, 96 of the Thicket, 48 of memory ports. -/
def wfSequencer (kind : Fin 3) (u : Nat) : Bool := decide (u < (match kind with
  | 0 => 432
  | 1 => 96
  | _ => 48))

/-- A PCI Express write carries at most 4,096 bytes. -/
def wfBar : BarOp → Bool
  | .read _ => true
  | .write d => wfBytes 4096 d

/-- A mailbox request's value is at most 4,096 bytes (R62), and so is what one host write or read of BAR0 carries; a Warden reaches its
port by its own loads and stores. -/
def wfMb : MbUser → MbOp → Bool
  | .fn _, .submit v => wfValue v
  | .fn _, .write _ d => wfBytes 4096 d
  | .fn _, .read _ n => decide (n.toNat ≤ 4096)
  | _, .complete => true
  | .warden, _ => false

/-- A slot of the NOR holds at most 4 MiB (R111). -/
def wfImage : Option (List Byte) → Bool
  | none => true
  | some d => wfBytes (2 ^ 22) d

/-- A UNIT number is 16 bits (Table 19-1). -/
def wfUnits (l : List Nat) : Bool := l.all (fun u => decide (u < 65536))

/-- The data of an operation fit in 37 flits (R275, Table 17-4), and a provisional one has a ticket (R281). -/
def wfOp (m : OpMsg) : Bool := wfBytes 4120 m.data && (!m.prov || decide (m.ticket ≠ 0))

/-- Only a TOKEN is ever provisional (R281), and only MGMT is ever source-routed (R270). -/
def wfPlain (m : OpMsg) : Bool := wfOp m && !m.prov && m.disc.isNone

/-- TOKEN: not source-routed. -/
def wfToken (m : OpMsg) : Bool := wfOp m && m.disc.isNone

/-- MGMT: at most 16 ports in all when it is source-routed (R270). -/
def wfMgmt (m : OpMsg) : Bool := wfOp m && !m.prov && (match m.disc with
  | none => true
  | some d => decide (d.route.length + d.path.length < 16))

/-- ANSWER: a value that fits in 37 flits, and at most 16 ports. -/
def wfAnswer (m : AnsMsg) : Bool := wfBytes 4120 m.value && decide (m.path.length ≤ 16)

/-- A command that can be sent. -/
def wellFormed (i : Instr) : Bool :=
  match i with
  | .pwrokRise _ => true
  | .mainpwrEnPowerOn => true
  | .pwrokFall => true
  | .powerLoss => true
  | .coldrstNAssert => true
  | .railFault _ => true
  | .refclkLoss => true
  | .pllUnlock _ => true
  | .thermtrip _ _ => true
  | .thermalStepRaise _ _ => true
  | .thermalStepLower _ _ => true
  | .powerSample _ => true
  | .capStepRaise => true
  | .capStepLower => true
  | .autogateStop _ => true
  | .autogateWake _ => true
  | .romBoot _ _ => true
  | .spiNorRead image => wfImage image
  | .containerVerification => true
  | .recoveryBoot => true
  | .seedbankRecovery _ _ _ => true
  | .lpddrTraining _ => true
  | .imageDigestCheck => true
  | .microcodeLoad => true
  | .bootSurvey fails => wfUnits fails
  | .linkTraining => true
  | .readyStage => true
  | .hostLinkL0 _ => true
  | .resetReqCold _ => true
  | .resetReqWarm _ => true
  | .perstFall _ => true
  | .pfFlr _ => true
  | .pcieHotReset _ _ => true
  | .vfFlr _ _ => true
  | .partReset _ _ => true
  | .ctOpen _ _ => true
  | .ctData _ chunk => wfBytes 4096 chunk
  | .ctCommit _ => true
  | .patchSwitch kind unit => wfSequencer kind unit
  | .readParam _ h => wfHdr h
  | .writeParam _ h val => wfHdr h && wfValue val
  | .guardParam _ h val => wfHdr h && wfValue val
  | .nextParam _ h => wfHdr h
  | .describeParam _ h => wfHdr h
  | .txnOpen _ => true
  | .txnCommit _ _ => true
  | .txnAbort _ _ => true
  | .txnTimeoutExpiry _ => true
  | .txnNumberRelease _ => true
  | .restoreDefaults _ => true
  | .mbGo _ user _ _ op => wfMb user op
  | .canReqFrame _ => true
  | .canSegFrame _ => true
  | .canAckFrame _ => true
  | .canAckTimeout _ _ _ => true
  | .announce _ => true
  | .nodeFrame _ => true
  | .heartbeat => true
  | .fieldRateChange => true
  | .livenessBeacon => true
  | .standbyTakeover _ => true
  | .islandSelfTest _ => true
  | .roleSwap _ => true
  | .wardenRestart _ _ => true
  | .wopen _ => true
  | .wclose _ => true
  | .wspill _ => true
  | .wfill _ => true
  | .texit _ => true
  | .trapSys _ => true
  | .rdctl _ _ _ => true
  | .wrctl _ _ _ => true
  | .eventTrap _ => true
  | .evEoi _ _ => true
  | .evMaskWrite _ _ _ => true
  | .mioFuncSwitch _ => true
  | .fieldPinSwitchDeferred => true
  | .eventOccurrence _ => true
  | .msixDelivery _ => true
  | .coalesceTimeout _ => true
  | .holdoffExpiry _ => true
  | .holdoffCommit _ _ => true
  | .groveEnableCommit _ _ _ => true
  | .groveLeave _ => true
  | .grovePowerUpDone _ => true
  | .groveZeroed _ => true
  | .idleDelayExpiry => true
  | .powerStateReqIdle _ => true
  | .powerStateReqDormant _ => true
  | .powerStateReqWake _ => true
  | .sleepCommitPoint => true
  | .dormantEntry => true
  | .workWake => true
  | .perstWake _ => true
  | .gpioWake _ _ => true
  | .wakeTimerExpiry => true
  | .dormantExit => true
  | .sqTailDoorbell _ => true
  | .cqHeadDoorbell _ => true
  | .commandFetch _ _ => true
  | .stopRecordWrite _ => true
  | .runAheadDecode _ => true
  | .completionWrite _ _ => true
  | .ringEnable _ _ _ => true
  | .ringDisable _ _ _ => true
  | .htabResize _ _ _ => true
  | .nopCmd _ _ => true
  | .handleSet _ _ => true
  | .handleClear _ _ => true
  | .standOpen _ _ => true
  | .standStep _ _ => true
  | .standPark _ _ => true
  | .standClose _ _ => true
  | .modelSwitch _ _ => true
  | .modelLoadDone _ _ src => wfRead src
  | .graphRun _ _ args => wfRead args
  | .gather _ _ => true
  | .rowUpdate _ _ src => wfRead src
  | .hotRefresh _ _ => true
  | .copyCmd _ _ src => wfRead src
  | .remoteSubmit _ _ src => wfRead src
  | .remoteDoorbell _ _ => true
  | .opTimeoutExpiry _ _ => true
  | .stepBoundary _ => true
  | .fillWaitExpiry _ => true
  | .shareWindow => true
  | .instanceAdmit => true
  | .nodeFire _ _ => true
  | .refusalReevaluate _ _ => true
  | .taskDispatch _ => true
  | .tokenLand _ _ => true
  | .remoteOutputSend _ _ => true
  | .deadlock _ => true
  | .instanceComplete _ => true
  | .graphAbort _ _ _ _ => true
  | .wordIssue _ => true
  | .waitStuck _ => true
  | .jump _ _ => true
  | .bz _ _ => true
  | .bnz _ _ => true
  | .loopOp _ _ => true
  | .callOp _ _ => true
  | .returnOp _ => true
  | .endTask _ => true
  | .pjump _ _ => true
  | .add _ _ _ _ => true
  | .sub _ _ _ _ => true
  | .andOp _ _ _ _ => true
  | .orOp _ _ _ _ => true
  | .xorOp _ _ _ _ => true
  | .shl _ _ _ _ => true
  | .shr _ _ _ _ => true
  | .cmp _ _ _ => true
  | .li _ _ _ => true
  | .seta _ _ _ => true
  | .adda _ _ _ => true
  | .setlc _ _ => true
  | .setf _ _ => true
  | .clrf _ _ => true
  | .barrier _ _ => true
  | .ld _ _ => true
  | .st _ _ => true
  | .dld _ _ => true
  | .dst _ _ => true
  | .mld _ _ _ _ => true
  | .atom _ _ _ => true
  | .vadd _ _ => true
  | .vsub _ _ => true
  | .vmul _ _ => true
  | .vfma _ _ => true
  | .vmin _ _ => true
  | .vmax _ _ => true
  | .vand _ _ => true
  | .vor _ _ => true
  | .vxor _ _ => true
  | .vshl _ _ => true
  | .vshr _ _ => true
  | .vcmp _ _ => true
  | .vcvt _ _ => true
  | .vbcast _ _ => true
  | .vmovs _ _ => true
  | .vperm _ _ => true
  | .vcompress _ _ => true
  | .vexpand _ _ => true
  | .vcpop _ _ => true
  | .vscan _ _ => true
  | .vsegscan _ _ => true
  | .vscanx _ _ => true
  | .vreduce _ _ => true
  | .vkop _ _ => true
  | .vkmov _ _ => true
  | .vmovk _ _ => true
  | .panel _ _ _ => true
  | .mma _ _ _ => true
  | .drain _ _ => true
  | .zeroBlock _ _ => true
  | .rerunTrigger _ _ => true
  | .checkResult _ _ _ => true
  | .shadowRelease _ _ _ => true
  | .shadowUndo _ _ => true
  | .checkerSelfTest _ _ => true
  | .ticketResolve _ => true
  | .thicketTask _ _ _ => true
  | .idxld _ _ => true
  | .rowrd _ _ => true
  | .hotlk _ _ => true
  | .pfrd _ _ => true
  | .outwr _ _ => true
  | .stwr _ _ => true
  | .rowRead _ _ _ _ _ => true
  | .prefetchFill _ => true
  | .tableValidClear _ _ _ => true
  | .stagingAllocate _ => true
  | .rowCommit _ _ => true
  | .epochAdvance _ => true
  | .writeBackStart _ => true
  | .writeBackDone _ => true
  | .entryRelease _ => true
  | .rdS _ _ => true
  | .rdX _ _ => true
  | .upg _ _ => true
  | .evictD _ _ => true
  | .evictC _ _ => true
  | .snpSh _ _ => true
  | .snpInv _ _ => true
  | .evicting _ _ => true
  | .evictAck _ _ => true
  | .rspD _ _ => true
  | .rspS _ _ => true
  | .rspI _ _ => true
  | .dataE _ _ => true
  | .dataS _ _ => true
  | .dataX _ _ => true
  | .upgAck _ _ => true
  | .add32 _ => true
  | .add64 _ => true
  | .fadd32 _ => true
  | .min32 _ => true
  | .max32 _ => true
  | .umin32 _ => true
  | .umax32 _ => true
  | .min64 _ => true
  | .max64 _ => true
  | .and64 _ => true
  | .or64 _ => true
  | .xor64 _ => true
  | .swap32 _ => true
  | .swap64 _ => true
  | .cas32 _ => true
  | .cas64 _ => true
  | .fmin32 _ => true
  | .fmax32 _ => true
  | .raddF32 _ => true
  | .raddBf16 _ => true
  | .rmaxF32 _ => true
  | .rminF32 _ => true
  | .raddI32 _ => true
  | .rmaxBf16 _ => true
  | .canopyTask _ _ => true
  | .bar2Access _ _ _ acc => wfBar acc
  | .deselect _ _ => true
  | .act _ _ => true
  | .rd32 _ _ _ => true
  | .wr32 _ _ _ => true
  | .mwr32 _ _ _ _ => true
  | .pre _ _ => true
  | .prea _ _ => true
  | .refpb _ _ => true
  | .refab _ _ => true
  | .rfm _ _ => true
  | .mrw _ _ => true
  | .mrr _ _ => true
  | .sre _ _ => true
  | .srx _ _ => true
  | .pde _ _ => true
  | .pdx _ _ => true
  | .casWs _ _ => true
  | .zqLatch _ _ => true
  | .rdc _ _ => true
  | .wff _ _ _ => true
  | .rff _ _ => true
  | .mpc _ _ => true
  | .refreshRateRead _ _ _ => true
  | .oscillatorCheck _ _ driftPct _ => decide (driftPct ≤ 100)
  | .patrolScrub _ _ _ => true
  | .sliceEccError _ _ _ _ => true
  | .reservedUe _ _ _ => true
  | .dirEpochFlip _ => true
  | .portTrain _ _ => true
  | .flitReceive _ _ _ => true
  | .replay _ => true
  | .linkLost _ => true
  | .flitForward _ => true
  | .transitTimeout _ => true
  | .opAssemblyTimeout _ _ => true
  | .hello _ => true
  | .beacon _ => true
  | .managerTimeout => true
  | .routeFlip _ _ => true
  | .frGo _ => true
  | .submit m => wfPlain m
  | .doorbell m => wfPlain m
  | .tokenOp m => wfToken m
  | .fabWrite m => wfPlain m
  | .fabRead m => wfPlain m
  | .atomic m => wfPlain m
  | .mgmt m => wfMgmt m
  | .confirm m => wfPlain m
  | .retract m => wfPlain m
  | .resendReq m => wfPlain m
  | .timeOp _ _ _ _ => true
  | .timeSend => true
  | .routeNotice m => wfPlain m
  | .probe m => wfPlain m
  | .answer m => wfAnswer m
  | .tokenRetry _ _ => true
  | .provWindowExpiry _ _ => true
  | .copyTask _ _ => true
  | .partMemChange _ _ _ => true
  | .hardFault _ _ => true
  | .clearDone _ => true
  | .regrowDone _ _ _ => true
  | .unitFenceCmd _ => true
  | .unitReturnCmd _ => true
  | .unitUnretireCmd _ => true
  | .unitClearStrikesCmd _ => true
  | .surveyRound => true
  | .surveyNow _ => true
  | .secondBoundary => true
  | .batchSeal _ => true
  | .ppsEdge => true
  | .timeSourceLost => true
  | .timeSet _ _ => true
  | .counterWrap _ => true
  | .gctrClear _ _ _ => true
  | .dieCtrClear _ _ => true
  | .tracksIntervalEnd _ => true
  | .tracksSampleWrite _ => true
  | .tracksResume _ _ => true
  | .fieldBusStateChange _ _ => true
  | .perstRise _ => true
  | .configSpaceWrite _ _ _ => true
  | .rowReadComplete _ => true
  | .wardenLoad _ _ _ _ => true
  | .wardenStore _ _ _ _ => true

end Sys2Proof
end

