-- ==== Sys2Proof/Tests/Slice0.lean ====
section
/-!
SUPPORT. Small tests: well-formedness refuses an ill-formed term for each of its checks, and single commands on small states give what the spec's examples,
tables and the standards it names say.
-/
namespace Sys2Proof.Tests
set_option Elab.async false
open Sys2Proof.Machine Sys2Proof.Claims

/-! ## Well-formedness -/

theorem test_wf_header_too_long : wellFormed (.readParam (.pf 0) ⟨0x2001, 1, 0, 0, 4097⟩) = false ∧ wellFormed (.readParam (.pf 0) ⟨0x2001, 1, 0, 0, 4096⟩) = true := by
  decide +kernel

theorem test_wf_value_too_long : wellFormed (.guardParam (.pf 0) ⟨0, 0, 0, 0, 1⟩ (1 <<< 32768)) = false ∧ wellFormed (.guardParam (.pf 0) ⟨0, 0, 0, 0, 1⟩ ((1 <<< 32768) - 1)) = true := by
  decide +kernel

theorem test_wf_chunk_too_long (l : List Byte) (h : l.length = 4097) : wellFormed (.ctData (.pf 0) l) = false := by
  show decide (l.length ≤ 4096) = false
  rw [h]; rfl

theorem test_wf_read_too_long (l : List Byte) (h : l.length = 2 ^ 44 + 1) : wellFormed (.copyCmd 0 1 (.ok l)) = false := by
  show decide (l.length ≤ 2 ^ 44) = false
  rw [h]; rfl

theorem test_wf_bar_write_too_long (l : List Byte) (h : l.length = 4097) : wellFormed (.bar2Access 0 0 0 (.write l)) = false := by
  show decide (l.length ≤ 4096) = false
  rw [h]; rfl

theorem test_wf_image_too_long (l : List Byte) (h : l.length = 2 ^ 22 + 1) : wellFormed (.spiNorRead (some l)) = false := by
  show decide (l.length ≤ 2 ^ 22) = false
  rw [h]; rfl

theorem test_wf_operation_too_long (l : List Byte) (h : l.length = 4121) : wellFormed (.submit (opOf l)) = false ∧ wellFormed (.answer ⟨7, 5, 0, false, l, []⟩) = false := by
  have e : decide (l.length ≤ 4120) = false := by rw [h]; rfl
  constructor
  · show (((decide (l.length ≤ 4120) && true) && true) && true) = false
    rw [e]; rfl
  · show (decide (l.length ≤ 4120) && true) = false
    rw [e]; rfl

theorem test_wf_no_such_sequencer : wellFormed (.patchSwitch 0 432) = false ∧ wellFormed (.patchSwitch 1 96) = false ∧ wellFormed (.patchSwitch 2 48) = false ∧
    wellFormed (.patchSwitch 0 431) = true := by decide

theorem test_wf_unit_too_large : wellFormed (.bootSurvey [0x1000, 65536]) = false := by decide

theorem test_wf_drift_over_100 : wellFormed (.oscillatorCheck 47 3 101 true) = false ∧ wellFormed (.oscillatorCheck 47 3 100 true) = true := by decide

theorem test_wf_provisional_without_ticket : wellFormed (.tokenOp { opOf [] with prov := true }) = false ∧
    wellFormed (.tokenOp { opOf [] with prov := true, ticket := 1 }) = true ∧ wellFormed (.submit { opOf [] with prov := true, ticket := 1 }) = false := by decide

theorem test_wf_only_mgmt_is_source_routed : wellFormed (.tokenOp { opOf [] with disc := some ⟨0, [], [], 1⟩ }) = false ∧
    wellFormed (.fabWrite { opOf [] with disc := some ⟨0, [], [], 1⟩ }) = false ∧ wellFormed (.mgmt { opOf [] with disc := some ⟨0, [], [], 1⟩ }) = true ∧
    wellFormed (.mgmt { opOf [] with disc := some ⟨0, List.replicate 8 1, List.replicate 8 2, 1⟩ }) = false := by decide

theorem test_wf_answer_path_too_long : wellFormed (.answer ⟨7, 5, 0, false, [], List.replicate 17 0⟩) = false := by decide

/-! ## Arithmetic and codes -/

/-- SHA-384 of "abc" (FIPS 180-4, the published example). -/
theorem test_sha384_abc : sha384 [0x61, 0x62, 0x63] =
    0xcb00753f45a35e8bb5a03d699ac65007272c32ab0eded1631a8b605a43ff5bed8086072ba1e7cc2358baeca134c825a7 := by decide +kernel

/-- CRC-16 with polynomial 0x1021 and initial value 0xFFFF over "123456789": the published check value. -/
theorem test_crc16_check_value : crc16 [0x31, 0x32, 0x33, 0x34, 0x35, 0x36, 0x37, 0x38, 0x39] = 0x29B1 := by decide +kernel

/-- IEEE 754: 1 + 2⁻²⁴ ties to the even 1, and 1 + 2⁻²³ is its successor; the largest finite number doubled is infinite. -/
theorem test_fp32_rounds_to_even :
    fenc fp32 (fadd (fdec fp32 0x3F800000) (fdec fp32 0x33800000)) = 0x3F800000 ∧ fenc fp32 (fadd (fdec fp32 0x3F800000) (fdec fp32 0x34000000)) = 0x3F800001 ∧
    fenc fp32 (fadd (fdec fp32 0x7F7FFFFF) (fdec fp32 0x7F7FFFFF)) = 0x7F800000 := by decide +kernel

/-- The last DOMAIN_CTL is 0x1204.20 (R92), and CONFIG of source 0x2A5 is 0x111D.26 (R81). -/
theorem test_indices_of_domains_and_sources : (findParam 0x1204 0x20).isSome = true ∧ findParam 0x1204 0x21 = none ∧
    evConfig { rdy with dir.params := [(pkey 0x111D 0x26 devInst, 9)] } 0x2A5 = 9 := by decide +kernel

/-! ## Memory -/

theorem test_memory_write_of_zero_leaves_nothing :
    memWrite (memWrite [] 0xFFFF [1, 2, 3]) 0xFFFF [0, 2, 0] = [(0x10000, 2)] ∧ Memory.wf (memWrite [(9, 1)] 0xFFFF [1, 2, 3]) = true := by decide +kernel

/-! ## Groves: the examples of chapter 12 -/

/-- What a command leaves of core 27,647. -/
def coreAfter (i : Instr) (k : Core) : Option Core :=
  match exec i (onCore (coreInst coreTask) k) with
  | .next t => sfind t.gr.cores 27647
  | _ => none

/-- A core with v1, v2 and k1 as given. -/
def vcore (v1 v2 : List Nat) (k1 : BitVec 32) : Core :=
  { k0 with v := [0, packElems 32 v1, packElems 32 v2] ++ List.replicate 29 0, k := [0, k1] ++ List.replicate 6 0 }

/-- The scores 0.9, 0.1, 0.7, 0.2, 0.3, 0.8, 0.05, 0.6 in FP32, and the threshold 0.5. -/
def scores : List Nat := [0x3F666666, 0x3DCCCCCD, 0x3F333333, 0x3E4CCCCD, 0x3E99999A, 0x3F4CCCCD, 0x3D4CCCCD, 0x3F19999A]
def threshold : List Nat := List.replicate 8 0x3F000000

theorem test_vcmp_gt_scores : (coreAfter (.vcmp 27647 ⟨1, 1, 2, 0, false, 0, 4⟩) (vcore scores threshold 0)).map (fun k => getK k 1) = some 0xA5 := by decide +kernel

theorem test_vcompress_scores : (coreAfter (.vcompress 27647 ⟨9, 1, 0, 1, true, 0, 0⟩) (vcore scores [] 0xA5)).map (fun k => elemsOf 32 (getV k 9)) =
    some [0x3F666666, 0x3F333333, 0x3F4CCCCD, 0x3F19999A, 0, 0, 0, 0] := by decide +kernel

theorem test_vexpand_scores :
    (coreAfter (.vexpand 27647 ⟨10, 1, 0, 1, true, 0, 0⟩) (vcore [0x3F666666, 0x3F333333, 0x3F4CCCCD, 0x3F19999A] [] 0xA5)).map (fun k => elemsOf 32 (getV k 10)) =
    some [0x3F666666, 0, 0x3F333333, 0, 0, 0x3F4CCCCD, 0, 0x3F19999A] := by decide +kernel

theorem test_vcpop_scores : (coreAfter (.vcpop 27647 ⟨5, 0, 0, 1, false, 0, 0⟩) (vcore [] [] 0xA5)).map (fun k => getS k 5) = some 4 := by decide +kernel

/-- The example of R194: INT32 ADD with heads at elements 0, 3 and 4. -/
theorem test_vsegscan_inclusive :
    (coreAfter (.vsegscan 27647 ⟨3, 1, 0, 1, false, 1, 0⟩) (vcore [1, 2, 3, 4, 5, 6, 7, 8] [] 0x19)).map (fun k => (elemsOf 32 (getV k 3), k.carry)) =
    some ([1, 3, 6, 4, 5, 11, 18, 26], 26) := by decide +kernel

theorem test_vsegscan_exclusive :
    (coreAfter (.vsegscan 27647 ⟨3, 1, 0, 1, false, 1, 4⟩) (vcore [1, 2, 3, 4, 5, 6, 7, 8] [] 0x19)).map (fun k => elemsOf 32 (getV k 3)) =
    some [0, 1, 3, 0, 0, 5, 11, 18] := by decide +kernel

/-- s0 reads 0 and ignores writes (R166), and SUB wraps. -/
theorem test_sub_wraps_and_s0_is_zero :
    (coreAfter (.sub 27647 2 0 1) { k0 with s := [7, 1] ++ List.replicate 30 0 }).map (fun k => getS k 2) = some 0xFFFFFFFF ∧
    (coreAfter (.add 27647 0 1 1) { k0 with s := [0, 1] ++ List.replicate 30 0 }).map (fun k => getS k 0) = some 0 := by decide +kernel

/-- LOOP with LC = 1 falls through with LC 0, and with LC = 2 jumps (Table 11-3). -/
theorem test_loop_ends_at_one :
    (coreAfter (.loopOp 27647 5) { k0 with lc := 1, upc := 8 }).map (fun k => (k.upc, k.lc)) = some (9, 0) ∧
    (coreAfter (.loopOp 27647 5) { k0 with lc := 2, upc := 8 }).map (fun k => (k.upc, k.lc)) = some (5, 1) := by decide +kernel

/-! ## Steps, doorbells, events, atomics -/

/-- An empty queue is 5 ns of device time at most; a command at the front is taken from the queue. -/
theorem test_step_takes_the_front : (match step { coreAt with pending := [.add 27647 1 2 3, .pwrokFall] } with
    | .next t => t.pending
    | _ => []) = [.pwrokFall] := by decide +kernel

/-- A compare-and-swap that misses leaves memory as it was, and one that hits writes (Table 15-5). -/
theorem test_cas32_compares :
    (match exec (.cas32 ⟨64, 9, 4⟩) { rdy with mem.bytes := [(64, 5)] } with
      | .next t => memByte t.mem.bytes 64
      | _ => 0) = 5 ∧
    (match exec (.cas32 ⟨64, 9, 5⟩) { rdy with mem.bytes := [(64, 5)] } with
      | .next t => memByte t.mem.bytes 64
      | _ => 0) = 9 := by decide +kernel

/-- SQ_TAIL beyond SQ_HEAD by the ring's 64 entries is accepted, and by 65 it is not (R128). -/
theorem test_doorbell_at_the_depth : ∀ v ∈ [(64, 64), (65, 0)],
    (match exec (.sqTailDoorbell ⟨0, 0, 0, BitVec.ofNat 32 v.1, true⟩) { rdy with trail.rings := [(0, hostRing)] } with
      | .next t => (ringOf t 0).map (·.sqTail.toNat)
      | _ => none) = some v.2 := by decide +kernel

end Sys2Proof.Tests
end

