-- ==== Sys2Proof/Tests/W1.lean ====
section
/-!
SUPPORT. Witnesses: for every statement with hypotheses, states and operands that meet them, clause by clause (power, start-up, resets).
-/
namespace Sys2Proof.Tests
set_option Elab.async false
open Sys2Proof.Machine Sys2Proof.Claims

theorem witness_StepRunsTheFrontCommand : { s0 with pending := [.powerLoss] }.pending = Instr.powerLoss :: [] := rfl

theorem witness_IdleStepIsOneManagementCycle : s0.pending = [] ∧ (∀ w < 2, (wardenAt s0 w).stores = []) ∧ (∀ q ∈ s0.thk.engines, q.2.seq.running = false) ∧
    (∀ q ∈ s0.ports, q.2.seq.running = false) ∧ s0.pins.pwrok = false ∧ (atStage 1).pins.pwrok = true := by decide

theorem witness_EveryStepKeepsMemoryCanonical :
    Memory.wf { s0 with pending := [.powerLoss], mem.bytes := [(7, 1), (9, 2)] }.mem.bytes = true ∧
    ∃ t, step { s0 with pending := [.powerLoss], mem.bytes := [(7, 1), (9, 2)] } = .next t := ⟨by decide, _, rfl⟩

theorem witness_MinSvnNeverFalls : ∃ t, step { s0 with pending := [.powerLoss], seed.minSvn := [1, 2, 3, 4] } = .next t := ⟨_, rfl⟩

theorem witness_PowerOnSamplesTheStraps : s0.pins.pwrok = false ∧ (atStage 1).pins.pwrok = true := by decide

theorem witness_HardwareFaultsResetTheDeviceCold : (atStage 10).pins.pwrok = true := rfl

theorem witness_ThermalTripStopsTheClocks : (atStage 10).pins.pwrok = true := rfl

theorem witness_ThermalStepFollowsTheHottestSensor :
    let hot := { s0 with power.tj := lset s0.power.tj 0 (16 * 95 + 1) }
    let cool := { s0 with power := { s0.power with thermStep := 1, tj := [0, 16 * 92 - 1, 0, 0, 0, 0] } }
    throttle s0 < hottest hot ∧ s0.power.thermStep < 5 ∧ s0.power.thermLimiting = false ∧
    hottest { cool with power.tj := lset cool.power.tj 0 0 } < throttle cool - 48 ∧ 0 < cool.power.thermStep := by decide +kernel

theorem witness_CapStepHoldsTheAverageAtTheCap :
    let above := { s0 with power := { powerNow := 901, capStep := 4 } }
    let past := { s0 with power := { powerNow := 901, capStep := 5 } }
    let under := { s0 with power := { powerNow := 872, capStep := 1, capLimiting := true } }
    (dparam above 0x1220 1 < above.power.powerNow ∧ above.power.capStep < 5 ∧ above.power.capLimiting = false) ∧
    (dparam past 0x1220 1 < past.power.powerNow ∧ 5 ≤ past.power.capStep) ∧
    (100 * under.power.powerNow < 97 * dparam under 0x1220 1 ∧ 0 < under.power.capStep ∧ under.power.capLimiting = true) ∧
    atSlowest { s0 with power := { capStep := 5, thermStep := 5 } } = true := by decide +kernel

theorem witness_AutogateStopsAndWakesOneDomain :
    (isGroveDomain 71 || isPairDomain 71) = true ∧ bitOf (domainCtl s0 71) 3 = true ∧
    (isGroveDomain 72 || isPairDomain 72) = true ∧ bitOf (domainCtl s0 72) 3 = true := by decide +kernel

theorem witness_AcceptedContainersAreSignedAndNotRolledBack : ∃ c, verifyContainer (keyed s0) keyContainer = .ok c :=
  (verifies_ok keyContainer_verifies).imp fun _ h => h.1

/-- A cold start at stage 3 with a container read from the NOR. -/
def candidate (b : List Byte) : State := keyed { atStage 3 with boot := { stage := 3, candidate := some b } }

theorem witness_StartUpReachesStageFive :
    ((atStage 1).boot.stage = 1 ∧ (false || true) = true) ∧
    (norDue (atStage 2) = true ∧ nextSlot (atStage 2) = some 0) ∧
    (∃ c, (candidate bootContainer).boot.candidate = some bootContainer ∧ verifyContainer (candidate bootContainer) bootContainer = .ok c ∧ c.kind = 1) ∧
    ((candidate []).boot.candidate = some [] ∧ verifyContainer (candidate []) [] = .error 4) ∧
    (let s := { atStage 4 with boot := { stage := 4, image := some ⟨1, 0, 0, [], []⟩ } };
      s.boot.stage = 4 ∧ s.boot.image.isSome = true ∧ (false || false) = false ∧ s.boot.error = 0 ∧
      (∀ n, n ∈ [2] ↔ (true = true → n ∈ [1, 2]) ∧ (true = true → n ∈ [2, 3]))) ∧
    (let s := { atStage 5 with boot := { stage := 5, recovery := true } };
      s.boot.image = none ∧ s.boot.stage = 5 ∧ recoveryBoot s = true ∧ contentsKept s = false) ∧
    (let s := { atStage 6 with boot := { stage := 6, recovery := true } };
      s.boot.image = none ∧ s.boot.stage = 6 ∧ s.boot.recovery = true ∧ s.boot.digestPending = false) := by
  refine ⟨by decide, by decide +kernel, ?_, ⟨rfl, rfl⟩, ⟨rfl, rfl, rfl, rfl, fun n => ?_⟩, by decide, by decide⟩
  · obtain ⟨c, h, k⟩ := verifies_ok bootContainer_verifies
    exact ⟨c, rfl, h ▸ verify_congr _ _ _ rfl rfl rfl, k⟩
  · simp only [List.mem_cons, List.not_mem_nil, or_false, true_imp_iff]
    omega

theorem witness_StartUpReachesReady :
    let img : Container := ⟨1, 0, 0, [], []⟩
    let s5 := { atStage 5 with boot := { stage := 5, image := some img } }
    let s6 := { atStage 6 with boot := { stage := 6, image := some img } }
    (s5.boot.stage = 5 ∧ running s5 = true ∧ s5.pins.tripped = false ∧ (s5.boot.image.isSome || contentsKept s5) = true ∧ cachedTraining s5 = none ∧
      (16#8).toNat ∈ [16, 32, 64] ∧ (16#8).toNat ≤ maxDensity s5 ∧ (1 : Fin 3).val ≠ 0 ∧
      contentsKept s5 = false) ∧
    (let s := { s5 with boot := { stage := 5, kind := .warm, image := some img }, seed.training := some ⟨32, 2⟩ };
      s.boot.stage = 5 ∧ running s = true ∧ s.pins.tripped = false ∧ contentsKept s = true ∧ cachedTraining s = some ⟨32, 2⟩) ∧
    (let s := { atStage 6 with boot := { stage := 6, digestPending := true, stored := [] }, seed.imageDigest := BitVec.ofNat 384 (sha384 []) };
      s.boot.stage = 6 ∧ s.boot.digestPending = true ∧ sha384 s.boot.stored = s.seed.imageDigest.toNat) ∧
    (let s := { atStage 6 with boot := { stage := 6, digestPending := true, stored := [1] } };
      s.boot.stage = 6 ∧ s.boot.digestPending = true ∧ sha384 s.boot.stored ≠ s.seed.imageDigest.toNat) ∧
    (s6.boot.image = some img ∧ s6.boot.stage = 6 ∧ running s6 = true ∧ s6.boot.digestPending = false) ∧
    ((atStage 7).boot.stage = 7 ∧ running (atStage 7) = true) ∧
    ((atStage 8).boot.stage = 8 ∧ solo { atStage 8 with pins.straps := 0x80 } = true) ∧
    ((atStage 9).boot.stage = 9 ∧ (atStage 9).dir.deferred = []) := by decide +kernel

theorem witness_surveyed : ∀ u, (unitSum (atStage 7) u).state = 0 ∧ (unitSum (atStage 7) u).retired = false := fun _ => ⟨rfl, rfl⟩

theorem witness_PerstResetsAndLinksTrain :
    (2 ≤ (atStage 2).boot.stage ∧ portTrains (atStage 2) 1 = true ∧ lget false (atStage 2).pins.perst 1 = true ∧ (atStage 2).power.mode ≠ .dormant ∧
      (atStage 2).pins.tripped = false ∧ dparam (atStage 2) 0x1400 8 = 0) ∧
    { s0 with power.mode := .dormant }.power.mode = .dormant ∧ portTrains { s0 with pins.straps := 0x200 } 1 = false ∧
    lget false s0.pins.perst 0 = false ∧ (atStage 1).boot.stage < 2 := by decide +kernel

theorem witness_FunctionResetsEmptyTheMailbox :
    lget false rdy.boot.hostL0 1 = true ∧ partsOfPort rdy 1 = [] ∧ partOfVf rdy 1 72 = none ∧ pfRings rdy 1 = [] ∧
    pfRings { rdy with dir.params := [(pkey 0x2100 1 71, 2 ^ 201)] } 1 = [(71, 0)] := by decide +kernel

end Sys2Proof.Tests
end

/-!
Event occurrences and deliveries (R83-R85, R88, R89): what an occurrence, a message, the end of a coalescing time and the end of a hold-off
do to the event state, and what they leave.
-/
namespace Sys2Proof.Machine
open Sys2Proof.Claims

/-! ## Lists of numbers, keyed lists, the first number below a bound -/

@[simp] theorem mem_insertNat (l : List Nat) (n m : Nat) : m ∈ insertNat l n ↔ m ∈ l ∨ m = n := by
  induction l with
  | nil => simp [insertNat]
  | cons a l ih =>
    unfold insertNat
    split
    · rw [List.mem_cons (a := m) (b := n)]
      exact Or.comm
    · split
      · next heq =>
        refine (or_iff_left_of_imp fun hm => ?_).symm
        rw [hm, heq]
        exact List.mem_cons_self
      · rw [List.mem_cons, List.mem_cons, ih, or_assoc]

theorem sdel_cons_self {α : Type} (m : Sparse α) (k : Nat) (v : α) : sdel ((k, v) :: m) k = sdel m k :=
  List.filter_cons_of_neg (by simp)

/-- A key that is put and then dropped leaves the list as if it had only been dropped. -/
@[simp] theorem sdel_sput_self {α : Type} (m : Sparse α) (k : Nat) (v : α) : sdel (sput m k v) k = sdel m k := by
  induction m with
  | nil => exact sdel_cons_self [] k v
  | cons p m ih =>
    obtain ⟨k', v'⟩ := p
    unfold sput
    split
    · exact sdel_cons_self _ k v
    · split
      · next heq =>
        subst heq
        rw [sdel_cons_self, sdel_cons_self]
      · unfold sdel at ih ⊢
        rw [List.filter_cons, List.filter_cons, ih]

theorem firstBelow_eq_some {p : Nat → Bool} {b n : Nat} (h : firstBelow p b = some n) : n < b ∧ p n = true :=
  ⟨List.mem_range.1 (List.mem_of_find?_eq_some h), List.find?_some h⟩

theorem firstBelow_isSome (p : Nat → Bool) (b : Nat) : (firstBelow p b).isSome = true ↔ ∃ n < b, p n = true := by
  simp [firstBelow, List.find?_isSome]

/-! ## Occurrences (R83, R88) -/

/-- The event state after a completion source has counted an occurrence towards its COUNT and TIME (R88). -/
def countedOccurrence (s : State) (src : Nat) : Events :=
  { s.ev with count := sput s.ev.count src (sget 0 s.ev.count src + 1),
              firstAt := sput s.ev.firstAt src ((sfind s.ev.firstAt src).getD s.time.clock),
              due := sput s.ev.due src ((sfind s.ev.firstAt src).getD s.time.clock + 1000 * field (evConfig s src) 31 16),
              met := if field (evConfig s src) 15 8 ≤ sget 0 s.ev.count src + 1 then insertNat s.ev.met src else s.ev.met }

/-- The event state after an occurrence that finds the event state `e`: PENDING, or OVERRUN when PENDING is set already (R83). -/
def markedOccurrence (e : Events) (src : Nat) : Events :=
  if e.pending.getLsbD src then { e with overrun := bit1024 e.overrun src true, overruns := e.overruns + 1 }
  else { e with pending := bit1024 e.pending src true }

/-- An occurrence of an enabled source: a completion source counts it, and every source marks it. -/
theorem raise_enabled (s : State) (n : Nat) (hn : n < 1024) (hr : sourceReserved n = false) (he : bitOf (evConfig s n) 1 = true) :
    raise s n = { s with ev := markedOccurrence (if 0x200 ≤ n then countedOccurrence s n else s.ev) n } := by
  have hoccurs : ¬(sourceReserved n || !bitOf (evConfig s n) 1 || decide (1024 ≤ n)) = true := by simp [hr, he]; omega
  unfold raise markedOccurrence
  rw [if_neg hoccurs]
  by_cases hc : 0x200 ≤ n
  · simp only [if_pos hc, countedOccurrence]
    split <;> rfl
  · simp only [if_neg hc]
    split <;> rfl

/-- Marking an occurrence moves PENDING, OVERRUN and EV_OVERRUNS alone. -/
theorem markedOccurrence_eq (e : Events) (n : Nat) :
    markedOccurrence e n = { e with pending := (markedOccurrence e n).pending, overrun := (markedOccurrence e n).overrun,
                                    overruns := (markedOccurrence e n).overruns } := by
  unfold markedOccurrence; split <;> rfl

/-- An occurrence that finds PENDING set is an overrun. -/
theorem markedOccurrence_of_pending {e : Events} {n : Nat} (h : e.pending.getLsbD n = true) :
    markedOccurrence e n = { e with overrun := bit1024 e.overrun n true, overruns := e.overruns + 1 } := if_pos h

theorem markedOccurrence_of_not_pending {e : Events} {n : Nat} (h : e.pending.getLsbD n = false) :
    markedOccurrence e n = { e with pending := bit1024 e.pending n true } := if_neg (by simp [h])

theorem exec_eventOccurrence (src : Fin 1024) (s : State) : exec (.eventOccurrence src) s = .next (raise s src) := rfl

theorem exec_coalesceTimeout_of_due {src : Fin 1024} {s : State} {d : Nat} (hc : 0x200 ≤ src.val) (hd : sfind s.ev.due src = some d)
    (ht : d ≤ s.time.clock) : exec (.coalesceTimeout src) s = .next { s with ev.met := insertNat s.ev.met src } := by
  show execCoalesceTimeout src s = _
  simp [execCoalesceTimeout, hc, hd, ht]

theorem exec_coalesceTimeout_of_not_due {src : Fin 1024} {s : State} {d : Nat} (hd : sfind s.ev.due src = some d)
    (ht : s.time.clock < d) : exec (.coalesceTimeout src) s = .next s := by
  have hlt : ¬d ≤ s.time.clock := by omega
  show execCoalesceTimeout src s = _
  simp [execCoalesceTimeout, hd, hlt]

/-- An occurrence that finds PENDING set sets OVERRUN. -/
theorem raise_ev_overrun (s : State) (n : Nat) (hn : n < 1024) (hr : sourceReserved n = false) (he : bitOf (evConfig s n) 1 = true)
    (hp : s.ev.pending.getLsbD n = true) : (raise s n).ev.overrun.getLsbD n = true := by
  have hp' : (if 0x200 ≤ n then countedOccurrence s n else s.ev).pending.getLsbD n = true := by split <;> exact hp
  rw [raise_enabled s n hn hr he, markedOccurrence_of_pending hp']
  simp [bit1024_getLsbD _ _ _ _ hn]

/-- An occurrence that finds PENDING clear is no overrun. -/
theorem raise_no_overrun (s : State) (n : Nat) (hn : n < 1024) (hr : sourceReserved n = false) (he : bitOf (evConfig s n) 1 = true)
    (hp : s.ev.pending.getLsbD n = false) : (raise s n).ev.overruns = s.ev.overruns ∧ (raise s n).ev.overrun = s.ev.overrun := by
  have hp' : (if 0x200 ≤ n then countedOccurrence s n else s.ev).pending.getLsbD n = false := by split <;> exact hp
  rw [raise_enabled s n hn hr he, markedOccurrence_of_not_pending hp']
  split <;> exact ⟨rfl, rfl⟩

/-- An occurrence of a source without coalescing moves PENDING, OVERRUN and EV_OVERRUNS alone. -/
theorem raise_plain_eq (s : State) (n : Nat) (hr : sourceReserved n = false) (he : bitOf (evConfig s n) 1 = true) (hc : n < 0x200) :
    raise s n = { s with ev := { s.ev with pending := (raise s n).ev.pending, overrun := (raise s n).ev.overrun,
                                           overruns := (raise s n).ev.overruns } } := by
  rw [raise_enabled s n (by omega) hr he, if_neg (by omega)]
  exact congrArg (fun e => { s with ev := e }) (markedOccurrence_eq s.ev n)

/-- An occurrence of a completion source also counts towards its coalescing condition. -/
theorem raise_completion_eq (s : State) (n : Nat) (hn : n < 1024) (hr : sourceReserved n = false) (he : bitOf (evConfig s n) 1 = true)
    (hc : 0x200 ≤ n) :
    raise s n = { s with ev := { countedOccurrence s n with pending := (raise s n).ev.pending, overrun := (raise s n).ev.overrun,
                                                            overruns := (raise s n).ev.overruns } } := by
  rw [raise_enabled s n hn hr he, if_pos hc]
  exact congrArg (fun e => { s with ev := e }) (markedOccurrence_eq (countedOccurrence s n) n)

/-- What a completion source's occurrence leaves of its coalescing: the count, the times, and the condition once COUNT is reached. -/
theorem countedOccurrence_coalesces (s : State) (n : Nat) :
    sget 0 (countedOccurrence s n).count n = sget 0 s.ev.count n + 1 ∧
    sfind (countedOccurrence s n).firstAt n = some ((sfind s.ev.firstAt n).getD s.time.clock) ∧
    sfind (countedOccurrence s n).due n = some ((sfind s.ev.firstAt n).getD s.time.clock + 1000 * field (evConfig s n) 31 16) ∧
    (field (evConfig s n) 15 8 ≤ sget 0 (countedOccurrence s n).count n → n ∈ (countedOccurrence s n).met) := by
  refine ⟨by simp [countedOccurrence], by simp [countedOccurrence, sfind_sput], by simp [countedOccurrence, sfind_sput], fun hcount => ?_⟩
  have hreached : field (evConfig s n) 15 8 ≤ sget 0 s.ev.count n + 1 := by simpa [countedOccurrence] using hcount
  simp [countedOccurrence, hreached, mem_insertNat]

/-- R83 and R88: the occurrence laws above, one for each clause. -/
theorem occurrencesPendOverrunAndCoalesce : OccurrencesPendOverrunAndCoalesce := by
  intro s src
  refine ⟨fun hoff => ?_, fun hr he => ?_, fun d hc hd ht => ?_, fun d hd ht => exec_coalesceTimeout_of_not_due hd ht⟩
  · rw [exec_eventOccurrence, raise_off s src (hoff.imp_right Or.inl)]
  · have hn := src.isLt
    refine ⟨raise s src, rfl, fun n => raise_ev_pending s src n hn hr he,
      fun hp => ⟨raise_ev_overruns s src hn hr he hp, raise_ev_overrun s src hn hr he hp⟩,
      raise_no_overrun s src hn hr he, raise_plain_eq s src hr he, fun hc => ?_⟩
    have hraise := raise_completion_eq s src hn hr he hc
    obtain ⟨hcount, hfirst, hdue, hmet⟩ := countedOccurrence_coalesces s src
    rw [hraise]
    exact ⟨hcount, hfirst, hdue, hmet, rfl⟩
  · exact ⟨_, exec_coalesceTimeout_of_due hc hd ht, fun n => mem_insertNat s.ev.met src n, rfl⟩

/-! ## Deliveries and bursts (R84, R89) -/

/-- The end of a burst moves hold-offs and bursts alone. -/
theorem settleBurst_eq (s : State) (g : Nat) :
    settleBurst s g = { s with ev := { s.ev with held := (settleBurst s g).ev.held, bursts := (settleBurst s g).ev.bursts } } := by
  unfold settleBurst; dsimp only; (repeat' split) <;> rfl

/-- A delivery in a group moves hold-offs and bursts alone. -/
theorem holdGroup_eq (s : State) (g src target : Nat) :
    holdGroup s g src target =
      { s with ev := { s.ev with held := (holdGroup s g src target).ev.held, bursts := (holdGroup s g src target).ev.bursts } } := by
  unfold holdGroup
  split
  · dsimp only; rw [settleBurst_eq]
  · dsimp only; split <;> rfl

/-- A delivery clears PENDING and the coalescing of its source, drops its late selections, and moves hold-offs and bursts. -/
theorem delivered_eq (s : State) (src target : Nat) :
    delivered s src target =
      { s with ev := { (clearPending s src).ev with late := s.ev.late.filter (fun l => l.src ≠ src),
                                                    held := (delivered s src target).ev.held, bursts := (delivered s src target).ev.bursts } } := by
  unfold delivered; dsimp only; rw [holdGroup_eq]; rfl

@[simp] theorem delivered_ev_pending (s : State) (src target : Nat) : (delivered s src target).ev.pending = bit1024 s.ev.pending src false := by
  rw [delivered_eq]; rfl

@[simp] theorem delivered_ev_pba (s : State) (src target : Nat) : (delivered s src target).ev.pba = s.ev.pba := by rw [delivered_eq]; rfl

@[simp] theorem delivered_ev_sent (s : State) (src target : Nat) : (delivered s src target).ev.sent = s.ev.sent := by rw [delivered_eq]; rfl

@[simp] theorem delivered_ev_inService (s : State) (src target : Nat) : (delivered s src target).ev.inService = s.ev.inService := by
  rw [delivered_eq]; rfl

@[simp] theorem vectorMasked_delivered (s : State) (src target fn vec : Nat) :
    vectorMasked (delivered s src target) fn vec = vectorMasked s fn vec := by rw [delivered_eq]; rfl

/-! ## Messages (R84, R85) -/

/-- The message of a masked vector sets its bit of the Pending Bit Array. -/
theorem issueMsix_of_masked {s : State} {r : Nat} (h : vectorMasked s (routeFn r) (field r 21 11) = true) :
    issueMsix s r = { s with ev.pba := insertNat s.ev.pba (320 * routeFn r + field r 21 11) } := if_pos h

/-- The message of a vector that is not masked is sent. -/
theorem issueMsix_of_unmasked {s : State} {r : Nat} (h : vectorMasked s (routeFn r) (field r 21 11) = false) :
    issueMsix s r = { s with ev.sent := ⟨routeTarget r - 3, field r 10 3, field r 21 11⟩ :: s.ev.sent } := if_neg (by simp [h])

/-- A message moves the Pending Bit Array and the messages sent alone. -/
theorem issueMsix_eq (s : State) (r : Nat) :
    issueMsix s r = { s with ev := { s.ev with pba := (issueMsix s r).ev.pba, sent := (issueMsix s r).ev.sent } } := by
  unfold issueMsix; split <;> rfl

/-- The function that a route to a host port names. -/
theorem routeFn_of_target {r port : Nat} (h : routeTarget r = port + 3) : routeFn r = 73 * port + field r 10 3 := by
  simp [routeFn, h]

/-- The source that an arbiter selects exists and is routed to its target. -/
theorem bestFor_eq_some {s : State} {target src : Nat} (h : bestFor s target = some src) : src < 1024 ∧ routeTarget (evRoute s src) = target := by
  obtain ⟨hlt, hsel⟩ := firstBelow_eq_some h
  simp only [Bool.and_eq_true, decide_eq_true_eq] at hsel
  exact ⟨hlt, hsel.1.2⟩

/-- A delivery engine without a late selection serves the arbiter's source. -/
theorem exec_msixDelivery (port : Fin 2) {s : State} (hl : s.ev.late = []) : exec (.msixDelivery port) s = .next (deliverBest s port) := by
  show execMsixDelivery port s = _
  simp [execMsixDelivery, lateFor, hl]

/-- The arbiter's source delivered: its PENDING clears, and its message goes out. -/
theorem deliverBest_of_some {s : State} {port src : Nat} (h : bestFor s (port + 3) = some src) :
    deliverBest s port = issueMsix (delivered s src (port + 3)) (evRoute s src) := by
  unfold deliverBest
  rw [h]

/-- With nothing to deliver and no burst open the port rests. -/
theorem deliverBest_of_none {s : State} {port : Nat} (hb : s.ev.bursts = []) (h : bestFor s (port + 3) = none) : deliverBest s port = s := by
  unfold deliverBest
  rw [h]
  simp [settleBursts, hb]

/-- Of the delivered source PENDING alone clears, and besides the event state nothing moves. -/
theorem issueMsix_delivered_frame (s : State) (src target r : Nat) (hs : src < 1024) :
    (∀ n, (issueMsix (delivered s src target) r).ev.pending.getLsbD n = (s.ev.pending.getLsbD n && decide (n ≠ src))) ∧
    (issueMsix (delivered s src target) r).ev.inService = s.ev.inService ∧
    issueMsix (delivered s src target) r = { s with ev := (issueMsix (delivered s src target) r).ev } := by
  refine ⟨fun n => ?_, ?_, ?_⟩
  · rw [issueMsix_eq]
    show (delivered s src target).ev.pending.getLsbD n = _
    rw [delivered_ev_pending, bit1024_getLsbD _ _ _ _ hs]
    by_cases hn : n = src <;> simp [hn]
  · rw [issueMsix_eq]
    exact delivered_ev_inService s src target
  · rw [issueMsix_eq, delivered_eq]

/-- The delivery of the arbiter's source by a host port (R84, R85). -/
theorem deliverBest_message {s : State} {port src : Nat} (h : bestFor s (port + 3) = some src) :
    (vectorMasked s (73 * port + field (evRoute s src) 10 3) (field (evRoute s src) 21 11) = false →
      (deliverBest s port).ev.sent = ⟨port, field (evRoute s src) 10 3, field (evRoute s src) 21 11⟩ :: s.ev.sent ∧
      (deliverBest s port).ev.pba = s.ev.pba) ∧
    (vectorMasked s (73 * port + field (evRoute s src) 10 3) (field (evRoute s src) 21 11) = true →
      (∀ n, n ∈ (deliverBest s port).ev.pba ↔
        n ∈ s.ev.pba ∨ n = 320 * (73 * port + field (evRoute s src) 10 3) + field (evRoute s src) 21 11) ∧
      (deliverBest s port).ev.sent = s.ev.sent) := by
  obtain ⟨-, htarget⟩ := bestFor_eq_some h
  have hfn := routeFn_of_target htarget
  rw [deliverBest_of_some h, ← hfn, ← vectorMasked_delivered s src (port + 3)]
  constructor
  · intro hm
    rw [issueMsix_of_unmasked hm, htarget]
    exact ⟨congrArg _ (delivered_ev_sent s src (port + 3)), delivered_ev_pba s src (port + 3)⟩
  · intro hm
    rw [issueMsix_of_masked hm]
    refine ⟨fun n => ?_, delivered_ev_sent s src (port + 3)⟩
    simp only [mem_insertNat, delivered_ev_pba]

/-! ## The end of a hold-off (R89) -/

/-- The state in which a group's burst opens: no hold-off runs, and nothing of the burst has been delivered. -/
def burstOpened (s : State) (g : Nat) : State := { s with ev.held := sdel s.ev.held g, ev.bursts := sput s.ev.bursts g {} }

theorem burstOpened_ev_bursts_self (s : State) (g : Nat) : sfind (burstOpened s g).ev.bursts g = some {} := by
  simp [burstOpened, sfind_sput]

/-- A burst that has delivered nothing leaves out no source. -/
theorem pastBurst_of_empty {s : State} {src : Nat} (h : ∀ b, sfind s.ev.bursts (evGroup s src) = some b → b = {}) : pastBurst s src = false := by
  unfold pastBurst
  split
  · rfl
  · next b hb => rw [h b hb]; rfl

/-- A source that is ready is eligible while its group has no hold-off and no burst that has delivered anything. -/
theorem eligible_of_open {s : State} {src : Nat} (hr : ready s src = true) (hh : sfind s.ev.held (evGroup s src) = none)
    (hb : ∀ b, sfind s.ev.bursts (evGroup s src) = some b → b = {}) : eligible s src = true := by
  simp [eligible, hr, heldFor, hh, pastBurst_of_empty hb]

/-- A burst has a source left exactly when a source of its group is ready and not past. -/
theorem burstLeft_iff (s : State) (g : Nat) :
    burstLeft s g = true ↔ ∃ n < 1024, s.ev.pending.getLsbD n = true ∧ evGroup s n = g ∧ ready s n = true ∧ pastBurst s n = false := by
  simp [burstLeft, firstBelow_isSome, and_assoc]

theorem pending_of_ready {s : State} {src : Nat} (h : ready s src = true) : s.ev.pending.getLsbD src = true := by
  simp only [ready, Bool.and_eq_true] at h
  exact h.1.1.1.1

theorem openGroup_of_no_holdoff {s : State} {g : Nat} (h : holdoff s g = 0) :
    openGroup s g = { s with ev := { s.ev with held := sdel s.ev.held g, bursts := sdel s.ev.bursts g } } := if_pos h

theorem openGroup_of_holdoff {s : State} {g : Nat} (h : holdoff s g ≠ 0) : openGroup s g = settleBurst (burstOpened s g) g := if_neg h

/-- A group with a source to deliver opens a burst. -/
theorem openGroup_of_burstLeft {s : State} {g : Nat} (h : holdoff s g ≠ 0) (hl : burstLeft (burstOpened s g) g = true) :
    openGroup s g = burstOpened s g := by
  rw [openGroup_of_holdoff h, settleBurst, burstOpened_ev_bursts_self]
  exact if_pos hl

/-- A group with no source to deliver is open, with no burst. -/
theorem openGroup_of_not_burstLeft {s : State} {g : Nat} (hl : burstLeft (burstOpened s g) g = false) :
    openGroup s g = { s with ev := { s.ev with held := sdel s.ev.held g, bursts := sdel s.ev.bursts g } } := by
  by_cases h : holdoff s g = 0
  · exact openGroup_of_no_holdoff h
  · rw [openGroup_of_holdoff h, settleBurst, burstOpened_ev_bursts_self]
    simp only [hl, Bool.false_eq_true, if_false]
    simp only [burstOpened, sdel_sput_self]

/-- A ready source of the group is left to deliver as its burst opens. -/
theorem burstLeft_burstOpened {s : State} {src : Nat} (hs : src < 1024) (hr : ready s src = true) :
    burstLeft (burstOpened s (evGroup s src)) (evGroup s src) = true := by
  refine (burstLeft_iff _ _).2 ⟨src, hs, pending_of_ready hr, rfl, hr, pastBurst_of_empty fun b hb => ?_⟩
  exact (Option.some.inj ((burstOpened_ev_bursts_self s (evGroup s src)).symm.trans hb)).symm

/-- At the end of its group's hold-off a ready source is eligible. -/
theorem openGroup_makes_eligible {s : State} {src : Nat} (hs : src < 1024) (hr : ready s src = true) :
    eligible (openGroup s (evGroup s src)) src = true ∧
    openGroup s (evGroup s src) =
      { s with ev := { s.ev with held := sdel s.ev.held (evGroup s src), bursts := (openGroup s (evGroup s src)).ev.bursts } } := by
  have hheld : sfind (sdel s.ev.held (evGroup s src)) (evGroup s src) = none := by simp [sfind_sdel]
  by_cases h : holdoff s (evGroup s src) = 0
  · rw [openGroup_of_no_holdoff h]
    refine ⟨eligible_of_open hr hheld fun b hb => ?_, rfl⟩
    have hnone : sfind (sdel s.ev.bursts (evGroup s src)) (evGroup s src) = none := by simp [sfind_sdel]
    cases hnone.symm.trans hb
  · rw [openGroup_of_burstLeft h (burstLeft_burstOpened hs hr)]
    refine ⟨eligible_of_open hr hheld fun b hb => ?_, rfl⟩
    exact (Option.some.inj ((burstOpened_ev_bursts_self s (evGroup s src)).symm.trans hb)).symm

theorem exec_holdoffExpiry_of_expired {g : Fin 64} {s : State} {h : Held} (hh : sfind s.ev.held g = some h) (ht : h.until_ ≤ s.time.clock) :
    exec (.holdoffExpiry g) s = .next (openGroup s g) := by
  show execHoldoffExpiry g s = _
  simp [execHoldoffExpiry, hh, ht]

theorem exec_holdoffExpiry_of_running {g : Fin 64} {s : State} {h : Held} (hh : sfind s.ev.held g = some h) (ht : s.time.clock < h.until_) :
    exec (.holdoffExpiry g) s = .next s := by
  have hlt : ¬h.until_ ≤ s.time.clock := by omega
  show execHoldoffExpiry g s = _
  simp [execHoldoffExpiry, hh, hlt]

/-- Delivery by a host port, and the end of a hold-off (R84, R85, R89). -/
theorem deliveryIssuesTheLowestEligibleSource : DeliveryIssuesTheLowestEligibleSource := by
  intro s
  refine ⟨fun port src hl hbest => ?_, fun port hl hb hnone => ?_, fun g h hh ht hidle => ?_,
    fun g h hh ht => exec_holdoffExpiry_of_running hh ht, fun g h src hh ht hs hr hg => ?_⟩
  · obtain ⟨hsrc, -⟩ := bestFor_eq_some hbest
    refine ⟨deliverBest s port, exec_msixDelivery port hl, ?_, ?_⟩
    · rintro fn vec rfl rfl
      exact deliverBest_message hbest
    · rw [deliverBest_of_some hbest]
      exact issueMsix_delivered_frame s src (port + 3) (evRoute s src) hsrc
  · rw [exec_msixDelivery port hl, deliverBest_of_none hb hnone]
  · have hempty : burstLeft (burstOpened s g) g = false := by
      rw [Bool.eq_false_iff, Ne, burstLeft_iff]
      rintro ⟨n, hn, hp, hgroup, -⟩
      exact hidle n hn hp hgroup
    rw [exec_holdoffExpiry_of_expired hh ht, openGroup_of_not_burstLeft hempty]
  · have hopen := openGroup_makes_eligible hs hr
    rw [hg] at hopen
    exact ⟨openGroup s g, exec_holdoffExpiry_of_expired hh ht, hopen⟩

/-- Settles O25: the rules of occurrences and coalescing, with those of delivery and of the end of a hold-off. -/
theorem occurrencesPendAndAreDelivered : Obligations.OccurrencesPendAndAreDelivered :=
  ⟨occurrencesPendOverrunAndCoalesce, deliveryIssuesTheLowestEligibleSource⟩

end Sys2Proof.Machine

/-!
Program exceptions of slots and words at issue (R186), those that name a RERUN layer among them (R209). The command that ends with one is found
in the Trailhead, which accesses to memory, the settling of the shadow and the freeing of instances leave as it was.
-/
namespace Sys2Proof.Machine
open Sys2Proof.Claims

/-! ## The Trailhead is as it was after a count -/

/-- What leaves the Trailhead at every element of a fold leaves it over the fold. -/
theorem foldl_trail {α : Type} {f : State → α → State} (hf : ∀ s x, (f s x).trail = s.trail) (l : List α) (s : State) :
    (l.foldl f s).trail = s.trail := by
  induction l generalizing s with
  | nil => rfl
  | cons x l ih => rw [List.foldl_cons, ih, hf]

@[simp] theorem groveWrapped_trail (s : State) (p g k : Nat) : (groveWrapped s p g k).trail = s.trail := by
  unfold groveWrapped; dsimp only; split <;> simp [addCarry]

@[simp] theorem groveCtrAdd_trail (s : State) (p g k n : Nat) : (groveCtrAdd s p g k n).trail = s.trail := by
  unfold groveCtrAdd; dsimp only; split <;> simp

@[simp] theorem countG_trail (s : State) (g ev n : Nat) : (countG s g ev n).trail = s.trail := by
  unfold countG
  split
  · rfl
  · split
    · rfl
    · exact foldl_trail (fun _ _ => by dsimp only; split <;> simp) _ _

@[simp] theorem dieWrapped_trail (s : State) (d k : Nat) : (dieWrapped s d k).trail = s.trail := by
  unfold dieWrapped; dsimp only; split <;> simp

@[simp] theorem countD_trail (s : State) (d ev n : Nat) : (countD s d ev n).trail = s.trail := by
  unfold countD
  split
  · rfl
  · exact foldl_trail (fun _ _ => by dsimp only; (repeat' split) <;> simp) _ _

@[simp] theorem countE_trail (s : State) (kind i place n : Nat) : (countE s kind i place n).trail = s.trail := by
  unfold countE; split <;> rfl

/-! ## The Trailhead is as it was after an access to memory -/

@[simp] theorem eccResult_trail (s : State) (port line : Nat) (e : Ecc) : (eccResult s port line e).trail = s.trail := by
  cases e <;> simp [eccResult, portUe]

@[simp] theorem readLpddr_trail (s : State) (line : Nat) : (readLpddr s line).trail = s.trail := by
  unfold readLpddr; dsimp only; (repeat' split) <;> simp

@[simp] theorem lookLine_trail (s : State) (line : Nat) : (lookLine s line).trail = s.trail := by
  unfold lookLine useLine; dsimp only; (repeat' split) <;> simp

@[simp] theorem homeWrite_trail (s : State) (a : Nat) (bs : List Byte) : (homeWrite s a bs).trail = s.trail := rfl

@[simp] theorem send_trail (s : State) (m : DMsg) (g line : Nat) (bs : List Byte) : (send s m g line bs).trail = s.trail := rfl

@[simp] theorem invalidate_trail (but : Nat) (s : State) (line : Nat) : (invalidate but s line).1.trail = s.trail := by
  unfold invalidate
  exact (foldl_trail (fun _ _ => countG_trail ..) _ _).trans (foldl_trail (fun _ _ => by split <;> rfl) _ _)

@[simp] theorem evictLine_trail (s : State) (line : Nat) : (evictLine s line).trail = s.trail := by
  unfold evictLine; dsimp only; (repeat' split) <;> simp

@[simp] theorem makeRoom_trail (s : State) (line : Nat) : (makeRoom s line).trail = s.trail := by
  unfold makeRoom; dsimp only; (repeat' split) <;> simp

@[simp] theorem putLine_trail (s : State) (line : Nat) (d : DirState) (dirty : Bool) : (putLine s line d dirty).trail = s.trail := by
  unfold putLine; split <;> simp

@[simp] theorem mergeData_trail (s : State) (line : Nat) (bs : List Byte) : (mergeData s line bs).trail = s.trail := by
  unfold mergeData; split <;> simp

@[simp] theorem serve_trail (s : State) (req : DMsg) (g line : Nat) : (serve s req g line).trail = s.trail := by
  unfold serve; dsimp only; (repeat' split) <;> simp

@[simp] theorem beginReq_trail (s : State) (req : DMsg) (g line : Nat) : (beginReq s req g line).trail = s.trail := by
  have hsnoop : ∀ (m : DMsg) (l : List Nat), (l.foldl (fun s x => send s m x line) s).trail = s.trail :=
    fun m l => foldl_trail (fun _ _ => send_trail ..) l s
  unfold beginReq; dsimp only; (repeat' split) <;> simp [hsnoop]

@[simp] theorem nextReq_trail (s : State) (line : Nat) : (nextReq s line).trail = s.trail := by
  unfold nextReq; (repeat' split) <;> simp

@[simp] theorem request_trail (s : State) (m : DMsg) (g line : Nat) : (request s m g line).trail = s.trail := by
  unfold request; split <;> simp

@[simp] theorem closeHome_trail (s : State) (line : Nat) : (closeHome s line).trail = s.trail := by
  unfold closeHome
  split
  · rfl
  · split
    · rfl
    · exact (nextReq_trail ..).trans ((foldl_trail (fun _ _ => send_trail ..) _ _).trans (serve_trail ..))

@[simp] theorem answered_trail (s : State) (g line : Nat) (left ack : Bool) : (answered s g line left ack).trail = s.trail := by
  unfold answered; dsimp only; (repeat' split) <;> simp

@[simp] theorem takeEviction_trail (s : State) (g line : Nat) (bs : List Byte) : (takeEviction s g line bs).trail = s.trail := by
  unfold takeEviction; dsimp only; (repeat' split) <;> simp

@[simp] theorem startEviction_trail (s : State) (g line : Nat) : (startEviction s g line).trail = s.trail := by
  unfold startEviction; (repeat' split) <;> simp

@[simp] theorem fillCopy_trail (s : State) (g line : Nat) (c : GCopy) : (fillCopy s g line c).trail = s.trail := by
  unfold fillCopy groveRoom; dsimp only; (repeat' split) <;> simp

@[simp] theorem arrive_trail (s : State) (f : Flight) : (arrive s f).trail = s.trail := by
  unfold arrive; dsimp only; (repeat' split) <;> simp

@[simp] theorem drain_trail (line n : Nat) (s : State) : (drain line n s).trail = s.trail := by
  induction n generalizing s with
  | zero => rfl
  | succ n ih => unfold drain; split <;> simp [ih]

@[simp] theorem settle_trail (s : State) (line : Nat) : (settle s line).trail = s.trail := by
  unfold settle; split <;> simp

@[simp] theorem snoopFor_trail (but : Nat) (s : State) (line : Nat) : (snoopFor but s line).trail = s.trail := by
  unfold snoopFor; dsimp only; split <;> simp

@[simp] theorem snoopInvalidate_trail (s : State) (line : Nat) : (snoopInvalidate s line).trail = s.trail := snoopFor_trail ..

@[simp] theorem writeMem_trail (s : State) (a : Nat) (bs : List Byte) : (writeMem s a bs).trail = s.trail := by
  unfold writeMem
  calc _ = _ := foldl_trail (fun _ _ => putLine_trail ..) _ _
    _ = _ := foldl_trail (fun _ _ => by dsimp only; split <;> simp) _ _
    _ = _ := foldl_trail (fun _ _ => by split <;> simp) _ _
    _ = s.trail := foldl_trail snoopInvalidate_trail _ _

@[simp] theorem performAtom_trail (s : State) (code addr operand compare : Nat) :
    (performAtom s code addr operand compare).1.trail = s.trail := by
  unfold performAtom; dsimp only; (repeat' split) <;> simp

@[simp] theorem groveWrite_trail (s : State) (g p a : Nat) (bs : List Byte) : (groveWrite s g p a bs).1.trail = s.trail := by
  unfold groveWrite; dsimp only; (repeat' split) <;> simp

/-! ## The Trailhead is as it was after shadows are settled and instances freed -/

@[simp] theorem drainTasks_trail (s : State) (p : Nat) (l : List Task) : (drainTasks s p l).trail = s.trail :=
  foldl_trail (fun _ _ => by unfold drainRedo; split <;> simp) _ _

@[simp] theorem undoEntry_trail (s : State) (g : Nat) (e : UndoEnt) : (undoEntry s g e).trail = s.trail := by
  unfold undoEntry; dsimp only; (repeat' split) <;> simp

@[simp] theorem undoTasks_trail (s : State) (l : List TaskAt) : (undoTasks s l).trail = s.trail :=
  (foldl_trail (fun _ _ => undoEntry_trail ..) _ _).trans (foldl_trail (fun _ _ => modTask_trail ..) _ _)

@[simp] theorem releaseStats_trail (s : State) (p : Nat) (t : Task) : (releaseStats s p t).trail = s.trail :=
  (foldl_trail (fun _ _ => modQ_trail ..) _ _).trans (foldl_trail (fun _ _ => modQ_trail ..) _ _)

@[simp] theorem settleShadow_trail (s : State) (i : Nat) (x : Inst) (w : Freeze) : (settleShadow s i x w).trail = s.trail := by
  unfold settleShadow
  calc _ = _ := undoTasks_trail ..
    _ = _ := foldl_trail (fun _ _ => modTask_trail ..) _ _
    _ = _ := foldl_trail (fun _ _ => releaseStats_trail ..) _ _
    _ = s.trail := drainTasks_trail ..

@[simp] theorem resolveTicket_trail (s : State) (k how : Nat) : (resolveTicket s k how).trail = s.trail := by
  unfold resolveTicket; dsimp only; (repeat' split) <;> simp

@[simp] theorem freeInst_trail (s : State) (i : Nat) : (freeInst s i).trail = s.trail :=
  foldl_trail (fun _ _ => resolveTicket_trail ..) _ _

/-- What is freed is gone. -/
@[simp] theorem instOf_freeInst_self (s : State) (i : Nat) : instOf (freeInst s i) i = none := by simp [instOf, freeInst, sfind_sdel]

/-! ## Commands that end, tasks that hold an exception -/

/-- The first entry that a list's test finds after every entry that passes it has changed and passes it still. -/
theorem find?_map_ite {α : Type} {p : α → Bool} {q : α → Prop} [DecidablePred q] (hp : ∀ x, p x = true ↔ q x) {f : α → α}
    (hf : ∀ x, q x → q (f x)) (l : List α) : (l.map (fun x => if q x then f x else x)).find? p = (l.find? p).map f := by
  induction l with
  | nil => rfl
  | cons x l ih =>
    by_cases hx : q x
    · simp [hx, (hp x).2 hx, (hp _).2 (hf x hx)]
    · simp [hx, ih, mt (hp x).1 hx]

theorem cmdOf_of_trail_eq {s t : State} (h : t.trail = s.trail) (r : Nat) (seq : BitVec 64) : cmdOf t r seq = cmdOf s r seq := by
  rw [cmdOf, cmdOf, h]

/-- The command of a ring and sequence number after a change of it that keeps what finds it. -/
theorem cmdOf_modCmd_self (s : State) (r : Nat) (seq : BitVec 64) {f : Cmd → Cmd}
    (hf : ∀ c, (f c).ring = c.ring ∧ (f c).seq = c.seq ∧ (f c).dup = c.dup) : cmdOf (modCmd s r seq f) r seq = (cmdOf s r seq).map f :=
  find?_map_ite (fun c => by simp [and_assoc]) (fun c hc => by simpa [hf c] using hc) _

/-- R138: a command in flight without an outcome is done once it finishes, with its own record flags. -/
theorem done_finish {s : State} {r : Nat} {seq : BitVec 64} {d : Cmd} (hd : cmdOf s r seq = some d) (hr : d.result = none) (res : CmdResult) :
    Done (finish s r seq res) r seq d res.status res.aux res.flags := by
  refine ⟨_, (cmdOf_modCmd_self s r seq fun c => ?_).trans (congrArg _ hd), ?_, ?_⟩
  · split <;> exact ⟨rfl, rfl, rfl⟩
  · simp [hr]
  · simp [hr]

theorem instOf_finish (s : State) (r : Nat) (seq : BitVec 64) (res : CmdResult) (i : Nat) : instOf (finish s r seq res) i = instOf s i := rfl

theorem instOf_modInst_self (s : State) (i : Nat) (f : Inst → Inst) : instOf (modInst s i f) i = (instOf s i).map f := by
  unfold instOf modInst smod
  cases h : sfind s.root.insts i <;> simp [h, sfind_sput]

/-- A firing after a change of it that keeps its number. -/
theorem firingOf_modFiring_self (s : State) (i n k : Nat) {f : Firing → Firing} (hf : ∀ y, (f y).num = y.num) :
    firingOf (modFiring s i n k f) i n k = (firingOf s i n k).map f := by
  have hfind : ∀ l : List Firing, (l.map (fun y => if y.num = k then f y else y)).find? (fun z => decide (z.num = k)) =
      (l.find? (fun z => decide (z.num = k))).map f := find?_map_ite (fun _ => decide_eq_true_iff) fun y hy => (hf y).trans hy
  unfold firingOf modFiring modNode
  rw [instOf_modInst_self]
  cases instOf s i with
  | none => rfl
  | some x => cases hn : x.nodes[n]? <;> simp [setNode, nodeOf, hn, hfind]

/-- A task after a change of it. -/
theorem taskOf_modTask_self (s : State) (i n k t : Nat) (f : Task → Task) : taskOf (modTask s i n k t f) i n k t = (taskOf s i n k t).map f := by
  unfold taskOf modTask
  rw [firingOf_modFiring_self]
  · cases firingOf s i n k <;> simp
  · exact fun _ => rfl

/-! ## Program exceptions (R186) -/

/-- R164, R186: a GRAPH_RUN that freezes is gone from the Rootwork, and its command is done. -/
theorem freezeInst_ends_run {s : State} {i : Nat} {x : Inst} {r : Nat} {seq : BitVec 64} {d : Cmd} (hx : instOf s i = some x)
    (ho : x.owner = .run r seq) (hre : x.rerun = false) (hd : cmdOf s r seq = some d) (hr : d.result = none) (status aux : Nat) (w : Freeze) :
    instOf (freezeInst s i status aux true w) i = none ∧ Done (freezeInst s i status aux true w) r seq d status aux 0 := by
  have hend : freezeInst s i status aux true w = finish (freeInst (settleShadow s i x w) i) r seq ⟨status, aux, 0⟩ := by
    simp [freezeInst, endOwner, hx, ho, hre]
  have hcmd : cmdOf (freeInst (settleShadow s i x w) i) r seq = some d :=
    (cmdOf_of_trail_eq ((freeInst_trail ..).trans (settleShadow_trail ..)) r seq).trans hd
  rw [hend]
  exact ⟨(instOf_finish ..).trans (instOf_freeInst_self ..), done_finish hcmd hr ⟨status, aux, 0⟩⟩

/-- The exception of a task with an unconfirmed input is held. -/
theorem taskFault_of_unconfirmed {s : State} {i n k : Nat} {x : Inst} {f : Firing} (hx : instOf s i = some x) (hf : firingOf s i n k = some f)
    (hu : inputsConfirmed f = false) (t g cause upc : Nat) :
    taskFault s i n k t g cause upc = modTask s i n k t (fun z => { z with heldFault := some (cause, upc) }) := by
  simp [taskFault, hx, hf, hu]

/-- The exception of a task with confirmed inputs is counted and freezes its graph. -/
theorem taskFault_of_confirmed {s : State} {i n k : Nat} {x : Inst} {f : Firing} (hx : instOf s i = some x) (hf : firingOf s i n k = some f)
    (hc : inputsConfirmed f = true) (t g cause upc : Nat) :
    taskFault s i n k t g cause upc = freezeInst (microFault s x.part) i stUnitFault (faultAux cause g upc) true (.task n k t) := by
  simp [taskFault, microFault, hx, hf, hc]

/-- R186: an instruction that raises a program exception of a core's task, in a state with the instances and the commands of the one in which it
began, does what `Excepts` says. -/
theorem excepts_of_exec_eq_coreFault {j : Instr} {s s' : State} {c : Nat} {k : Core} {cause : Nat} (he : exec j s = .next (coreFault s' c k cause))
    (hroot : s'.root = s.root) (htrail : s'.trail = s.trail) : Excepts j s c k cause := by
  intro x f z hx hf hz
  have hx' : instOf s' k.ins = some x := by rw [← hx, instOf, instOf, hroot]
  have hf' : firingOf s' k.ins k.node k.firing = some f := by rw [← hf, firingOf, firingOf, instOf, instOf, hroot]
  refine ⟨fun hu => ⟨_, he, ?_⟩, fun r seq d hc ho hre hd hr => ⟨_, he, ?_⟩⟩
  · refine ⟨{ z with heldFault := some (cause, k.upc) }, ?_, rfl⟩
    rw [coreFault, taskFault_of_unconfirmed hx' hf' hu, taskOf_modTask_self, taskOf, hf', Option.bind_some, hz, Option.map_some]
  · rw [coreFault, taskFault_of_confirmed hx' hf' hc]
    exact freezeInst_ends_run (s := microFault s' x.part) hx' ho hre ((cmdOf_of_trail_eq htrail r seq).trans hd) hr ..

/-! ## The faults of words and slots at issue (R186, R209) -/

/-- A slot taken by itself that breaks a rule of issue raises the exception. -/
theorem slotRow_of_issueFault {s : State} {c : Nat} {k : Core} {w : GWord} {cause : Nat} (hk : Running s c k)
    (hf : issueFault s k w = some cause) : slotRow c w s = .next (coreFault s c k cause) := by
  simp [slotRow, hk.1, hk.2, hf]

/-- A core that runs has its task's context. -/
theorem taskCtx_of_running {s : State} {c : Nat} {k : Core} {i : Inst} (hk : Running s c k) (hi : instOf s k.ins = some i) :
    ∃ f t, taskCtx s k = some (i, f, t) := by
  obtain ⟨-, hm⟩ := hk
  unfold mayIssue at hm
  cases hf : firingOf s k.ins k.node k.firing with
  | none => simp [taskCtx, hf] at hm
  | some f =>
    cases ht : f.tasks[k.task]? with
    | none => simp [taskCtx, hi, hf, ht] at hm
    | some t => exact ⟨f, t, by simp [taskCtx, hi, hf, ht]⟩

/-- R209: a word that names a RERUN layer in a task of an unchecked node, and breaks no other rule of issue, breaks that one. -/
theorem issueFault_of_unchecked_rerun {s : State} {k : Core} {i : Inst} {f : Firing} {t : Task} {w : GWord} (hctx : taskCtx s k = some (i, f, t))
    (hch : (nodeOf i k.node).any (·.ent.checked) = false) (hcond : w.cond ≤ 38) (hnext : w.next ≤ 4) (hsop : w.sop ≤ 15) (hmem : memBad w = false)
    (hvec : vectorBad w = false) (hmat : matrixBad w k = false) (htwo : twoWriters w = false) (hmop : w.mop ≠ 0)
    (hlayer : layerMode (lget 0 i.layers w.x.layer) = 2) : issueFault s k w = some 0x08 := by
  have hchecked : ((nodeOf i k.node).map (·.ent.checked)).getD false = false := by
    cases hn : nodeOf i k.node with
    | none => rfl
    | some y => simpa [hn] using hch
  have hnext' : ¬8 < w.next ∧ w.next ≠ 6 ∧ w.next ≠ 5 := by omega
  simp [issueFault, hctx, namesRerun, hchecked, Nat.not_lt.2 hcond, hnext', Nat.not_lt.2 hsop, hmem, hvec, hmat, htwo, hmop, hlayer]

/-! ### The rules of the MATRIX slot that a sound slot meets (R201) -/

section
variable {x : XSlot} (hsfmt : x.sfmt.val ≤ 4) (hpfmt : x.pfmt = x.sfmt) (hgroup : x.sfmt.val = 4 → x.group = 0) (hofmt : x.ofmt.val ≤ 5)
include hsfmt hpfmt hgroup hofmt

theorem matrixBad_panel (m : MemSlot) (k : Core) : matrixBad { mop := 1, x, mem := 5, m } k = false := by
  simpa [matrixBad, hpfmt, hsfmt, hofmt] using hgroup

theorem matrixBad_mma (m : MemSlot) {k : Core} {p : Panel} (hp : sfind k.mat.panels x.row = some p) (hbytes : p.bytes ≠ [])
    (hlen : x.group ≠ 0 → rowLen x.pfmt p % groupSize x.group = 0) : matrixBad { mop := 2, x, mem := 5, m } k = false := by
  rw [hpfmt] at hlen
  simpa [matrixBad, panelOf, hp, hbytes, hpfmt, hsfmt, hofmt] using ⟨hgroup, hlen⟩

theorem matrixBad_of_no_stream {mop : Nat} (hmop : mop = 3 ∨ mop = 4) (k : Core) : matrixBad { mop, x } k = false := by
  rcases hmop with rfl | rfl <;> simpa [matrixBad, hpfmt, hsfmt, hofmt] using hgroup

end

/-! ### RERUN_UNSHADOWED (R209) -/

/-- A MATRIX slot taken by itself that breaks no other rule of issue raises RERUN_UNSHADOWED (R209). -/
theorem excepts_of_matrix_slot {j : Instr} {s : State} {c : Nat} {k : Core} {i : Inst} {mop mem : Nat} {x : XSlot} {m : MemSlot} (hk : Running s c k)
    (hi : instOf s k.ins = some i) (hch : (nodeOf i k.node).any (·.ent.checked) = false) (hlayer : layerMode (lget 0 i.layers x.layer) = 2)
    (he : exec j s = slotRow c { mop, x, mem, m } s) (hmop : mop ≠ 0) (hmem : memBad { mop, x, mem, m } = false)
    (hmat : matrixBad { mop, x, mem, m } k = false) (htwo : twoWriters { mop, x, mem, m } = false) : Excepts j s c k 0x08 := by
  obtain ⟨f, t, hctx⟩ := taskCtx_of_running hk hi
  have hfault : issueFault s k { mop, x, mem, m } = some 0x08 :=
    issueFault_of_unchecked_rerun hctx hch (Nat.zero_le _) (Nat.zero_le _) (Nat.zero_le _) hmem rfl hmat htwo hmop hlayer
  exact excepts_of_exec_eq_coreFault (he.trans (slotRow_of_issueFault hk hfault)) rfl rfl

/-- The fetch through the match registers is the fetch that R178 states. -/
theorem coreWord_of_fetches {s : State} {c : Nat} {k : Core} {w : GWord} {p : Bool} {a : Nat} (h : Fetches s c k w p a) :
    coreWord s c k = (w, { k with inPatch := p, upc := a }) := by
  rcases h with ⟨hk, rfl, rfl, rfl⟩ | ⟨hk, rfl, rfl, rfl, hno⟩ | ⟨hk, rfl, rfl, l, m, l', hregs, hm, rfl, hno⟩
  · simp [coreWord, fetchWord, hk]
  · have hnone : matchReg (patchOf s 0 (c / 64)) k.upc = none := by simpa [matchReg] using hno
    simp [coreWord, fetchWord, hk, hnone, storeWord]
  · have hsome : matchReg (patchOf s 0 (c / 64)) k.upc = some m.2.2 := by
      have hl : l.find? (fun r => decide (r.2.1 = k.upc)) = none := by simpa using hno
      simp [matchReg, hregs, List.find?_append, hl, hm]
    simp [coreWord, fetchWord, hk, hsome]

/-- A word that a core fetches and that may issue, but breaks a rule of issue, raises the exception at the word's own place. -/
theorem exec_wordIssue_of_issueFault {s : State} {c : Fin 27648} {k k1 : Core} {w : GWord} {p : Bool} {a cause : Nat} (hk : Running s c k)
    (hf : Fetches s c k w p a) (hk1 : k1 = { k with inPatch := p, upc := a }) (hcond : w.cond ≤ 38) (htrue : condTrue s c k1 w.cond = true)
    (hfault : issueFault s k1 w = some cause) : exec (.wordIssue c) s = .next (coreFault (modCore s c (fun _ => k1)) c k1 cause) := by
  have htrue' : condTrue (modCore s c (fun _ => k1)) c k1 w.cond = true := htrue
  have hfault' : issueFault (modCore s c (fun _ => k1)) k1 w = some cause := hfault
  show execWordIssue c s = _
  simp [execWordIssue, hk.1, hk.2, coreWord_of_fetches hf, ← hk1, issueWord, Nat.not_lt.2 hcond, htrue', hfault']

/-- Settles O48: each MATRIX slot by itself, and a whole word, breaks the rule for RERUN layers (R209) and no other rule of issue. -/
theorem rerunLayersNeedACheckedNode : Obligations.RerunLayersNeedACheckedNode := by
  intro s c k i hk hi hch
  refine ⟨fun m x hlayer hsfmt hpfmt hgroup hofmt => ⟨fun j hj => ?_, fun p hp hbytes hlen j hj => ?_⟩,
    fun w p a k1 hf hk1 _ _ _ hcond htrue hnext hsop hmem hvec hmat htwo hmop hlayer => ?_⟩
  · have hpanel := matrixBad_panel hsfmt hpfmt hgroup hofmt m k
    have hdrain := matrixBad_of_no_stream hsfmt hpfmt hgroup hofmt (mop := 3) (.inl rfl) k
    have hzero := matrixBad_of_no_stream hsfmt hpfmt hgroup hofmt (mop := 4) (.inr rfl) k
    simp only [List.mem_cons, List.not_mem_nil, or_false] at hj
    rcases hj with rfl | rfl | rfl | rfl
    iterate 2 exact excepts_of_matrix_slot hk hi hch hlayer rfl (by simp) rfl hpanel rfl
    · exact excepts_of_matrix_slot hk hi hch hlayer rfl (by simp) rfl hdrain rfl
    · exact excepts_of_matrix_slot hk hi hch hlayer rfl (by simp) rfl hzero rfl
  · have hmma := matrixBad_mma hsfmt hpfmt hgroup hofmt m hp hbytes hlen
    simp only [List.mem_cons, List.not_mem_nil, or_false] at hj
    rcases hj with rfl | rfl <;> exact excepts_of_matrix_slot hk hi hch hlayer rfl (by simp) rfl hmma rfl
  · obtain ⟨f, t, hctx⟩ := taskCtx_of_running hk hi
    have hfault : issueFault s k1 w = some 0x08 := by
      rw [hk1] at hmat ⊢
      exact issueFault_of_unchecked_rerun hctx hch hcond hnext hsop hmem hvec hmat htwo hmop hlayer
    exact excepts_of_exec_eq_coreFault (exec_wordIssue_of_issueFault hk hf hk1 hcond htrue hfault) rfl rfl

end Sys2Proof.Machine
